-- ==== Sys2Proof/Word.lean ====
section
/-! DEFINITION. The word types of the T9 (spec/00_scope.md R6) and nothing else. -/

namespace Sys2Proof

/-- A byte, 8 bits (R6). -/
abbrev Byte := BitVec 8

/-- A half, 16 bits (R6). -/
abbrev Half := BitVec 16

/-- A word, 32 bits (R6): what a vector register or a control register holds. -/
abbrev Word := BitVec 32

/-- A dword, 64 bits (R6): an instruction word, a digest. -/
abbrev Dword := BitVec 64

end Sys2Proof
end

