-- ==== Sys2Proof/Machine/Flags.lean ====
section
/-! DEFINITION. Number formats, rounding and the sticky flags (spec/02_number_formats.md R35 to R57), and the exact
arithmetic every floating-point operation is rounded from once. -/

namespace Sys2Proof.Machine

/-- FPX bits (Table 1.4). -/
def fNV : BitVec 6 := 1
def fDZ : BitVec 6 := 2
def fOF : BitVec 6 := 4
def fUF : BitVec 6 := 8
def fNX : BitVec 6 := 16
def fST : BitVec 6 := 32

/-- How a format encodes what is not finite (Table 2.2). -/
inductive Specials
  | ieee | e4m3 | none
  deriving DecidableEq, Repr

/-- A floating-point format (Table 2.1): exponent and significand bits, special encodings. -/
structure Fmt where
  eb : Nat
  mb : Nat
  sp : Specials := .ieee
  deriving DecidableEq, Repr

/-- Table 2.1, and the channels of packed colour (R46), which have no sign bit. -/
def fmtF32 : Fmt := { eb := 8, mb := 23 }
def fmtF16 : Fmt := { eb := 5, mb := 10 }
def fmtBf16 : Fmt := { eb := 8, mb := 7 }
def fmtE4m3 : Fmt := { eb := 4, mb := 3, sp := .e4m3 }
def fmtE5m2 : Fmt := { eb := 5, mb := 2 }
def fmtE2m1 : Fmt := { eb := 2, mb := 1, sp := .none }
def fmtColour6 : Fmt := { eb := 5, mb := 6 }
def fmtColour5 : Fmt := { eb := 5, mb := 5 }

/-- The exponent bias (Table 2.1). -/
def Fmt.bias (f : Fmt) : Int := (2 ^ (f.eb - 1) : Nat) - 1
/-- The sign bit's weight. -/
def Fmt.signBit (f : Fmt) : Nat := 2 ^ (f.eb + f.mb)
/-- Encoding of +∞ where the format has one. -/
def Fmt.infBits (f : Fmt) : Nat := (2 ^ f.eb - 1) * 2 ^ f.mb
/-- The canonical NaN (Table 2.2). -/
def Fmt.nan (f : Fmt) : Nat :=
  match f.sp with
  | .ieee => f.infBits + 2 ^ (f.mb - 1)
  | .e4m3 => 0x7F
  | .none => 0
/-- The largest finite encoding (Table 2.2). -/
def Fmt.maxBits (f : Fmt) : Nat :=
  match f.sp with
  | .ieee => f.infBits - 1
  | .e4m3 => 0x7E
  | .none => 7

/-- A decoded number: a NaN, an infinity, or (-1)^neg · m · 2^e. -/
inductive FVal
  | nan (sig : Bool)
  | inf (neg : Bool)
  | fin (neg : Bool) (m : Nat) (e : Int)
  deriving DecidableEq, Repr

/-- The value of an encoding (R36, R37, R39). -/
def Fmt.decode (f : Fmt) (bits : Nat) : FVal :=
  let neg := bits / f.signBit % 2 == 1
  let e := bits / 2 ^ f.mb % 2 ^ f.eb
  let m := bits % 2 ^ f.mb
  let lo : Int := 1 - f.bias - f.mb
  let finite : FVal := if e == 0 then .fin neg m lo else .fin neg (m + 2 ^ f.mb) (lo + e - 1)
  match f.sp with
  | .ieee =>
    if e == 2 ^ f.eb - 1 then (if m == 0 then .inf neg else .nan (decide (m < 2 ^ (f.mb - 1)))) else finite
  | .e4m3 => if e == 15 && m == 7 then .nan false else finite
  | .none => finite

/-- The sign of a decoded number; a NaN has none. -/
def FVal.neg : FVal → Bool
  | .nan _ => false
  | .inf n => n
  | .fin n _ _ => n

/-- A decoded number is a NaN, a signalling NaN, a zero. -/
def FVal.isNan : FVal → Bool
  | .nan _ => true
  | _ => false
def FVal.isSig : FVal → Bool
  | .nan s => s
  | _ => false
def FVal.isZero : FVal → Bool
  | .fin _ m _ => m == 0
  | _ => false
def FVal.isInf : FVal → Bool
  | .inf _ => true
  | _ => false

/-- An exact result: magnitude m · 2^e, or strictly between that and (m + 1) · 2^e when sticky. -/
structure Exact where
  neg : Bool
  m : Nat
  e : Int
  sticky : Bool := false
  deriving DecidableEq, Repr

/-- A rounded result: its encoding and the flags it sets (R56). -/
structure FRes where
  bits : Nat
  fl : BitVec 6 := 0
  deriving DecidableEq, Repr

/-- Effective rounding modes (Table 2.3). -/
def rmRn : Nat := 0
def rmRz : Nat := 1
def rmRup : Nat := 2
def rmRdn : Nat := 3
def rmSr : Nat := 4

/-- The exponent of the last place at a magnitude whose leading bit has weight 2^l (R35, R36). -/
def Fmt.quantum (f : Fmt) (l : Int) : Int := max (l - f.mb) (1 - f.bias - f.mb)

/-- k = ⌊m · 2^e / 2^q⌋, the rest, and the weight of the rest: rest / 2^sh of a unit. -/
def splitAt (m : Nat) (e q : Int) : Nat × Nat × Nat :=
  if q ≤ e then (m * 2 ^ (e - q).toNat, 0, 0)
  else
    let sh := (q - e).toNat
    (m / 2 ^ sh, m % 2 ^ sh, sh)

/-- Whether a magnitude with a discarded rest goes up (Table 2.3, R52). rnd is the generator word of .sr. -/
def roundsUp (mode : Nat) (neg odd : Bool) (r sh : Nat) (sticky : Bool) (rnd : Nat) : Bool :=
  let inexact := r != 0 || sticky
  match mode with
  | 0 => decide (2 ^ sh < 2 * r) || (2 * r == 2 ^ sh && sh != 0 && (sticky || odd))
  | 1 => false
  | 2 => inexact && !neg
  | 3 => inexact && neg
  | _ => decide (2 ^ 16 ≤ r * 2 ^ 16 / 2 ^ sh + rnd % 2 ^ 16) && inexact

/-- What a rounded magnitude that is not finite in the format becomes (R50, R54, R121). -/
def Fmt.overflow (f : Fmt) (mode : Nat) (neg sat : Bool) : FRes :=
  let sg := if neg then f.signBit else 0
  if sat then ⟨sg + f.maxBits, fST ||| fNX⟩
  else
    match f.sp with
    | .none => ⟨sg + f.maxBits, fOF ||| fNX⟩
    | _ =>
      let toMax := mode == rmRz || (mode == rmRup && neg) || (mode == rmRdn && !neg)
      if toMax then ⟨sg + f.maxBits, fOF ||| fNX⟩
      else if f.sp == .e4m3 then ⟨f.nan, fOF ||| fNX⟩
      else ⟨sg + f.infBits, fOF ||| fNX⟩

/-- Encode k · 2^q, where q is the quantum of the magnitude or k = 2^(mb+1). -/
def Fmt.encodeMag (f : Fmt) (k : Nat) (q : Int) : Nat :=
  if k < 2 ^ f.mb then k
  else if k < 2 ^ (f.mb + 1) then (q + f.bias + f.mb).toNat * 2 ^ f.mb + (k - 2 ^ f.mb)
  else (q + 1 + f.bias + f.mb).toNat * 2 ^ f.mb + (k / 2 - 2 ^ f.mb)

/-- One rounding of an exact result to a format (R48 to R50, R54, R56). -/
def Fmt.round (f : Fmt) (mode : Nat) (sat : Bool) (rnd : Nat) (x : Exact) : FRes :=
  let sg := if x.neg then f.signBit else 0
  if x.m == 0 && !x.sticky then ⟨sg, 0⟩
  else
    let l : Int := Nat.log2 x.m + x.e
    let q := f.quantum l
    let p := splitAt x.m x.e q
    let k := if roundsUp mode x.neg (p.1 % 2 == 1) p.2.1 p.2.2 x.sticky rnd then p.1 + 1 else p.1
    let inexact := p.2.1 != 0 || x.sticky
    let bits := f.encodeMag k q
    if f.maxBits < bits then f.overflow mode x.neg sat
    else
      ⟨sg + bits, (if inexact then fNX else 0) ||| (if inexact && decide (l < 1 - f.bias) then fUF else 0)⟩

/-- The canonical NaN with flags. -/
def Fmt.nanRes (f : Fmt) (fl : BitVec 6) : FRes := ⟨f.nan, fl⟩
/-- An infinity. -/
def Fmt.inf (f : Fmt) (neg : Bool) : FRes := ⟨(if neg then f.signBit else 0) + f.infBits, 0⟩
/-- A zero. -/
def Fmt.zero (f : Fmt) (neg : Bool) : FRes := ⟨if neg then f.signBit else 0, 0⟩

/-- FPX.NV when one of the operands signals (R39). -/
def sigFlag (xs : List FVal) : BitVec 6 := if xs.any FVal.isSig then fNV else 0

/-- The exact sum of two finite numbers; a zero sum of opposite signs is negative only in .rdn (R49). -/
def addFin (mode : Nat) (n1 : Bool) (m1 : Nat) (e1 : Int) (n2 : Bool) (m2 : Nat) (e2 : Int) : Exact :=
  let e := min e1 e2
  let a : Int := (m1 * 2 ^ (e1 - e).toNat : Nat)
  let b : Int := (m2 * 2 ^ (e2 - e).toNat : Nat)
  let v : Int := (if n1 then -a else a) + (if n2 then -b else b)
  if v == 0 then ⟨if n1 == n2 then n1 else mode == rmRdn, 0, 0, false⟩
  else ⟨decide (v < 0), v.natAbs, e, false⟩

/-- The exact product, or none for 0 × ∞ or a NaN (R110). -/
def FVal.mul : FVal → FVal → Option FVal
  | .nan _, _ => none
  | _, .nan _ => none
  | .inf a, .inf b => some (.inf (a != b))
  | .inf a, .fin b m _ => if m == 0 then none else some (.inf (a != b))
  | .fin a m _, .inf b => if m == 0 then none else some (.inf (a != b))
  | .fin a m e, .fin b n g => some (.fin (a != b) (m * n) (e + g))

/-- 0 × ∞ (R110). -/
def mulInvalid (a b : FVal) : Bool := (a.isZero && b.isInf) || (a.isInf && b.isZero)

/-- The opposite number. -/
def FVal.flip : FVal → FVal
  | .nan s => .nan s
  | .inf n => .inf (!n)
  | .fin n m e => .fin (!n) m e

/-- A sum of two numbers rounded once (R110, R49). -/
def Fmt.addVals (f : Fmt) (mode : Nat) (a b : FVal) : FRes :=
  match a, b with
  | .nan _, _ => f.nanRes (sigFlag [a, b])
  | _, .nan _ => f.nanRes (sigFlag [a, b])
  | .inf x, .inf y => if x == y then f.inf x else f.nanRes fNV
  | .inf x, .fin _ _ _ => f.inf x
  | .fin _ _ _, .inf y => f.inf y
  | .fin n1 m1 e1, .fin n2 m2 e2 => f.round mode false 0 (addFin mode n1 m1 e1 n2 m2 e2)

/-- A product rounded once (R110). -/
def Fmt.mulVals (f : Fmt) (mode : Nat) (a b : FVal) : FRes :=
  if mulInvalid a b then f.nanRes fNV
  else
    match a.mul b with
    | none => f.nanRes (sigFlag [a, b])
    | some (.nan _) => f.nanRes 0
    | some (.inf n) => f.inf n
    | some (.fin n m e) => f.round mode false 0 ⟨n, m, e, false⟩

/-- a × b + c rounded once (R110): an invalid product or sum is invalid even with a quiet NaN addend. -/
def Fmt.fmaVals (f : Fmt) (mode : Nat) (a b c : FVal) : FRes :=
  if mulInvalid a b then f.nanRes fNV
  else
    match a.mul b with
    | none => f.nanRes (sigFlag [a, b, c])
    | some p => let r := f.addVals mode p c
                ⟨r.bits, r.fl ||| sigFlag [c]⟩

/-- Square root of a number below 4^k, rounded down, by bits from the top. -/
def isqrtGo (n : Nat) : Nat → Nat → Nat
  | 0, r => r
  | k + 1, r => if (r + 2 ^ k) * (r + 2 ^ k) ≤ n then isqrtGo n k (r + 2 ^ k) else isqrtGo n k r

/-- Square root rounded down. -/
def isqrt (n : Nat) : Nat := isqrtGo n (Nat.log2 n / 2 + 1) 0

/-- An exact quotient of non-zero magnitudes, to 80 bits and a sticky bit. -/
def divExact (neg : Bool) (m1 : Nat) (e1 : Int) (m2 : Nat) (e2 : Int) : Exact :=
  let sh := 80 + Nat.log2 m2
  ⟨neg, m1 * 2 ^ sh / m2, e1 - sh - e2, m1 * 2 ^ sh % m2 != 0⟩

/-- An exact square root of a non-zero magnitude, to at least 80 bits and a sticky bit. -/
def sqrtExact (m : Nat) (e : Int) : Exact :=
  let odd := e % 2 != 0
  let m' := (if odd then 2 * m else m) * 2 ^ 160
  let e' := (if odd then e - 1 else e) - 160
  let r := isqrt m'
  ⟨false, r, e' / 2, r * r != m'⟩

/-- An exact reciprocal square root of a non-zero magnitude. -/
def rsqrtExact (m : Nat) (e : Int) : Exact :=
  let odd := e % 2 != 0
  let m' := if odd then 2 * m else m
  let e' := if odd then e - 1 else e
  let sh := 160 + 2 * (Nat.log2 m' + 1)
  let r := isqrt (2 ^ sh / m')
  ⟨false, r, -(e' / 2) - (sh / 2 : Nat), r * r * m' != 2 ^ sh⟩

/-- A quotient rounded once, with the special values of R128. -/
def Fmt.divVals (f : Fmt) (mode : Nat) (a b : FVal) : FRes :=
  match a, b with
  | .nan _, _ => f.nanRes (sigFlag [a, b])
  | _, .nan _ => f.nanRes (sigFlag [a, b])
  | .inf _, .inf _ => f.nanRes fNV
  | .inf x, .fin y _ _ => f.inf (x != y)
  | .fin x _ _, .inf y => f.zero (x != y)
  | .fin x m e, .fin y n g =>
    if n == 0 then (if m == 0 then f.nanRes fNV else ⟨(f.inf (x != y)).bits, fDZ⟩)
    else if m == 0 then f.zero (x != y)
    else f.round mode false 0 (divExact (x != y) m e n g)

/-- A square root rounded once (Table 4.12). -/
def Fmt.sqrtVal (f : Fmt) (mode : Nat) : FVal → FRes
  | .nan s => f.nanRes (if s then fNV else 0)
  | .inf n => if n then f.nanRes fNV else f.inf false
  | .fin n m e => if m == 0 then f.zero n else if n then f.nanRes fNV else f.round mode false 0 (sqrtExact m e)

/-- Magnitudes compared. -/
def magLt (m1 : Nat) (e1 : Int) (m2 : Nat) (e2 : Int) : Bool :=
  let e := min e1 e2
  decide (m1 * 2 ^ (e1 - e).toNat < m2 * 2 ^ (e2 - e).toNat)

/-- a < b as numbers, +0 = -0; false with a NaN. -/
def FVal.lt : FVal → FVal → Bool
  | .nan _, _ => false
  | _, .nan _ => false
  | .inf a, .inf b => a && !b
  | .inf a, .fin _ _ _ => a
  | .fin _ _ _, .inf b => !b
  | .fin n1 m1 e1, .fin n2 m2 e2 =>
    if m1 == 0 && m2 == 0 then false
    else match n1, n2 with
      | true, false => true
      | false, true => false
      | false, false => magLt m1 e1 m2 e2
      | true, true => magLt m2 e2 m1 e1

/-- a = b as numbers; false with a NaN. -/
def FVal.eq (a b : FVal) : Bool := !a.isNan && !b.isNan && !a.lt b && !b.lt a
/-- a ≤ b as numbers; false with a NaN. -/
def FVal.le (a b : FVal) : Bool := !a.isNan && !b.isNan && !b.lt a

/-- The order of fmin and fmax: -0 below +0 (R111). -/
def FVal.before (a b : FVal) : Bool := a.lt b || (a.eq b && a.neg && !b.neg)

/-- The opposite sign bit, and the sign bit cleared. -/
def Fmt.flipSign (f : Fmt) (x : Nat) : Nat := if x / f.signBit % 2 == 1 then x - f.signBit else x + f.signBit
def Fmt.clearSign (f : Fmt) (x : Nat) : Nat := if x / f.signBit % 2 == 1 then x - f.signBit else x

/-- Select an operand of min or max, bit for bit (R111); isMax chooses fmax. -/
def Fmt.minMax (f : Fmt) (isMax : Bool) (a b : Nat) : FRes :=
  let x := f.decode a
  let y := f.decode b
  let fl := sigFlag [x, y]
  if x.isNan && y.isNan then ⟨f.nan, fl⟩
  else if x.isNan then ⟨b, fl⟩
  else if y.isNan then ⟨a, fl⟩
  else if isMax then ⟨if x.before y then b else a, fl⟩
  else ⟨if y.before x then b else a, fl⟩

/-- Select by magnitude (R111). -/
def Fmt.minMaxMag (f : Fmt) (isMax : Bool) (a b : Nat) : FRes :=
  let x := f.decode (f.clearSign a)
  let y := f.decode (f.clearSign b)
  if x.isNan || y.isNan || x.eq y then f.minMax isMax a b
  else if isMax then ⟨if x.lt y then b else a, 0⟩
  else ⟨if y.lt x then b else a, 0⟩

/-- Encodings of the helpers of R144: FP32 operations that round to nearest and set no flag. -/
def addRn (a b : Nat) : Nat := (fmtF32.addVals rmRn (fmtF32.decode a) (fmtF32.decode b)).bits
def mulRn (a b : Nat) : Nat := (fmtF32.mulVals rmRn (fmtF32.decode a) (fmtF32.decode b)).bits
def fmaRn (a b c : Nat) : Nat := (fmtF32.fmaVals rmRn (fmtF32.decode a) (fmtF32.decode b) (fmtF32.decode c)).bits
def divRn (a b : Nat) : Nat := (fmtF32.divVals rmRn (fmtF32.decode a) (fmtF32.decode b)).bits
def sqrtRn (a : Nat) : Nat := (fmtF32.sqrtVal rmRn (fmtF32.decode a)).bits
def negF (a : Nat) : Nat := fmtF32.flipSign a
def minF (a b : Nat) : Nat := (fmtF32.minMax false a b).bits
def maxF (a b : Nat) : Nat := (fmtF32.minMax true a b).bits
def ltF (a b : Nat) : Bool := (fmtF32.decode a).lt (fmtF32.decode b)
def leF (a b : Nat) : Bool := (fmtF32.decode a).le (fmtF32.decode b)
def eqF (a b : Nat) : Bool := (fmtF32.decode a).eq (fmtF32.decode b)
def isNanF (a : Nat) : Bool := (fmtF32.decode a).isNan

/-- The number an encoding stands for, made exact: NaN and infinities are handled by the caller. -/
def FVal.exact : FVal → Exact
  | .fin n m e => ⟨n, m, e, false⟩
  | _ => ⟨false, 0, 0, false⟩

/-- An integer as a number. -/
def intVal (v : Int) : FVal := .fin (decide (v < 0)) v.natAbs 0

/-- Round an exact number to an integer by a mode, with whether it was inexact (R55). -/
def roundToInt (mode rnd : Nat) (x : Exact) : Int × Bool :=
  let p := splitAt x.m x.e 0
  let k := if roundsUp mode x.neg (p.1 % 2 == 1) p.2.1 p.2.2 x.sticky rnd then p.1 + 1 else p.1
  (if x.neg then -(k : Int) else k, p.2.1 != 0 || x.sticky)

/-- Widen an encoding exactly to FP32; a NaN becomes the canonical NaN (R49). -/
def Fmt.widen (f : Fmt) (x : Nat) : Nat :=
  match f.decode x with
  | .nan _ => fmtF32.nan
  | .inf n => (fmtF32.inf n).bits
  | .fin n m e => (fmtF32.round rmRn false 0 ⟨n, m, e, false⟩).bits

/-- One advance of the stochastic generator (R52). -/
def advance (g : Word) : Word :=
  let g := g ^^^ (g <<< 13)
  let g := g ^^^ (g >>> 17)
  g ^^^ (g <<< 5)

/-- The generator of a lane as SEED sets it (R51). -/
def seedLane (seed : Word) (l : Nat) : Word :=
  let g := seed ^^^ (BitVec.ofNat 32 l * 0x9E3779B9)
  if g == 0 then 0x9E3779B9 else g

/-- Table 4.4 on numbers, with the flags of R112: whether it holds and whether NV is set. -/
def fcond (cond : Nat) (a b : FVal) : Bool × Bool :=
  let un := a.isNan || b.isNan
  let nv := a.isSig || b.isSig || (un && decide (2 ≤ cond) && decide (cond ≤ 5))
  (match cond with
   | 0 => a.eq b
   | 1 => un || !a.eq b
   | 2 => a.lt b
   | 3 => a.le b
   | 4 => b.lt a
   | 5 => b.le a
   | 6 => un
   | _ => !un, nv)

/-- Table 4.4 on integers. -/
def icond (cond : Nat) (a b : Int) : Bool :=
  match cond with
  | 0 => a == b
  | 1 => a != b
  | 2 => decide (a < b)
  | 3 => decide (a ≤ b)
  | 4 => decide (b < a)
  | _ => decide (b ≤ a)

end Sys2Proof.Machine
end

