-- ==== Sys2Proof/Syntax.lean ====
section
/-! DEFINITION. The instructions of the T9 as data: operand values (spec/01_lane_machine.md R17 to R21), the fields
an instruction carries with its prefixes (spec/03_encoding_and_assembly.md R62 to R72), and ONE inductive with a
constructor for each row of spec/opcode_table.json. A row without an encoding is a step of an engine, of the Launch
Processor, of the host or of the outside (spec/95_what_each_step_holds.md); its constructor names the object it acts on. -/

namespace Sys2Proof

/-- The special operands 640 to 668 (Table 1.2), in the order of their values. -/
inductive Special
  | lane | warp | block | stage | tile | tlane | zero | ones | true_ | clk | fpone | fphalf | fptwo | fpneg | fpinf
  | fpnan | fpmax | tsize | nwarp | lastblk | core | die | lmask | ltmask | active | depth | tcb | nstage | argc
  deriving DecidableEq, Repr

/-- What an operand field selects (Table 1.1), or the 32-bit immediate that replaces B in an X form (R68). -/
inductive Operand
  /-- register v0 to v639 -/
  | reg (n : Nat)
  /-- a special operand of Table 1.2 -/
  | spc (s : Special)
  /-- an inline integer constant, -128 to +127 -/
  | inl (v : Int)
  /-- a reserved field value, 669 to 703 or 960 to 1023: it raises trap 0x03 at issue (R19) -/
  | resv (v : Nat)
  /-- the raw immediate of an X form -/
  | imm (w : Word)
  deriving DecidableEq, Repr

/-- A predicate (R21): an operand, a sense and a bit index. -/
structure Pred where
  src : Operand
  sense : Bool
  bit : Nat
  deriving DecidableEq, Repr

/-- A repeat prefix (Table 3.5): the number of repeats and the steps of D, A and B. -/
structure RepeatMod where
  count : Nat
  sd : Nat
  sa : Nat
  sb : Nat
  deriving DecidableEq, Repr

/-- An extended-modifier prefix (Table 3.5): live set, timeout exponent, colour, further modifiers. -/
structure ExtMod where
  ls : Nat
  tmo : Nat
  col : Nat
  xm : Nat
  deriving DecidableEq, Repr

/-- The shape an instruction was encoded in: an F word, an X head with its extension, or an H half. -/
inductive Form
  | f | x | h
  deriving DecidableEq, Repr

/-- The fields of an instruction, prefixes merged in (R75). -/
structure Operands where
  form : Form
  d : Operand
  a : Operand
  b : Operand
  pred : Pred
  modBits : Nat
  rep : Option RepeatMod
  ext : Option ExtMod
  deriving DecidableEq, Repr

/-- A 128-byte line that an engine may own (R236, R305): of a block's shared memory, of a die's scratchpad, or of
a block's weight-buffer allocation. -/
inductive LineKey
  | shared (block line : Nat)
  | spad (die line : Nat)
  | weight (block line : Nat)
  deriving DecidableEq, Repr

/-- What a Sensor Port receives (R468, R469): CSI-2 port, virtual channel, data type and lines, or I3C address and first
register; and the bytes. -/
structure SensorUnit where
  port : Nat
  channel : Nat
  select : Nat
  lines : Nat
  payload : List Byte
  deriving DecidableEq, Repr

/-- Where an uncorrectable error strikes (Table 21.7). -/
inductive ErrorPlace
  /-- a core's register files, shared memory, weight buffer, queues or caches -/
  | core (die core : Nat)
  /-- a scratchpad slice line, by its line number -/
  | slice (die line : Nat)
  /-- a DRAM read made for a context -/
  | dram (ctx : Nat)
  /-- a DRAM read made by the scrub -/
  | scrub
  deriving DecidableEq, Repr

/-- One constructor for each row of spec/opcode_table.json. -/
inductive Instr
  /-- `nop` (R129): Does nothing except advance the PC. -/
  | nop (o : Operands)
  /-- `br` (R68): Branches to the X head's PC plus 8 times the signed immediate, at half 0. -/
  | br (o : Operands)
  /-- `brx` (R130): Branches to the byte offset in b and traps 0x12 if that offset is misaligned. -/
  | brx (o : Operands)
  /-- `call` (R131): Pushes the return offset onto the spill stack and then branches by the immediate. -/
  | call (o : Operands)
  /-- `callx` (R131): Pushes the return offset onto the spill stack and then branches to b. -/
  | callx (o : Operands)
  /-- `ret` (R131): Pops a return offset from the spill stack and branches to it. -/
  | ret (o : Operands)
  /-- `exit` (R34): Ends the lane; a warp's last exit waits for its engine operations and frees its registers. -/
  | exit (o : Operands)
  /-- `join` (R173): Holds the lane at the join address until its rejoin mask is released. -/
  | join (o : Operands)
  /-- `yield` (R184): Restarts the warp's age so that it issues behind equal ready warps. -/
  | yield (o : Operands)
  /-- `trap` (R133): Parks the lane with software trap 0x3F and the argument in b. -/
  | trap (o : Operands)
  /-- `brk` (R133): Parks the lane with breakpoint trap 0x3E. -/
  | brk (o : Operands)
  /-- `csr.rd` (R134): Reads a control register; a read of DIG latches DIGH. -/
  | csrRd (o : Operands)
  /-- `csr.wr` (R135): Writes a control register with the side effects of its scope and register. -/
  | csrWr (o : Operands)
  /-- `csr.set` (R135): ORs b into a control register. -/
  | csrSet (o : Operands)
  /-- `csr.clr` (R135): Clears the bits of b in a control register. -/
  | csrClr (o : Operands)
  /-- `clk.rd` (R137): Writes the 64-bit cycle count into a register pair. -/
  | clkRd (o : Operands)
  /-- `dig.fold` (R138): Folds (b:a) into the warp's digest in lane order. -/
  | digFold (o : Operands)
  /-- `pc.rd` (R140): Writes the PC of its own instruction word. -/
  | pcRd (o : Operands)
  /-- `hdl.resume` (R139): Relaunches the parked lanes of a faulted record at its PC and REPC. -/
  | hdlResume (o : Operands)
  /-- `hdl.kill` (R139): Ends the parked lanes of a faulted record. -/
  | hdlKill (o : Operands)
  /-- `hdl.esc` (R139): Escalates a faulted record and starts the core dump. -/
  | hdlEsc (o : Operands)
  /-- `iadd` (R99): Integer add, wrapping or saturating. -/
  | iadd (o : Operands)
  /-- `isub` (R99): Integer subtract, wrapping or saturating. -/
  | isub (o : Operands)
  /-- `imul` (R99): Low 32 bits of the integer product, wrapping or saturating. -/
  | imul (o : Operands)
  /-- `imulh` (R98): High 32 bits of the 64-bit integer product. -/
  | imulh (o : Operands)
  /-- `imad` (R99): Integer multiply-add, wrapping or saturating. -/
  | imad (o : Operands)
  /-- `imadw` (R100): 64-bit multiply-add into a register pair. -/
  | imadw (o : Operands)
  /-- `iaddx` (R100): Add with a carry in, returning the sum or the carry out. -/
  | iaddx (o : Operands)
  /-- `idiv` (R102): Integer quotient rounded toward zero, never trapping. -/
  | idiv (o : Operands)
  /-- `irem` (R102): Integer remainder carrying the sign of a. -/
  | irem (o : Operands)
  /-- `iabs` (R99): Integer absolute value, optionally saturating. -/
  | iabs (o : Operands)
  /-- `imin` (R98): Lesser of two integers. -/
  | imin (o : Operands)
  /-- `imax` (R98): Greater of two integers. -/
  | imax (o : Operands)
  /-- `sel` (R103): Selects a or b by bit K of c. -/
  | sel (o : Operands)
  /-- `mov` (R98): Copies b to d. -/
  | mov (o : Operands)
  /-- `icmp` (R101): Writes an integer comparison result into bit K of d. -/
  | icmp (o : Operands)
  /-- `and` (R98): Bitwise and. -/
  | and (o : Operands)
  /-- `or` (R98): Bitwise or. -/
  | or (o : Operands)
  /-- `xor` (R98): Bitwise exclusive or. -/
  | xor (o : Operands)
  /-- `andn` (R98): a and not b. -/
  | andn (o : Operands)
  /-- `orn` (R98): a or not b. -/
  | orn (o : Operands)
  /-- `lgc3` (R104): Three-input bitwise function chosen by a function byte. -/
  | lgc3 (o : Operands)
  /-- `shl` (R105): Logical left shift. -/
  | shl (o : Operands)
  /-- `shr` (R105): Logical right shift. -/
  | shr (o : Operands)
  /-- `sar` (R105): Arithmetic right shift. -/
  | sar (o : Operands)
  /-- `rol` (R105): Rotate left. -/
  | rol (o : Operands)
  /-- `ror` (R105): Rotate right. -/
  | ror (o : Operands)
  /-- `fsh` (R106): Funnel shift of a 64-bit concatenation. -/
  | fsh (o : Operands)
  /-- `bfx` (R107): Extracts a bit field. -/
  | bfx (o : Operands)
  /-- `bfi` (R107): Inserts a bit field. -/
  | bfi (o : Operands)
  /-- `popc` (R98): Counts the one bits. -/
  | popc (o : Operands)
  /-- `clz` (R98): Counts the leading zero bits. -/
  | clz (o : Operands)
  /-- `brev` (R98): Reverses the bits. -/
  | brev (o : Operands)
  /-- `bset` (R98): Sets one bit. -/
  | bset (o : Operands)
  /-- `bclr` (R98): Clears one bit. -/
  | bclr (o : Operands)
  /-- `va.add` (R108): Adds to a 72-bit address triple. -/
  | vaAdd (o : Operands)
  /-- `va.sub` (R108): Subtracts two 72-bit address triples. -/
  | vaSub (o : Operands)
  /-- `va.cmp` (R108): Compares two 72-bit address triples into bit K. -/
  | vaCmp (o : Operands)
  /-- `va.mov` (R108): Copies a 72-bit address triple. -/
  | vaMov (o : Operands)
  /-- `fadd` (R109): Floating-point add. -/
  | fadd (o : Operands)
  /-- `fsub` (R109): Floating-point subtract. -/
  | fsub (o : Operands)
  /-- `fmul` (R109): Floating-point multiply. -/
  | fmul (o : Operands)
  /-- `fma` (R109): Fused multiply-add. -/
  | fma (o : Operands)
  /-- `fms` (R109): Fused multiply-subtract. -/
  | fms (o : Operands)
  /-- `fnma` (R109): Negated fused multiply-add. -/
  | fnma (o : Operands)
  /-- `fmin` (R111): Floating-point minimum. -/
  | fmin (o : Operands)
  /-- `fmax` (R111): Floating-point maximum. -/
  | fmax (o : Operands)
  /-- `fcmp` (R112): Writes a floating-point comparison into bit K of d. -/
  | fcmp (o : Operands)
  /-- `fcmp.ax` (R116): Approximate compare at the AXC level, always giving the exact outcome. -/
  | fcmpAx (o : Operands)
  /-- `fclass` (R113): Writes the class mask of b. -/
  | fclass (o : Operands)
  /-- `fmov` (R109): Bit-exact move after sign modifiers. -/
  | fmov (o : Operands)
  /-- `frnd` (R114): Rounds to an integral value. -/
  | frnd (o : Operands)
  /-- `fscale` (R110): Computes a times 2 to the power b. -/
  | fscale (o : Operands)
  /-- `fgetx` (R114): Writes the binary exponent of b. -/
  | fgetx (o : Operands)
  /-- `fdot2` (R115): Two-element dot product plus c with one rounding. -/
  | fdot2 (o : Operands)
  /-- `fclamp` (R111): Clamps a between b and c. -/
  | fclamp (o : Operands)
  /-- `fminmag` (R111): Returns the operand of lesser magnitude. -/
  | fminmag (o : Operands)
  /-- `fmaxmag` (R111): Returns the operand of greater magnitude. -/
  | fmaxmag (o : Operands)
  /-- `ffrac` (R110): Computes the exact fractional part of b. -/
  | ffrac (o : Operands)
  /-- `cvt.f32` (R119): Converts to f32. -/
  | cvtF32 (o : Operands)
  /-- `cvt.f16` (R119): Converts to two packed f16 elements. -/
  | cvtF16 (o : Operands)
  /-- `cvt.bf16` (R119): Converts to two packed bf16 elements. -/
  | cvtBf16 (o : Operands)
  /-- `cvt.e4m3` (R119): Converts to E4M3 bytes. -/
  | cvtE4m3 (o : Operands)
  /-- `cvt.e5m2` (R119): Converts to E5M2 bytes. -/
  | cvtE5m2 (o : Operands)
  /-- `cvt.e2m1` (R121): Converts to E2M1 nibbles without a block scale. -/
  | cvtE2m1 (o : Operands)
  /-- `cvt.int` (R122): Converts a floating element to a saturated integer type. -/
  | cvtInt (o : Operands)
  /-- `cvt.rgb` (R125): Converts three f32 values to packed 11-11-10 colour. -/
  | cvtRgb (o : Operands)
  /-- `cvt.mxf4` (R123): Converts 32 f32 values to an E2M1 block. -/
  | cvtMxf4 (o : Operands)
  /-- `cvt.mxi8` (R123): Converts 32 f32 values to an INT8 block. -/
  | cvtMxi8 (o : Operands)
  /-- `cvt.mxi4` (R123): Converts 32 f32 values to an INT4 block. -/
  | cvtMxi4 (o : Operands)
  /-- `cvt.unrgb` (R119): Extracts one packed-colour channel as f32. -/
  | cvtUnrgb (o : Operands)
  /-- `cvt.unmx` (R124): Extracts one element of a block-scaled block as f32. -/
  | cvtUnmx (o : Operands)
  /-- `rcp` (R126): Reciprocal. -/
  | rcp (o : Operands)
  /-- `rsqrt` (R126): Reciprocal square root. -/
  | rsqrt (o : Operands)
  /-- `sqrt` (R126): Square root. -/
  | sqrt (o : Operands)
  /-- `exp2` (R126): Base-2 exponential. -/
  | exp2 (o : Operands)
  /-- `log2` (R126): Base-2 logarithm. -/
  | log2 (o : Operands)
  /-- `sin` (R126): Sine. -/
  | sin (o : Operands)
  /-- `cos` (R126): Cosine. -/
  | cos (o : Operands)
  /-- `tanh` (R126): Hyperbolic tangent. -/
  | tanh (o : Operands)
  /-- `fdiv` (R126): Floating-point division. -/
  | fdiv (o : Operands)
  /-- `sigm` (R126): Logistic sigmoid. -/
  | sigm (o : Operands)
  /-- `smx.mul` (R148): Small matrix product in registers. -/
  | smxMul (o : Operands)
  /-- `smx.mad` (R148): Small matrix product plus an addend window. -/
  | smxMad (o : Operands)
  /-- `smx.add` (R149): Element-wise small matrix add. -/
  | smxAdd (o : Operands)
  /-- `smx.scl` (R149): Scales a small matrix by a scalar. -/
  | smxScl (o : Operands)
  /-- `smx.tr` (R150): Transposes a small matrix. -/
  | smxTr (o : Operands)
  /-- `smx.sym` (R150): Symmetrises a small matrix. -/
  | smxSym (o : Operands)
  /-- `smx.id` (R150): Writes a scaled identity matrix. -/
  | smxId (o : Operands)
  /-- `smx.chol` (R152): Cholesky factorisation with a status word. -/
  | smxChol (o : Operands)
  /-- `smx.lu` (R153): LU factorisation with partial pivoting, a permutation word and a status word. -/
  | smxLu (o : Operands)
  /-- `smx.sol` (R155): Triangular or factored solve for several right-hand sides. -/
  | smxSol (o : Operands)
  /-- `smx.ld.sh` (R156): Loads a matrix window from shared memory. -/
  | smxLdSh (o : Operands)
  /-- `smx.st.sh` (R157): Stores a matrix window to shared memory. -/
  | smxStSh (o : Operands)
  /-- `vote` (R192): Votes a predicate bit across the lane's group. -/
  | vote (o : Operands)
  /-- `elect` (R193): Marks the lowest or highest participant of each group. -/
  | elect (o : Operands)
  /-- `bcast` (R193): Broadcasts the value of the lowest or highest participant. -/
  | bcast (o : Operands)
  /-- `shf` (R194): Shuffles values within the tile. -/
  | shf (o : Operands)
  /-- `prm` (R195): Scatters values to target lanes of the tile. -/
  | prm (o : Operands)
  /-- `match` (R198): Writes the mask of lanes that hold equal keys. -/
  | matchKeys (o : Operands)
  /-- `red` (R200): Reduces values of the group in a fixed order. -/
  | red (o : Operands)
  /-- `scan` (R200): Inclusive or exclusive prefix scan. -/
  | scan (o : Operands)
  /-- `sscan` (R200): Segmented prefix scan. -/
  | sscan (o : Operands)
  /-- `rank` (R197): Counts lower lanes with a set bit or an equal key. -/
  | rank (o : Operands)
  /-- `cmpct` (R196): Compacts the selected values to the front of the tile. -/
  | cmpct (o : Operands)
  /-- `part` (R201): Checked write of the partition size. -/
  | part (o : Operands)
  /-- `lsel` (R202): Selects a or c by the lane's bit of a mask. -/
  | lsel (o : Operands)
  /-- `ld.sh` (R258): Loads from shared memory. -/
  | ldSh (o : Operands)
  /-- `st.sh` (R258): Stores to shared memory. -/
  | stSh (o : Operands)
  /-- `ld.sp` (R258): Loads from the scratchpad window, suspending on a miss. -/
  | ldSp (o : Operands)
  /-- `st.sp` (R258): Stores to the scratchpad window. -/
  | stSp (o : Operands)
  /-- `ldm.t` (R259): Loads 16x16 tiles of 16-bit elements transposed. -/
  | ldmT (o : Operands)
  /-- `ld.par` (R262): Reads a word of the warp's argument block. -/
  | ldPar (o : Operands)
  /-- `pref.sp` (R263): Hints a scratchpad line into the cache. -/
  | prefSp (o : Operands)
  /-- `atm` (R266): Atomic operation on a shared or scratchpad word. -/
  | atm (o : Operands)
  /-- `atm.cas` (R268): Atomic compare-exchange. -/
  | atmCas (o : Operands)
  /-- `spl.push` (R264): Pushes registers onto the spill stack. -/
  | splPush (o : Operands)
  /-- `spl.pop` (R264): Pops registers from the spill stack. -/
  | splPop (o : Operands)
  /-- `spl.rd` (R265): Reads a spill stack word relative to SPS. -/
  | splRd (o : Operands)
  /-- `wait.addr` (R271): Waits until a memory word satisfies a condition. -/
  | waitAddr (o : Operands)
  /-- `fence.c` (R272): Waits for the warp's engine operations of the masked colours. -/
  | fenceC (o : Operands)
  /-- `bar.arv` (R182): Arrives at a block barrier without waiting. -/
  | barArv (o : Operands)
  /-- `bar.wait` (R182): Waits for a block barrier phase to pass. -/
  | barWait (o : Operands)
  /-- `bar.sync` (R182): Arrives at a block barrier and waits for the phase. -/
  | barSync (o : Operands)
  /-- `bcp` (R285): Checks and hands a copy descriptor to the Bulk Copy Engine. -/
  | bcp (o : Operands)
  /-- `bcp.wait` (R296): Waits for a copy handle to retire. -/
  | bcpWait (o : Operands)
  /-- `bcp.st` (R297): Reads the state word of a copy handle. -/
  | bcpSt (o : Operands)
  /-- `bbar.init` (R294): Arms a byte barrier and clears FLT. -/
  | bbarInit (o : Operands)
  /-- `bbar.wait` (R295): Waits for a byte barrier phase to pass. -/
  | bbarWait (o : Operands)
  /-- `bbar.add` (R294): Adds to a byte barrier's outstanding count. -/
  | bbarAdd (o : Operands)
  /-- `bbar.rd` (R294): Reads REM, GEN and FLT of a byte barrier. -/
  | bbarRd (o : Operands)
  /-- `q.init` (R344): Resets a named queue and cancels its waiters. -/
  | qInit (o : Operands)
  /-- `q.push` (R343): Pushes one entry per lane onto a named queue. -/
  | qPush (o : Operands)
  /-- `q.pop` (R343): Pops one entry per lane from a named queue. -/
  | qPop (o : Operands)
  /-- `q.len` (R344): Reads a named queue's entry count. -/
  | qLen (o : Operands)
  /-- `hng.init` (R347): Initialises a hinge ring and cancels its waiters. -/
  | hngInit (o : Operands)
  /-- `hng.take` (R347): Waits for a hinge ring slot to reach the expected phase. -/
  | hngTake (o : Operands)
  /-- `hng.give` (R347): Flips the phase of a hinge ring slot. -/
  | hngGive (o : Operands)
  /-- `hng.rd` (R347): Reads a hinge ring's state word. -/
  | hngRd (o : Operands)
  /-- `spawn` (R330): Spawns a task from its control block, arming it or making it ready. -/
  | spawn (o : Operands)
  /-- `task.done` (R333): Fences and then ends the task or finishes a claimed task. -/
  | taskDone (o : Operands)
  /-- `dep.arm` (R331): Adds to a task's dependence counter, followed by the release test. -/
  | depArm (o : Operands)
  /-- `dep.dec` (R331): Decrements a task's dependence counter, followed by the release test. -/
  | depDec (o : Operands)
  /-- `task.wait` (R338): Waits for a task to finish or for its children to reach zero. -/
  | taskWait (o : Operands)
  /-- `task.st` (R339): Reads a task's state word. -/
  | taskSt (o : Operands)
  /-- `dq.push` (R340): Pushes a claimed task back into the core's deque. -/
  | dqPush (o : Operands)
  /-- `dq.pop` (R340): Claims the owner-end task of the core's deque. -/
  | dqPop (o : Operands)
  /-- `dq.steal` (R340): Claims the thief-end task of a core's deque. -/
  | dqSteal (o : Operands)
  /-- `mm.go` (R309): Checks a parameter block and starts a Matrix Engine operation. -/
  | mmGo (o : Operands)
  /-- `mm.wait` (R313): Waits for a matrix ticket to complete. -/
  | mmWait (o : Operands)
  /-- `mm.st` (R314): Reads the state of a matrix ticket. -/
  | mmSt (o : Operands)
  /-- `mxq.pop` (R317): Pops a row from a matrix-to-vector queue. -/
  | mxqPop (o : Operands)
  /-- `mxq.len` (R318): Reads the count word of a matrix queue. -/
  | mxqLen (o : Operands)
  /-- `mxq.rst` (R318): Empties a matrix queue and cancels its waiters. -/
  | mxqRst (o : Operands)
  /-- `wb.load` (R319): Copies weights into the block's weight buffer. -/
  | wbLoad (o : Operands)
  /-- `wb.clr` (R320): Clears a range of the weight buffer as an engine operation. -/
  | wbClr (o : Operands)
  /-- `spk.prio` (R362): Writes a rendering register and returns its old value. -/
  | spkPrio (o : Operands)
  /-- `spk.map` (R363): Updates bytes of a tile's priority map entry. -/
  | spkMap (o : Operands)
  /-- `spk.rd` (R362): Reads a rendering register or a tile's map, age or pass. -/
  | spkRd (o : Operands)
  /-- `samp.emit` (R364): Writes a sample record into the local or the other die's Sample Buffer. -/
  | sampEmit (o : Operands)
  /-- `samp.gth` (R366): Gathers a tile's newest sample records into registers. -/
  | sampGth (o : Operands)
  /-- `trv.init` (R379): Initialises a traversal window from a ray. -/
  | trvInit (o : Operands)
  /-- `trv.step` (R383): Advances a BVH traversal and reports an event. -/
  | trvStep (o : Operands)
  /-- `trv.hit` (R386): Commits a candidate hit that improves on the committed one. -/
  | trvHit (o : Operands)
  /-- `prb.step` (R388): Tests a sample against up to four probe list entries. -/
  | prbStep (o : Operands)
  /-- `tex.smp` (R390): Samples a texture. -/
  | texSmp (o : Operands)
  /-- `tex.qry` (R391): Reads a texture level's size and level count. -/
  | texQry (o : Operands)
  /-- `tru.sort` (R392): Arrives at the block's sort phase for repacking by key. -/
  | truSort (o : Operands)
  /-- `row.put` (R370): Writes a pixel code into a band slot. -/
  | rowPut (o : Operands)
  /-- `row.ack` (R371): Counts one acknowledgement for a band request. -/
  | rowAck (o : Operands)
  /-- `cmb.alloc` (R398): Allocates a Combine Unit slot from a descriptor. -/
  | cmbAlloc (o : Operands)
  /-- `cmb.put` (R401): Sends one expert's vector to a combine slot. -/
  | cmbPut (o : Operands)
  /-- `cmb.stat` (R407): Reads a slot's status, the drop count or the free-slot count. -/
  | cmbStat (o : Operands)
  /-- `cmb.free` (R408): Frees or cancels a combine slot. -/
  | cmbFree (o : Operands)
  -- The steps that no encoding names (spec/95_what_each_step_holds.md): engines, Launch Processor, host, sensors, power.
  /-- INSTRUCTION_CACHE_FILL (R75): Fetches code and expands it into internal words, storing trap-on-issue words for illegal encodings. -/
  | instructionCacheFill (die core ctx base pc : Nat)
  /-- JOIN_RELEASE (R174): Releases the lowest rejoin mask when the warp has no runnable lane. -/
  | joinRelease (wid : Nat)
  /-- LANE_SET_STARVED (R171): A lane set passed over 64 times becomes starved and takes issue priority. -/
  | laneSetStarved (wid lane : Nat)
  /-- WARP_BOOST (R184): A warp that is ready for 2,048 cycles without issuing becomes boosted. -/
  | warpBoost (wid : Nat)
  /-- SPIN_DEMOTE (R185): The spin detector demotes a warp after 16 unproductive taken backward branches. -/
  | spinDemote (wid : Nat)
  /-- WAIT_TIMEOUT (R224): A waiting record's deadline passes and it becomes ready with status 1. -/
  | waitTimeout (wid seq : Nat)
  /-- RECORD_RESUME (R219): Restores a ready continuation record's lanes and makes them runnable. -/
  | recordResume (wid seq : Nat)
  /-- WARP_REENTER (R213): A warp outside the active scheduling set re-enters it when a record is ready and there is room. -/
  | warpReenter (wid : Nat)
  /-- STORE_PERFORMED (R231): A store or atomic reaches its bank or slice, readying matching waiters and passing queue stamps. -/
  | storePerformed (wid : Nat)
  /-- SCRATCHPAD_LINE_FILL (R212): A missed scratchpad line arrives and completes the suspended load or probe. -/
  | scratchpadLineFill (die core line : Nat)
  /-- DET_REQUEST_APPLY (R249): A chained DET atomic request is applied in (b, w) order. -/
  | detRequestApply (wid seq : Nat)
  /-- ENGINE_LINE_RELEASE (R237): An engine releases an owned line, its writes take effect and waiting requests are granted. -/
  | engineLineRelease (op : Nat) (line : LineKey)
  /-- COPY_COMPLETE (R290): A copy completes, writes its completion word and retires its slot. -/
  | copyComplete (op : Nat)
  /-- COPY_FAULT (R291): A copy stops at its first faulting byte and its trap becomes pending. -/
  | copyFault (op : Nat)
  /-- COPY_BLOCK_WRITTEN (R289): An aligned 64-byte block of a copy's main-memory destination has been written, and the engine makes one byte-barrier arrival for it. -/
  | copyBlockWritten (op block : Nat)
  /-- REMOTE_LINE_ACQUISITION (R237): A cross-die copy's request reaches the other die's slice, where it acquires ownership of its destination lines in that die's order. -/
  | remoteLineAcquisition (op : Nat)
  /-- MATRIX_START (R299): The Matrix Engine starts an accepted operation once its sources are unowned. -/
  | matrixStart (op : Nat)
  /-- MXQ_ROW_PUSH (R316): A drain-mode row is pushed into its queue and may satisfy a waiting pop. -/
  | mxqRowPush (op : Nat)
  /-- MATRIX_COMPLETE (R312): A matrix operation completes, ending its hold and advancing the warp's C count. -/
  | matrixComplete (op : Nat)
  /-- FORWARDED_RECORD_ARRIVAL (R365): A forwarded sample record is written or dropped on the receiving die. -/
  | forwardedRecordArrival (op : Nat)
  /-- TASK_START (R327): A core takes a fitting task from its own deque's owner end and starts it. -/
  | taskStart (die core ctx : Nat)
  /-- TASK_STEAL (R327): A core steals a fitting task from another core's thief end and starts it. -/
  | taskSteal (die core ctx : Nat)
  /-- TRAVERSAL_READ_COMPLETE (R385): Node reads of a suspended traversal step complete and the windows are written. -/
  | traversalReadComplete (wid seq : Nat)
  /-- TEXTURE_SAMPLE_COMPLETE (R390): The texels of a suspended texture sample return and the colour is written. -/
  | textureSampleComplete (wid seq : Nat)
  /-- SAMPLE_GATHER_COMPLETE (R366): A suspended samp.gth receives its records. -/
  | sampleGatherComplete (wid seq : Nat)
  /-- PUT_FIRST_BYTE (R402): A combine put's first byte reaches the slot's die and its fate is decided. -/
  | putFirstByte (op : Nat)
  /-- PUT_ARRIVAL (R402): A landed put's last byte is written, setting its ARR bit and possibly closing the slot. -/
  | putArrival (op : Nat)
  /-- COMBINE_DEADLINE (R404): An open slot reaches its deadline and closes with missing experts substituted. -/
  | combineDeadline (die slot : Nat)
  /-- COMBINE_RELEASE (R406): A closed slot forms the weighted sum, writes the output and its completion word, and releases its lines. -/
  | combineRelease (die slot : Nat)
  /-- LAUNCH_RECORD_READ (R458): The Launch Processor reads the queue's next launch record. -/
  | launchRecordRead (queue : Nat)
  /-- BLOCK_PLACE (R163): Places a block whole on the lowest-numbered core that fits it. -/
  | blockPlace (launch : Nat)
  /-- HANDLER_DISPATCH (R426): Dispatches a parked user record to a handler warp or escalates it. -/
  | handlerDispatch (wid seq : Nat)
  /-- RT_PREEMPT (R431): Placing an RT block turns the core's non-RT lane sets into pre-emption records. -/
  | rtPreempt (die core : Nat)
  /-- DRAIN_TIMEOUT (R435): A drain not ended after 2^20 cycles becomes a save. -/
  | drainTimeout (block : Nat)
  /-- BLOCK_SAVE (R437): Saves a block's records and tile state into the spill area. -/
  | blockSave (block : Nat)
  /-- WATCHDOG_EXPIRY (R439): The context watchdog reaches 2^K with a launch unfinished, causing a device fault. -/
  | watchdogExpiry (ctx : Nat)
  /-- UNCORRECTABLE_ERROR (R441): An uncorrectable memory error is detected. -/
  | uncorrectableError (place : ErrorPlace)
  /-- DIE_BRIDGE_LINK_LOSS (R453): A bridge link that fails to recover within 100 µs is lost, which is a device fault. -/
  | dieBridgeLinkLoss
  /-- CORE_DUMP (R444): Writes the dump sections and then the header to the dump buffer. -/
  | coreDump (ctx : Nat)
  /-- PICKER_TICK (R353): Each µs launches due pending warps, adds credit and makes picks. -/
  | pickerTick (die : Nat)
  /-- BAND_REQUEST (R369): Requests a band, assigns a slot and launches reconstruction. -/
  | bandRequest (die band : Nat)
  /-- BAND_SCAN (R372): Scans a band's slot if it is ready, otherwise the hold slot. -/
  | bandScan (die band : Nat)
  /-- ATTESTATION_REQUEST (R472): A host nonce yields a signed attestation report. -/
  | attestationRequest (nonce : List Byte)
  /-- THERMAL_DROP (R473): The junction at or above 100 °C drops the point by one. -/
  | thermalDrop (temp : Nat)
  /-- THERMAL_RISE (R473): After 100 ms below 90 °C the point rises by one. -/
  | thermalRise (temp : Nat)
  /-- DVFS_POINT_CHANGE (R473): Changes the DVFS point, stopping the core clock for at most 10 µs. -/
  | dvfsPointChange
  /-- HOST_BAR2_WRITE (R455): A host write to the scratchpad image, placed in the die order. -/
  | hostBar2Write (at_ : Nat) (data : List Byte)
  /-- HOST_BAR2_READ (R455): A host read of the scratchpad image. -/
  | hostBar2Read (at_ len : Nat)
  /-- DEVICE_START (R470): A reset runs the cold or warm start-up steps. -/
  | deviceStart (held : Option Bool)
  -- Steps that only the host, the sensors or the board cause stand last.
  /-- SENSOR_UNIT_DELIVERY (R469): Delivers a sensor unit with its header, byte-barrier arrival and completion word. -/
  | sensorUnitDelivery (die chan : Nat) (unit : SensorUnit) (firstPt : Nat) (bad : Bool)
  /-- SENSOR_I3C_PERIOD (R468): An I3C channel's period elapses and a register read is delivered. -/
  | sensorI3cPeriod (die chan : Nat) (unit : SensorUnit) (firstPt : Nat) (bad : Bool)
  /-- IN_BAND_INTERRUPT (R468): An I3C in-band interrupt on a channel with PERIOD 0 causes a register read that the channel delivers. -/
  | inBandInterrupt (die chan : Nat) (unit : SensorUnit) (firstPt : Nat) (bad : Bool)
  /-- SENSOR_CHANNEL_WRITE (R469): Writes a sensor channel descriptor and restarts its unit count. -/
  | sensorChannelWrite (die chan index : Nat) (value : Word)
  /-- BAR0_REGISTER_WRITE (R454): A BAR0 write to a register that has no row of its own. -/
  | bar0RegisterWrite (offset : Nat) (value : Word)
  /-- THERMAL_TRIP (R473): A junction at 110 °C faults every context and stops the clocks. -/
  | thermalTrip (temp : Nat)
  /-- PWR_MODE_WRITE (R473): Selects station or belt mode. -/
  | pwrModeWrite (belt : Bool)
  /-- HOST_MEMORY_WRITE (R234): A host write to device main memory, seen by later launches. -/
  | hostMemoryWrite (addr : Nat) (data : List Byte)
  /-- TAIL_WRITE (R458): A host write of TAIL covers new launch records. -/
  | tailWrite (queue : Nat) (value : Word)
  /-- CONTEXT_CREATE (R456): Creates a context from its descriptor, or refuses it. -/
  | contextCreate (id : Nat)
  /-- CONTEXT_RETIRE (R457): Retires a context, ending its work and freeing its ID. -/
  | contextRetire (id : Nat)
  /-- QUEUE_SWITCH_OUT (R460): Writing QCTL.EN to 0 switches out the queue's blocks. -/
  | queueSwitchOut (queue : Nat)
  /-- QUEUE_SWITCH_IN (R460): Writing QCTL.EN to 1 restores blocks and resumes reading. -/
  | queueSwitchIn (queue : Nat)
  /-- QCTL_ERR_CLEAR (R458): Clears the queue error bit. -/
  | qctlErrClear (queue : Nat)
  deriving DecidableEq, Repr

end Sys2Proof
end

