-- ==== Sys2Proof/Machine/Sig.lean ====
section
/-! DEFINITION. What each instruction's fields mean before it runs: the codec of operand fields (Tables 1.1, 1.2), the
opcode map (Tables 3.8 to 3.10), and for each instruction the use of D, A, B and C, its legal MOD and XM values and the
extended modifiers it uses (the field tables of spec/04 to spec/18). The static traps 0x01 and 0x03 follow from these. -/

namespace Sys2Proof

/-- The specials in the order of Table 1.2. -/
def Special.all : List Special :=
  [.lane, .warp, .block, .stage, .tile, .tlane, .zero, .ones, .true_, .clk, .fpone, .fphalf, .fptwo, .fpneg, .fpinf,
   .fpnan, .fpmax, .tsize, .nwarp, .lastblk, .core, .die, .lmask, .ltmask, .active, .depth, .tcb, .nstage, .argc]

/-- Position of a special in Table 1.2: its field value is 640 plus this. -/
def Special.index : Special → Nat
  | .lane => 0 | .warp => 1 | .block => 2 | .stage => 3 | .tile => 4 | .tlane => 5 | .zero => 6 | .ones => 7
  | .true_ => 8 | .clk => 9 | .fpone => 10 | .fphalf => 11 | .fptwo => 12 | .fpneg => 13 | .fpinf => 14
  | .fpnan => 15 | .fpmax => 16 | .tsize => 17 | .nwarp => 18 | .lastblk => 19 | .core => 20 | .die => 21
  | .lmask => 22 | .ltmask => 23 | .active => 24 | .depth => 25 | .tcb => 26 | .nstage => 27 | .argc => 28

/-- Table 1.1: what a 10-bit field value selects. -/
def Operand.ofField (v : Nat) : Operand :=
  if v < 640 then .reg v
  else if v < 669 then
    match Special.all[v - 640]? with
    | some s => .spc s
    | none => .resv v
  else if v < 704 then .resv v
  else if v < 960 then .inl ((v : Int) - 832)
  else .resv v

/-- Table 1.1 read the other way: the field value that selects an operand. An immediate has no field. -/
def Operand.toField : Operand → Nat
  | .reg n => n
  | .spc s => 640 + s.index
  | .inl v => (v + 832).toNat
  | .resv v => v
  | .imm _ => 0

/-- An operand that a 10-bit field can hold. -/
def Operand.fits : Operand → Bool
  | .reg n => n < 640
  | .spc _ => true
  | .inl v => -128 ≤ v && v ≤ 127
  | .resv v => (669 ≤ v && v < 704) || (960 ≤ v && v < 1024)
  | .imm _ => false

/-- The field value 0: what an unused field must hold (R65). -/
def Operand.isZeroField (x : Operand) : Bool := x == .reg 0

/-- The predicate of an instruction written without one (R21). -/
def Pred.always : Pred := ⟨.spc .true_, false, 0⟩

/-- LS, 0 without an extended-modifier prefix (R72). -/
def Operands.ls (o : Operands) : Nat := (o.ext.map (·.ls)).getD 0
/-- TO, 31 without an extended-modifier prefix (R72). -/
def Operands.tmo (o : Operands) : Nat := (o.ext.map (·.tmo)).getD 31
/-- COL, 0 without an extended-modifier prefix (R72). -/
def Operands.col (o : Operands) : Nat := (o.ext.map (·.col)).getD 0
/-- XM, 0 without an extended-modifier prefix (R93). -/
def Operands.xm (o : Operands) : Nat := (o.ext.map (·.xm)).getD 0

/-- Bits lo+n-1:lo of a field. -/
def bitsOf (v lo n : Nat) : Nat := v / 2 ^ lo % 2 ^ n

/-- Bit k of a field. -/
def bitOf (v k : Nat) : Bool := v / 2 ^ k % 2 == 1

/-- Bits hi-1:lo of MOD. -/
def Operands.mods (o : Operands) (lo n : Nat) : Nat := bitsOf o.modBits lo n
/-- Bit k of MOD. -/
def Operands.modBit (o : Operands) (k : Nat) : Bool := bitOf o.modBits k

/-- The third source C: XM.C with the prefix, D without it (R93). -/
def Operands.c (o : Operands) : Operand :=
  match o.ext with
  | some e => Operand.ofField (bitsOf e.xm 0 10)
  | none => o.d

/-- The immediate of an X form, 0 in other forms. -/
def Operands.immNat (o : Operands) : Nat :=
  match o.b with
  | .imm w => w.toNat
  | _ => 0

/-- How an instruction uses one of its fields: not at all, as a source of n words, as a window of n registers, as a
destination of n words, as a destination it also reads, as a destination window that must be a register. -/
inductive Use
  | zero
  | src (n : Nat)
  | win (n : Nat)
  | dst (n : Nat)
  | rmw (n : Nat)
  | dwin (n : Nat)
  | rwwin (n : Nat)
  deriving DecidableEq, Repr

/-- Whether an instruction has an X form (R68). -/
inductive XForm
  | no
  | immediate
  | only
  deriving DecidableEq, Repr

/-- The opcode classes of Table 3.8. -/
inductive OpClass
  | c | i | f | s | m | l | y | e
  deriving DecidableEq, Repr

/-- The field rules of one instruction with the values it carries. -/
structure Sig where
  d : Use := .zero
  a : Use := .zero
  b : Use := .zero
  c : Use := .zero
  /-- E field of a small-matrix immediate (Table 5.1), as an operand -/
  e : Use := .zero
  modOk : Bool := true
  xmOk : Bool := true
  ls : Bool := false
  tmo : Bool := false
  col : Bool := false
  repeatable : Bool := true
  deriving DecidableEq, Repr

/-- XM is 0 (Table 4.1's last row). -/
def xmZero (o : Operands) : Bool := o.xm == 0
/-- XM holds C only (Table 4.1). -/
def xmC (o : Operands) : Bool := bitsOf o.xm 10 8 == 0
/-- XM holds K in bits 4:0 only (Tables 4.1, 8.1). -/
def xmK (o : Operands) : Bool := bitsOf o.xm 5 13 == 0
/-- XM holds DISP in bits 15:0 (R254). -/
def xmDisp (o : Operands) : Bool := bitsOf o.xm 16 2 == 0
/-- Sign-modifier bits 15:10 within those of the sources read, bits 17:16 zero (R96). -/
def xmSign (o : Operands) (a b c : Bool) : Bool :=
  bitsOf o.xm 16 2 == 0 && (a || bitsOf o.xm 10 2 == 0) && (b || bitsOf o.xm 12 2 == 0) && (c || bitsOf o.xm 14 2 == 0)
/-- Sign modifiers alone: XM 9:0 zero. -/
def xmSignOnly (o : Operands) (a b c : Bool) : Bool := bitsOf o.xm 0 10 == 0 && xmSign o a b c

/-- An integer instruction reading a and b, with a mask of its legal MOD bits (Table 4.3). -/
def sigInt2 (o : Operands) (mask : Nat) : Sig :=
  { d := .dst 1, a := .src 1, b := .src 1, modOk := Nat.land o.modBits (127 - mask) == 0, xmOk := xmZero o }
/-- An integer instruction reading b alone. -/
def sigInt1 (o : Operands) (mask : Nat) : Sig :=
  { d := .dst 1, b := .src 1, modOk := Nat.land o.modBits (127 - mask) == 0, xmOk := xmZero o }
/-- An integer instruction reading a, b and c. -/
def sigInt3 (o : Operands) (mask : Nat) : Sig :=
  { d := .dst 1, a := .src 1, b := .src 1, c := .src 1, modOk := Nat.land o.modBits (127 - mask) == 0, xmOk := xmC o }

/-- MOD of class F arithmetic (Table 4.2): TY below 3 and allowed, RM at most 4, bits 6:5 zero. -/
def fMod (o : Operands) (f32 packed : Bool) : Bool :=
  bitsOf o.modBits 5 2 == 0 && decide (bitsOf o.modBits 2 3 ≤ 4) &&
    (match bitsOf o.modBits 0 2 with
     | 0 => f32
     | 1 => packed
     | 2 => packed
     | _ => false)
/-- A floating-point instruction of two sources. -/
def sigF2 (o : Operands) : Sig :=
  { d := .dst 1, a := .src 1, b := .src 1, modOk := fMod o true true, xmOk := xmSignOnly o true true false }
/-- A floating-point instruction of the one source b. -/
def sigF1 (o : Operands) (packed : Bool) : Sig :=
  { d := .dst 1, b := .src 1, modOk := fMod o true packed, xmOk := xmSignOnly o false true false }
/-- A floating-point instruction of three sources. -/
def sigF3 (o : Operands) (f32 : Bool) : Sig :=
  { d := .dst 1, a := .src 1, b := .src 1, c := .src 1, modOk := fMod o f32 true, xmOk := xmSign o true true true }
/-- fcmp and fcmp.ax: MOD 4:2 cond, 1:0 TY; K in XM 4:0 with the sign modifiers; K = 31 only for f32 (R112). -/
def sigFcmp (o : Operands) (packed : Bool) : Sig :=
  { d := .rmw 1, a := .src 1, b := .src 1
    modOk := bitsOf o.modBits 5 2 == 0 &&
      (bitsOf o.modBits 0 2 == 0 || (packed && decide (bitsOf o.modBits 0 2 ≤ 2) && bitsOf o.xm 0 5 != 31))
    xmOk := bitsOf o.xm 5 5 == 0 && xmSign o true true false }
/-- A special function (Tables 4.2, 4.11; R126, R127): approximate forms need RM 0; exact ones too unless moded. -/
def sigS (o : Operands) (two moded : Bool) : Sig :=
  { d := .dst 1, a := if two then .src 1 else .zero, b := .src 1
    modOk := bitsOf o.modBits 6 1 == 0 && decide (bitsOf o.modBits 0 2 ≤ 2) &&
      (bitsOf o.modBits 2 3 == 0 || (moded && bitOf o.modBits 5 && decide (bitsOf o.modBits 2 3 ≤ 4)))
    xmOk := xmSignOnly o two true false }

/-- Source type S of a conversion (Table 4.9). -/
def cvtS (o : Operands) : Nat := bitsOf o.modBits 4 3
/-- Element index EL of a conversion (Table 4.1). -/
def cvtEl (o : Operands) : Nat := bitsOf o.xm 10 3
/-- Integer type ITYPE of cvt.int (Table 4.1). -/
def cvtIt (o : Operands) : Nat := bitsOf o.xm 13 3

/-- A conversion whose legal source types come with the greatest EL of each (Table 4.10); `two` says which source
types take a and b; `rmw` which keep parts of d. -/
def sigCvt (o : Operands) (elMax : Nat → Option Nat) (two rmw : Nat → Bool) (itMax : Nat) : Sig :=
  let s := cvtS o
  { d := if rmw s then .rmw 1 else .dst 1
    a := if two s then .src 1 else .zero
    b := .src 1
    modOk := decide (bitsOf o.modBits 0 3 ≤ 5) &&
      (match elMax s with
       | some m => decide (cvtEl o ≤ m)
       | none => false)
    xmOk := bitsOf o.xm 0 10 == 0 && bitsOf o.xm 16 2 == 0 && decide (cvtIt o ≤ itMax) }

/-- A block conversion cvt.mxf4, cvt.mxi8, cvt.mxi4 (R123): source window of 32 registers, destination of n. -/
def sigCvtMx (o : Operands) (n : Nat) : Sig :=
  { d := .dst n, a := .win 32, modOk := cvtS o == 0 && decide (bitsOf o.modBits 0 3 ≤ 5), xmOk := xmZero o }

/-- Fields of the small-matrix immediate (Table 5.1). -/
def Operands.smxB (o : Operands) : Operand := Operand.ofField (bitsOf o.immNat 0 10)
def Operands.smxM (o : Operands) : Nat := bitsOf o.immNat 10 3
def Operands.smxN (o : Operands) : Nat := bitsOf o.immNat 13 3
def Operands.smxK (o : Operands) : Nat := bitsOf o.immNat 16 3
def Operands.smxE (o : Operands) : Operand := Operand.ofField (bitsOf o.immNat 19 10)

/-- A shape field in use: 1 to 6 (R143). -/
def shapeOk (v : Nat) : Bool := decide (1 ≤ v) && decide (v ≤ 6)

/-- A small-matrix instruction (R143): the immediate's reserved bits zero, shape fields legal or unused and zero. -/
def sigSmx (o : Operands) (d a b e : Use) (k square : Bool) (modMask : Nat) : Sig :=
  { d := d, a := a, b := b, e := e
    modOk := Nat.land o.modBits (127 - modMask) == 0 && bitsOf o.immNat 29 3 == 0 &&
      shapeOk o.smxM && shapeOk o.smxN && (if k then shapeOk o.smxK else o.smxK == 0) &&
      (!square || o.smxM == o.smxN)
    xmOk := xmZero o }

/-- A cross-lane instruction (Table 8.2). -/
def sigLane (o : Operands) (a b : Bool) (modOk k : Bool) : Sig :=
  { d := .dst 1, a := if a then .src 1 else .zero, b := if b then .src 1 else .zero
    modOk := modOk, xmOk := if k then xmK o else xmZero o }

/-- Access size in bytes of SZ (Table 11.2), 0 where SZ is reserved. -/
def szBytes (sz : Nat) : Nat :=
  match sz with
  | 0 => 4 | 1 => 1 | 2 => 1 | 3 => 2 | 4 => 2 | 5 => 8 | 6 => 16 | _ => 0
/-- Registers a load or store of SZ names (R255). -/
def szRegs (sz : Nat) : Nat := if szBytes sz ≤ 4 then 1 else szBytes sz / 4

/-- ld.sh and ld.sp (Table 11.1). -/
def sigLd (o : Operands) : Sig :=
  { d := .dst (max 1 (szRegs (o.mods 0 3))), b := .src 1
    modOk := decide (o.modBits ≤ 6), xmOk := xmDisp o, ls := true }
/-- st.sh and st.sp (Table 11.1): SZ 2, 4 and 7 are reserved for stores. -/
def sigSt (o : Operands) : Sig :=
  { a := if szRegs (o.mods 0 3) ≤ 1 then .src 1 else .win (szRegs (o.mods 0 3)), b := .src 1
    modOk := decide (o.modBits ≤ 6) && o.modBits != 2 && o.modBits != 4, xmOk := xmDisp o, ls := true }

/-- An instruction of class E that takes one register or pair as destination and operands, with no modifiers. -/
def sigE (o : Operands) (d a b : Use) (modMask : Nat) (wait col : Bool) : Sig :=
  { d := d, a := a, b := b, modOk := Nat.land o.modBits (127 - modMask) == 0, xmOk := xmZero o
    ls := wait, tmo := wait, col := col }

/-- An instruction of the control group (Table 4.14): no prefix field is used and none repeats (R71). -/
def sigC (o : Operands) (d a b : Use) (csr : Bool) : Sig :=
  { d := d, a := a, b := b, modOk := if csr then decide (o.modBits < 64) else o.modBits == 0
    xmOk := xmZero o, repeatable := false }

/-- Table 3.9: the opcode and the fields of an instruction; none for a step that has no encoding. -/
def Instr.isa? : Instr → Option (Nat × Operands)
  | .nop o => some (0x000, o)
  | .br o => some (0x001, o)
  | .brx o => some (0x002, o)
  | .call o => some (0x003, o)
  | .callx o => some (0x004, o)
  | .ret o => some (0x005, o)
  | .exit o => some (0x006, o)
  | .join o => some (0x007, o)
  | .yield o => some (0x008, o)
  | .trap o => some (0x009, o)
  | .brk o => some (0x00A, o)
  | .csrRd o => some (0x00B, o)
  | .csrWr o => some (0x00C, o)
  | .csrSet o => some (0x00D, o)
  | .csrClr o => some (0x00E, o)
  | .clkRd o => some (0x00F, o)
  | .digFold o => some (0x010, o)
  | .pcRd o => some (0x011, o)
  | .hdlResume o => some (0x012, o)
  | .hdlKill o => some (0x013, o)
  | .hdlEsc o => some (0x014, o)
  | .iadd o => some (0x040, o)
  | .isub o => some (0x041, o)
  | .imul o => some (0x042, o)
  | .imulh o => some (0x043, o)
  | .imad o => some (0x044, o)
  | .imadw o => some (0x045, o)
  | .iaddx o => some (0x046, o)
  | .idiv o => some (0x047, o)
  | .irem o => some (0x048, o)
  | .iabs o => some (0x049, o)
  | .imin o => some (0x04A, o)
  | .imax o => some (0x04B, o)
  | .sel o => some (0x04C, o)
  | .mov o => some (0x04D, o)
  | .icmp o => some (0x04E, o)
  | .and o => some (0x050, o)
  | .or o => some (0x051, o)
  | .xor o => some (0x052, o)
  | .andn o => some (0x053, o)
  | .orn o => some (0x054, o)
  | .lgc3 o => some (0x055, o)
  | .shl o => some (0x058, o)
  | .shr o => some (0x059, o)
  | .sar o => some (0x05A, o)
  | .rol o => some (0x05B, o)
  | .ror o => some (0x05C, o)
  | .fsh o => some (0x05D, o)
  | .bfx o => some (0x060, o)
  | .bfi o => some (0x061, o)
  | .popc o => some (0x062, o)
  | .clz o => some (0x063, o)
  | .brev o => some (0x064, o)
  | .bset o => some (0x065, o)
  | .bclr o => some (0x066, o)
  | .vaAdd o => some (0x070, o)
  | .vaSub o => some (0x071, o)
  | .vaCmp o => some (0x072, o)
  | .vaMov o => some (0x073, o)
  | .fadd o => some (0x100, o)
  | .fsub o => some (0x101, o)
  | .fmul o => some (0x102, o)
  | .fma o => some (0x103, o)
  | .fms o => some (0x104, o)
  | .fnma o => some (0x105, o)
  | .fmin o => some (0x106, o)
  | .fmax o => some (0x107, o)
  | .fcmp o => some (0x108, o)
  | .fcmpAx o => some (0x109, o)
  | .fclass o => some (0x10A, o)
  | .fmov o => some (0x10B, o)
  | .frnd o => some (0x10C, o)
  | .fscale o => some (0x10D, o)
  | .fgetx o => some (0x10E, o)
  | .fdot2 o => some (0x10F, o)
  | .fclamp o => some (0x110, o)
  | .fminmag o => some (0x111, o)
  | .fmaxmag o => some (0x112, o)
  | .ffrac o => some (0x113, o)
  | .cvtF32 o => some (0x140, o)
  | .cvtF16 o => some (0x141, o)
  | .cvtBf16 o => some (0x142, o)
  | .cvtE4m3 o => some (0x143, o)
  | .cvtE5m2 o => some (0x144, o)
  | .cvtE2m1 o => some (0x145, o)
  | .cvtInt o => some (0x146, o)
  | .cvtRgb o => some (0x147, o)
  | .cvtMxf4 o => some (0x148, o)
  | .cvtMxi8 o => some (0x149, o)
  | .cvtMxi4 o => some (0x14A, o)
  | .cvtUnrgb o => some (0x14B, o)
  | .cvtUnmx o => some (0x14C, o)
  | .rcp o => some (0x1C0, o)
  | .rsqrt o => some (0x1C1, o)
  | .sqrt o => some (0x1C2, o)
  | .exp2 o => some (0x1C3, o)
  | .log2 o => some (0x1C4, o)
  | .sin o => some (0x1C5, o)
  | .cos o => some (0x1C6, o)
  | .tanh o => some (0x1C7, o)
  | .fdiv o => some (0x1C8, o)
  | .sigm o => some (0x1C9, o)
  | .smxMul o => some (0x1E0, o)
  | .smxMad o => some (0x1E1, o)
  | .smxAdd o => some (0x1E2, o)
  | .smxScl o => some (0x1E3, o)
  | .smxTr o => some (0x1E4, o)
  | .smxSym o => some (0x1E5, o)
  | .smxId o => some (0x1E6, o)
  | .smxChol o => some (0x1E7, o)
  | .smxLu o => some (0x1E8, o)
  | .smxSol o => some (0x1E9, o)
  | .smxLdSh o => some (0x1EA, o)
  | .smxStSh o => some (0x1EB, o)
  | .vote o => some (0x200, o)
  | .elect o => some (0x201, o)
  | .bcast o => some (0x202, o)
  | .shf o => some (0x203, o)
  | .prm o => some (0x204, o)
  | .matchKeys o => some (0x205, o)
  | .red o => some (0x206, o)
  | .scan o => some (0x207, o)
  | .sscan o => some (0x208, o)
  | .rank o => some (0x209, o)
  | .cmpct o => some (0x20A, o)
  | .part o => some (0x20B, o)
  | .lsel o => some (0x20C, o)
  | .ldSh o => some (0x240, o)
  | .stSh o => some (0x241, o)
  | .ldSp o => some (0x242, o)
  | .stSp o => some (0x243, o)
  | .ldmT o => some (0x244, o)
  | .ldPar o => some (0x245, o)
  | .prefSp o => some (0x246, o)
  | .atm o => some (0x248, o)
  | .atmCas o => some (0x249, o)
  | .splPush o => some (0x24A, o)
  | .splPop o => some (0x24B, o)
  | .splRd o => some (0x24C, o)
  | .waitAddr o => some (0x250, o)
  | .fenceC o => some (0x251, o)
  | .barArv o => some (0x252, o)
  | .barWait o => some (0x253, o)
  | .barSync o => some (0x254, o)
  | .bcp o => some (0x2C0, o)
  | .bcpWait o => some (0x2C1, o)
  | .bcpSt o => some (0x2C2, o)
  | .bbarInit o => some (0x2C4, o)
  | .bbarWait o => some (0x2C5, o)
  | .bbarAdd o => some (0x2C6, o)
  | .bbarRd o => some (0x2C7, o)
  | .qInit o => some (0x2C8, o)
  | .qPush o => some (0x2C9, o)
  | .qPop o => some (0x2CA, o)
  | .qLen o => some (0x2CB, o)
  | .hngInit o => some (0x2CC, o)
  | .hngTake o => some (0x2CD, o)
  | .hngGive o => some (0x2CE, o)
  | .hngRd o => some (0x2CF, o)
  | .spawn o => some (0x2D0, o)
  | .taskDone o => some (0x2D1, o)
  | .depArm o => some (0x2D2, o)
  | .depDec o => some (0x2D3, o)
  | .taskWait o => some (0x2D4, o)
  | .taskSt o => some (0x2D5, o)
  | .dqPush o => some (0x2D8, o)
  | .dqPop o => some (0x2D9, o)
  | .dqSteal o => some (0x2DA, o)
  | .mmGo o => some (0x300, o)
  | .mmWait o => some (0x301, o)
  | .mmSt o => some (0x302, o)
  | .mxqPop o => some (0x303, o)
  | .mxqLen o => some (0x304, o)
  | .mxqRst o => some (0x305, o)
  | .wbLoad o => some (0x306, o)
  | .wbClr o => some (0x307, o)
  | .spkPrio o => some (0x340, o)
  | .spkMap o => some (0x341, o)
  | .spkRd o => some (0x342, o)
  | .sampEmit o => some (0x343, o)
  | .sampGth o => some (0x344, o)
  | .trvInit o => some (0x345, o)
  | .trvStep o => some (0x346, o)
  | .trvHit o => some (0x347, o)
  | .prbStep o => some (0x348, o)
  | .texSmp o => some (0x349, o)
  | .texQry o => some (0x34A, o)
  | .truSort o => some (0x34B, o)
  | .rowPut o => some (0x34C, o)
  | .rowAck o => some (0x34D, o)
  | .cmbAlloc o => some (0x380, o)
  | .cmbPut o => some (0x381, o)
  | .cmbStat o => some (0x382, o)
  | .cmbFree o => some (0x383, o)
  | _ => none

/-- The use of the fields of an instruction, from its description. -/
def Instr.sig : Instr → Sig
  | .nop o => sigC o .zero .zero .zero false
  | .br o => sigC o .zero .zero (.src 1) false
  | .brx o => sigC o .zero .zero (.src 1) false
  | .call o => sigC o .zero .zero (.src 1) false
  | .callx o => sigC o .zero .zero (.src 1) false
  | .ret o => sigC o .zero .zero .zero false
  | .exit o => sigC o .zero .zero .zero false
  | .join o => sigC o .zero .zero .zero false
  | .yield o => sigC o .zero .zero .zero false
  | .trap o => sigC o .zero .zero (.src 1) false
  | .brk o => sigC o .zero .zero .zero false
  | .csrRd o => sigC o (.dst 1) .zero .zero true
  | .csrWr o => sigC o .zero .zero (.src 1) true
  | .csrSet o => sigC o .zero .zero (.src 1) true
  | .csrClr o => sigC o .zero .zero (.src 1) true
  | .clkRd o => sigC o (.dst 2) .zero .zero false
  | .digFold o => sigC o .zero (.src 1) (.src 1) false
  | .pcRd o => sigC o (.dst 1) .zero .zero false
  | .hdlResume o => sigC o (.dst 1) .zero (.src 1) false
  | .hdlKill o => sigC o (.dst 1) .zero (.src 1) false
  | .hdlEsc o => sigC o (.dst 1) .zero (.src 1) false
  | .iadd o => sigInt2 o 3
  | .isub o => sigInt2 o 3
  | .imul o => sigInt2 o 3
  | .imulh o => sigInt2 o 1
  | .imad o => sigInt3 o 3
  | .imadw o => { sigInt3 o 1 with d := .dst 2, c := .src 2 }
  | .iaddx o => sigInt3 o 4
  | .idiv o => sigInt2 o 1
  | .irem o => sigInt2 o 1
  | .iabs o => sigInt1 o 2
  | .imin o => sigInt2 o 1
  | .imax o => sigInt2 o 1
  | .sel o => { sigInt3 o 0 with xmOk := bitsOf o.xm 15 3 == 0 }
  | .mov o => sigInt1 o 0
  | .icmp o => { sigInt2 o 15 with d := .rmw 1, modOk := decide (o.modBits < 16) && decide (o.mods 0 3 ≤ 5), xmOk := xmK o }
  | .and o => sigInt2 o 0
  | .or o => sigInt2 o 0
  | .xor o => sigInt2 o 0
  | .andn o => sigInt2 o 0
  | .orn o => sigInt2 o 0
  | .lgc3 o => { sigInt3 o 0 with xmOk := true }
  | .shl o => sigInt2 o 0
  | .shr o => sigInt2 o 0
  | .sar o => sigInt2 o 0
  | .rol o => sigInt2 o 0
  | .ror o => sigInt2 o 0
  | .fsh o => sigInt3 o 1
  | .bfx o => sigInt2 o 1
  | .bfi o => sigInt3 o 0
  | .popc o => sigInt1 o 0
  | .clz o => sigInt1 o 0
  | .brev o => sigInt1 o 0
  | .bset o => sigInt2 o 0
  | .bclr o => sigInt2 o 0
  | .vaAdd o => { sigInt2 o 1 with d := .dst 3, a := .src 3 }
  | .vaSub o => { sigInt2 o 0 with d := .dst 3, a := .src 3, b := .src 3 }
  | .vaCmp o => { sigInt2 o 7 with d := .rmw 1, a := .src 3, b := .src 3, modOk := decide (o.modBits ≤ 5), xmOk := xmK o }
  | .vaMov o => { sigInt1 o 0 with d := .dst 3, b := .src 3 }
  | .fadd o => sigF2 o
  | .fsub o => sigF2 o
  | .fmul o => sigF2 o
  | .fma o => sigF3 o true
  | .fms o => sigF3 o true
  | .fnma o => sigF3 o true
  | .fmin o => sigF2 o
  | .fmax o => sigF2 o
  | .fcmp o => sigFcmp o true
  | .fcmpAx o => sigFcmp o false
  | .fclass o => sigF1 o true
  | .fmov o => sigF1 o true
  | .frnd o => sigF1 o true
  | .fscale o => { sigF2 o with modOk := fMod o true false, xmOk := xmSignOnly o true false false }
  | .fgetx o => sigF1 o false
  | .fdot2 o => sigF3 o false
  | .fclamp o => sigF3 o true
  | .fminmag o => sigF2 o
  | .fmaxmag o => sigF2 o
  | .ffrac o => sigF1 o true
  | .cvtF32 o => sigCvt o (fun s => [none, some 1, some 1, some 3, some 3, some 7, some 0, some 0].getD s none) (fun _ => false) (fun _ => false) 0
  | .cvtF16 o => sigCvt o (fun s => [some 0, none, some 0, some 1, some 1, some 3, some 0, some 0].getD s none) (fun s => s == 0 || s == 6 || s == 7) (fun _ => false) 0
  | .cvtBf16 o => sigCvt o (fun s => [some 0, some 0, none, some 1, some 1, some 3, some 0, some 0].getD s none) (fun s => s == 0 || s == 6 || s == 7) (fun _ => false) 0
  | .cvtE4m3 o => sigCvt o (fun s => [some 1, some 1, some 1, none, some 0, some 1, some 1, some 1].getD s none) (fun s => s == 0 || s == 6 || s == 7) (fun s => s != 4 && s != 5) 0
  | .cvtE5m2 o => sigCvt o (fun s => [some 1, some 1, some 1, some 0, none, some 1, some 1, some 1].getD s none) (fun s => s == 0 || s == 6 || s == 7) (fun s => s != 3 && s != 5) 0
  | .cvtE2m1 o => sigCvt o (fun s => [some 3, some 3, some 3, some 1, some 1, none, some 3, some 3].getD s none) (fun s => s == 0 || s == 6 || s == 7) (fun _ => true) 0
  | .cvtInt o => sigCvt o (fun s => [some 0, some 1, some 1, some 3, some 3, some 7, none, none].getD s none) (fun _ => false) (fun _ => false) 5
  | .cvtRgb o => { d := .dst 1, a := .src 1, b := .src 1, c := .src 1, modOk := cvtS o == 0 && decide (bitsOf o.modBits 0 3 ≤ 5), xmOk := xmC o }
  | .cvtMxf4 o => sigCvtMx o 5
  | .cvtMxi8 o => sigCvtMx o 9
  | .cvtMxi4 o => sigCvtMx o 5
  | .cvtUnrgb o => { sigCvt o (fun s => [some 2].getD s none) (fun _ => false) (fun _ => false) 0 with modOk := cvtS o == 0 && bitsOf o.modBits 0 3 == 0 && decide (cvtEl o ≤ 2) }
  | .cvtUnmx o => { sigCvt o (fun s => [some 0, some 0, some 0].getD s none) (fun _ => false) (fun _ => false) 0 with a := .win (if cvtS o == 1 then 9 else 5) }
  | .rcp o => sigS o false false
  | .rsqrt o => sigS o false false
  | .sqrt o => sigS o false true
  | .exp2 o => sigS o false false
  | .log2 o => sigS o false false
  | .sin o => sigS o false false
  | .cos o => sigS o false false
  | .tanh o => sigS o false false
  | .fdiv o => sigS o true true
  | .sigm o => sigS o false false
  | .smxMul o => sigSmx o (.dwin (o.smxM * o.smxN)) (.win (o.smxM * o.smxK)) (.win (o.smxK * o.smxN)) .zero true false 3
  | .smxMad o => sigSmx o (.dwin (o.smxM * o.smxN)) (.win (o.smxM * o.smxK)) (.win (o.smxK * o.smxN)) (.win (o.smxM * o.smxN)) true false 7
  | .smxAdd o => sigSmx o (.dwin (o.smxM * o.smxN)) (.win (o.smxM * o.smxN)) (.win (o.smxM * o.smxN)) .zero false false 6
  | .smxScl o => sigSmx o (.dwin (o.smxM * o.smxN)) (.win (o.smxM * o.smxN)) (.src 1) .zero false false 4
  | .smxTr o => sigSmx o (.dwin (o.smxM * o.smxN)) (.win (o.smxM * o.smxN)) .zero .zero false false 0
  | .smxSym o => sigSmx o (.dwin (o.smxM * o.smxN)) (.win (o.smxM * o.smxN)) .zero .zero false true 1
  | .smxId o => sigSmx o (.dwin (o.smxM * o.smxN)) .zero (.src 1) .zero false false 0
  | .smxChol o => sigSmx o (.dwin (o.smxM * o.smxN)) (.win (o.smxM * o.smxN)) .zero (.dst 1) false true 0
  | .smxLu o => sigSmx o (.dwin (o.smxM * o.smxN)) (.win (o.smxM * o.smxN)) (.dst 1) (.dst 1) false true 0
  | .smxSol o => sigSmx o (.dwin (o.smxM * o.smxN)) (.win (o.smxM * o.smxM)) (.win (o.smxM * o.smxN)) (if o.modBits == 1 then .src 1 else .zero) false false 3
  | .smxLdSh o => sigSmx o (.dwin (o.smxM * o.smxN)) .zero (.src 1) (if o.modBit 0 then .src 1 else .zero) false false 1
  | .smxStSh o => sigSmx o .zero (.win (o.smxM * o.smxN)) (.src 1) (if o.modBit 0 then .src 1 else .zero) false false 1
  | .vote o => sigLane o false true (decide (o.modBits ≤ 4)) true
  | .elect o => sigLane o false false (decide (o.modBits ≤ 1)) false
  | .bcast o => sigLane o false true (decide (o.modBits ≤ 1)) false
  | .shf o => sigLane o true true (decide (o.modBits < 8)) false
  | .prm o => sigLane o true true (decide (o.modBits ≤ 1)) false
  | .matchKeys o => sigLane o false true (decide (o.modBits < 8) && decide (o.mods 0 2 ≤ 1)) false
  | .red o => sigLane o false true (decide (o.modBits ≤ 11)) false
  | .scan o => sigLane o false true (decide (o.modBits < 32) && decide (o.mods 0 4 ≤ 11)) false
  | .sscan o => sigLane o true true (decide (o.modBits < 32) && decide (o.mods 0 4 ≤ 11)) true
  | .rank o => sigLane o false true (decide (o.modBits ≤ 1)) (o.modBits == 0)
  | .cmpct o => sigLane o true true (decide (o.modBits ≤ 1)) true
  | .part o => sigLane o false true (o.modBits == 0) false
  | .lsel o => { sigLane o true true (o.modBits == 0) false with c := .src 1, xmOk := xmC o }
  | .ldSh o => sigLd o
  | .stSh o => sigSt o
  | .ldSp o => sigLd o
  | .stSp o => sigSt o
  | .ldmT o => { d := .dst (4 * (o.mods 0 2 + 1)), b := .src 1, modOk := decide (o.modBits ≤ 1), xmOk := xmDisp o, ls := true }
  | .ldPar o => { d := .dst 1, b := .src 1, modOk := o.modBits == 0, xmOk := xmZero o }
  | .prefSp o => { b := .src 1, modOk := o.modBits == 0, xmOk := xmDisp o }
  | .atm o => { d := .dst 1, a := .src 1, b := .src 1, modOk := Nat.land o.modBits 80 == 0 && decide (o.mods 0 4 ≤ 12), xmOk := xmZero o, ls := true }
  | .atmCas o => { d := .dst 1, a := .src 1, b := .src 1, c := .src 1, modOk := Nat.land o.modBits 95 == 0, xmOk := xmC o, ls := true }
  | .splPush o => { a := .win (o.mods 0 3 + 1), modOk := decide (o.modBits < 8), xmOk := xmZero o }
  | .splPop o => { d := .dst (o.mods 0 3 + 1), modOk := decide (o.modBits < 8), xmOk := xmZero o }
  | .splRd o => { d := .dst 1, b := .src 1, modOk := o.modBits == 0, xmOk := xmZero o }
  | .waitAddr o => { d := .dst 2, a := .src 1, b := .src 1, modOk := Nat.land o.modBits 88 == 0 && decide (o.mods 0 3 ≤ 5), xmOk := xmZero o, ls := true, tmo := true }
  | .fenceC o => { d := .dst 1, b := .src 1, modOk := o.modBits == 0, xmOk := xmZero o, ls := true, tmo := true }
  | .barArv o => { d := .dst 1, b := .src 1, modOk := decide (o.modBits < 16), xmOk := xmZero o }
  | .barWait o => { d := .dst 1, b := .src 1, modOk := decide (o.modBits < 16), xmOk := xmZero o, ls := true, tmo := true }
  | .barSync o => { d := .dst 2, b := .src 1, modOk := decide (o.modBits < 16), xmOk := xmZero o, ls := true, tmo := true }
  | .bcp o => sigE o (.dst 2) .zero (.src 1) 0 false true
  | .bcpWait o => sigE o (.dst 1) .zero (.src 1) 0 true false
  | .bcpSt o => sigE o (.dst 1) .zero (.src 1) 0 false false
  | .bbarInit o => sigE o (.dst 1) (.src 1) (.src 1) 1 false false
  | .bbarWait o => sigE o (.dst 1) (.src 1) (.src 1) 1 true false
  | .bbarAdd o => sigE o (.dst 1) (.src 1) (.src 1) 1 false false
  | .bbarRd o => sigE o (.dst 3) .zero (.src 1) 1 false false
  | .qInit o => sigE o (.dst 1) .zero (.src 1) 0 false false
  | .qPush o => sigE o (.dst 1) (if o.mods 0 4 == 0 then .src 1 else .win (o.mods 0 4 + 1)) (.src 1) 15 true false
  | .qPop o => sigE o (.dst (o.mods 0 4 + 2)) .zero (.src 1) 15 true false
  | .qLen o => sigE o (.dst 1) .zero (.src 1) 0 false false
  | .hngInit o => sigE o (.dst 1) (.src 1) (.src 1) 7 false false
  | .hngTake o => sigE o (.dst 1) (.src 1) (.src 1) 7 true false
  | .hngGive o => sigE o (.dst 1) .zero (.src 1) 7 false false
  | .hngRd o => sigE o (.dst 1) .zero .zero 7 false false
  | .spawn o => sigE o (.dst 1) .zero (.src 1) 0 false false
  | .taskDone o => { sigE o (.dst 1) .zero (.src 1) 0 true false with repeatable := false }
  | .depArm o => sigE o (.dst 1) (.src 1) (.src 1) 0 false false
  | .depDec o => sigE o (.dst 1) .zero (.src 1) 0 false false
  | .taskWait o => sigE o (.dst 1) .zero (.src 1) 1 true false
  | .taskSt o => sigE o (.dst 1) .zero (.src 1) 0 false false
  | .dqPush o => sigE o (.dst 1) .zero (.src 1) 0 false false
  | .dqPop o => sigE o (.dst 2) .zero .zero 0 false false
  | .dqSteal o => sigE o (.dst 2) .zero (.src 1) 0 false false
  | .mmGo o => sigE o (.dst 1) .zero (.src 1) 0 false true
  | .mmWait o => sigE o (.dst 1) .zero (.src 1) 0 true false
  | .mmSt o => sigE o (.dst 1) .zero (.src 1) 0 false false
  | .mxqPop o => sigE o (.dst 3) .zero .zero 3 true false
  | .mxqLen o => sigE o (.dst 1) .zero .zero 3 false false
  | .mxqRst o => sigE o .zero .zero .zero 3 false false
  | .wbLoad o => sigE o (.dst 2) .zero (.src 1) 0 false true
  | .wbClr o => sigE o .zero (.src 1) (.src 1) 0 false true
  | .spkPrio o => sigE o (.dst 1) (.src 1) (.src 1) 0 false false
  | .spkMap o => sigE o (.dst 1) (.src 1) (.src 1) 31 false false
  | .spkRd o => sigE o (.dst 1) .zero (.src 1) 3 false false
  | .sampEmit o => sigE o (.dst 1) (.win 4) (.src 1) 1 false (o.modBit 0)
  | .sampGth o => { sigE o (.dst (if o.modBit 0 then 9 else 5)) (.src 1) (.src 1) 1 false false with ls := true }
  | .trvInit o => sigE o (.dwin 18) (.win 8) (.src 3) 63 false false
  | .trvStep o => { sigE o (.dwin 8) .zero (.rwwin 18) 0 false false with ls := true }
  | .trvHit o => sigE o (.rwwin 18) (.win 8) .zero 0 false false
  | .prbStep o => { sigE o (.rwwin 5) (.win 2) (.src 1) 0 false false with ls := true }
  | .texSmp o => { sigE o (.dwin 4) (.win 3) (.src 1) 0 false false with ls := true }
  | .texQry o => { sigE o (.dst 3) (.src 1) (.src 1) 0 false false with ls := true }
  | .truSort o => { sigE o (.dst 1) .zero (.src 1) 0 false false with ls := true, repeatable := false }
  | .rowPut o => sigE o .zero (.src 1) (.src 1) 0 false false
  | .rowAck o => sigE o (.dst 1) .zero (.src 1) 0 false false
  | .cmbAlloc o => { sigE o (.dst 2) .zero (.src 1) 1 false false with ls := o.modBit 0, tmo := o.modBit 0 }
  | .cmbPut o => sigE o .zero (.src 2) (.src 1) 1 false true
  | .cmbStat o => { sigE o (.dst 1) .zero (if o.modBits == 0 then .src 1 else .zero) 3 false false with modOk := decide (o.modBits ≤ 2) }
  | .cmbFree o => sigE o (.dst 1) .zero (.src 1) 0 false false
  | _ => {}

/-- Rows of Table 3.9 from opcode 0x000. -/
def opcodeRows0 : List (Nat × (Operands → Instr)) :=
  [(0x000, .nop), (0x001, .br), (0x002, .brx), (0x003, .call), (0x004, .callx), (0x005, .ret),
   (0x006, .exit), (0x007, .join), (0x008, .yield), (0x009, .trap), (0x00A, .brk), (0x00B, .csrRd),
   (0x00C, .csrWr), (0x00D, .csrSet), (0x00E, .csrClr), (0x00F, .clkRd), (0x010, .digFold), (0x011, .pcRd),
   (0x012, .hdlResume), (0x013, .hdlKill), (0x014, .hdlEsc), (0x040, .iadd), (0x041, .isub), (0x042, .imul),
   (0x043, .imulh), (0x044, .imad), (0x045, .imadw), (0x046, .iaddx), (0x047, .idiv), (0x048, .irem),
   (0x049, .iabs), (0x04A, .imin)]

/-- Rows of Table 3.9 from opcode 0x04B. -/
def opcodeRows1 : List (Nat × (Operands → Instr)) :=
  [(0x04B, .imax), (0x04C, .sel), (0x04D, .mov), (0x04E, .icmp), (0x050, .and), (0x051, .or),
   (0x052, .xor), (0x053, .andn), (0x054, .orn), (0x055, .lgc3), (0x058, .shl), (0x059, .shr),
   (0x05A, .sar), (0x05B, .rol), (0x05C, .ror), (0x05D, .fsh), (0x060, .bfx), (0x061, .bfi),
   (0x062, .popc), (0x063, .clz), (0x064, .brev), (0x065, .bset), (0x066, .bclr), (0x070, .vaAdd),
   (0x071, .vaSub), (0x072, .vaCmp), (0x073, .vaMov), (0x100, .fadd), (0x101, .fsub), (0x102, .fmul),
   (0x103, .fma), (0x104, .fms)]

/-- Rows of Table 3.9 from opcode 0x105. -/
def opcodeRows2 : List (Nat × (Operands → Instr)) :=
  [(0x105, .fnma), (0x106, .fmin), (0x107, .fmax), (0x108, .fcmp), (0x109, .fcmpAx), (0x10A, .fclass),
   (0x10B, .fmov), (0x10C, .frnd), (0x10D, .fscale), (0x10E, .fgetx), (0x10F, .fdot2), (0x110, .fclamp),
   (0x111, .fminmag), (0x112, .fmaxmag), (0x113, .ffrac), (0x140, .cvtF32), (0x141, .cvtF16), (0x142, .cvtBf16),
   (0x143, .cvtE4m3), (0x144, .cvtE5m2), (0x145, .cvtE2m1), (0x146, .cvtInt), (0x147, .cvtRgb), (0x148, .cvtMxf4),
   (0x149, .cvtMxi8), (0x14A, .cvtMxi4), (0x14B, .cvtUnrgb), (0x14C, .cvtUnmx), (0x1C0, .rcp), (0x1C1, .rsqrt),
   (0x1C2, .sqrt), (0x1C3, .exp2)]

/-- Rows of Table 3.9 from opcode 0x1C4. -/
def opcodeRows3 : List (Nat × (Operands → Instr)) :=
  [(0x1C4, .log2), (0x1C5, .sin), (0x1C6, .cos), (0x1C7, .tanh), (0x1C8, .fdiv), (0x1C9, .sigm),
   (0x1E0, .smxMul), (0x1E1, .smxMad), (0x1E2, .smxAdd), (0x1E3, .smxScl), (0x1E4, .smxTr), (0x1E5, .smxSym),
   (0x1E6, .smxId), (0x1E7, .smxChol), (0x1E8, .smxLu), (0x1E9, .smxSol), (0x1EA, .smxLdSh), (0x1EB, .smxStSh),
   (0x200, .vote), (0x201, .elect), (0x202, .bcast), (0x203, .shf), (0x204, .prm), (0x205, .matchKeys),
   (0x206, .red), (0x207, .scan), (0x208, .sscan), (0x209, .rank), (0x20A, .cmpct), (0x20B, .part),
   (0x20C, .lsel), (0x240, .ldSh)]

/-- Rows of Table 3.9 from opcode 0x241. -/
def opcodeRows4 : List (Nat × (Operands → Instr)) :=
  [(0x241, .stSh), (0x242, .ldSp), (0x243, .stSp), (0x244, .ldmT), (0x245, .ldPar), (0x246, .prefSp),
   (0x248, .atm), (0x249, .atmCas), (0x24A, .splPush), (0x24B, .splPop), (0x24C, .splRd), (0x250, .waitAddr),
   (0x251, .fenceC), (0x252, .barArv), (0x253, .barWait), (0x254, .barSync), (0x2C0, .bcp), (0x2C1, .bcpWait),
   (0x2C2, .bcpSt), (0x2C4, .bbarInit), (0x2C5, .bbarWait), (0x2C6, .bbarAdd), (0x2C7, .bbarRd), (0x2C8, .qInit),
   (0x2C9, .qPush), (0x2CA, .qPop), (0x2CB, .qLen), (0x2CC, .hngInit), (0x2CD, .hngTake), (0x2CE, .hngGive),
   (0x2CF, .hngRd), (0x2D0, .spawn)]

/-- Rows of Table 3.9 from opcode 0x2D1. -/
def opcodeRows5 : List (Nat × (Operands → Instr)) :=
  [(0x2D1, .taskDone), (0x2D2, .depArm), (0x2D3, .depDec), (0x2D4, .taskWait), (0x2D5, .taskSt), (0x2D8, .dqPush),
   (0x2D9, .dqPop), (0x2DA, .dqSteal), (0x300, .mmGo), (0x301, .mmWait), (0x302, .mmSt), (0x303, .mxqPop),
   (0x304, .mxqLen), (0x305, .mxqRst), (0x306, .wbLoad), (0x307, .wbClr), (0x340, .spkPrio), (0x341, .spkMap),
   (0x342, .spkRd), (0x343, .sampEmit), (0x344, .sampGth), (0x345, .trvInit), (0x346, .trvStep), (0x347, .trvHit),
   (0x348, .prbStep), (0x349, .texSmp), (0x34A, .texQry), (0x34B, .truSort), (0x34C, .rowPut), (0x34D, .rowAck),
   (0x380, .cmbAlloc), (0x381, .cmbPut)]

/-- Rows of Table 3.9 from opcode 0x382. -/
def opcodeRows6 : List (Nat × (Operands → Instr)) :=
  [(0x382, .cmbStat), (0x383, .cmbFree)]

/-- Table 3.9 as a list of opcodes and constructors. -/
def opcodeRows : List (Nat × (Operands → Instr)) :=
  opcodeRows0 ++ opcodeRows1 ++ opcodeRows2 ++ opcodeRows3 ++ opcodeRows4 ++ opcodeRows5 ++ opcodeRows6

/-- The instruction of an opcode with given fields (R82); none for an unassigned opcode. -/
def mkInstr (opc : Nat) (o : Operands) : Option Instr :=
  (opcodeRows.find? (fun r => r.1 == opc)).map (fun r => r.2 o)

/-- Fields of an instruction, empty ones for a step without an encoding. -/
def Instr.operands (i : Instr) : Operands :=
  (i.isa?.map (·.2)).getD ⟨.f, .reg 0, .reg 0, .reg 0, .always, 0, none, none⟩

/-- Opcode of an instruction (Table 3.9), 0 for a step without an encoding. -/
def Instr.opcode (i : Instr) : Nat := (i.isa?.map (·.1)).getD 0

/-- Table 3.8: the class of an opcode. -/
def opClass (opc : Nat) : OpClass :=
  if opc < 0x040 then .c else if opc < 0x100 then .i else if opc < 0x1C0 then .f else if opc < 0x1E0 then .s
  else if opc < 0x200 then .m else if opc < 0x240 then .l else if opc < 0x2C0 then .y else .e

/-- A small-matrix opcode. -/
def isSmx (opc : Nat) : Bool := decide (0x1E0 ≤ opc) && decide (opc < 0x200)

/-- R68: which X form an opcode has, given whether its instruction reads B. -/
def xFormOf (opc : Nat) (readsB : Bool) : XForm :=
  if opc == 0x001 || opc == 0x003 || isSmx opc then .only
  else if readsB && ((decide (0x040 ≤ opc) && decide (opc < 0x1E0)) || (decide (0x200 ≤ opc) && decide (opc < 0x2C0)))
  then .immediate else .no

/-- R83: supervisor-only opcodes. -/
def supervisorOnly (opc : Nat) : Bool := opc == 0x012 || opc == 0x013 || opc == 0x014

/-- R83: opcodes of the Combine Unit. -/
def combineOpcode (opc : Nat) : Bool := decide (0x380 ≤ opc) && decide (opc ≤ 0x383)

/-- Table 3.10: the F opcode of an H opcode. -/
def hOpcodes : List Nat :=
  [0x04D, 0x040, 0x041, 0x042, 0x04A, 0x04B, 0x050, 0x051, 0x052, 0x053,
   0x054, 0x058, 0x059, 0x05A, 0x05B, 0x05C, 0x062, 0x063, 0x064, 0x100,
   0x102, 0x101, 0x106, 0x107, 0x10B, 0x140, 0x141, 0x142, 0x1C0, 0x1C1,
   0x1C2, 0x1C3, 0x1C4, 0x203, 0x204, 0x200, 0x202, 0x240, 0x241, 0x000]

/-- The operand in the B position: the B field, or the B of a small-matrix immediate (Table 5.1). -/
def Instr.bOperand (i : Instr) : Operand :=
  if isSmx i.opcode then i.operands.smxB else i.operands.b

/-- An unused field holds 0 (R65). -/
def fieldUnusedOk (u : Use) (x : Operand) : Bool := u != .zero || x.isZeroField

/-- The conditions of R65 and R72 (trap 0x01): MOD and XM values that the description defines, unused fields 0,
unused extended modifiers 0, and no prefix before a join (R173). An X form has no B field to test. -/
def staticLegal (i : Instr) : Bool :=
  let o := i.operands
  let g := i.sig
  g.modOk && g.xmOk && fieldUnusedOk g.d o.d && fieldUnusedOk g.a o.a &&
  (o.form == .x || fieldUnusedOk g.b o.b) &&
  (!isSmx i.opcode || (fieldUnusedOk g.b o.smxB && fieldUnusedOk g.e o.smxE)) &&
  (match o.ext with
   | none => true
   | some e => (g.ls || e.ls == 0) && (g.tmo || e.tmo == 0) && (g.col || e.col == 0) && i.opcode != 0x007) &&
  (match o.rep with
   | none => true
   | some r => g.repeatable && (o.form != .x || r.sb == 0))

/-- Registers from n on. -/
def regRange (b n : Nat) : List Nat := (List.range n).map (b + ·)

/-- Registers an operand reads when used as u. -/
def Use.reads (u : Use) (x : Operand) : List Nat :=
  match u, x with
  | .src n, .reg b => regRange b n
  | .win n, .reg b => regRange b n
  | .rmw n, .reg b => regRange b n
  | .rwwin n, .reg b => regRange b n
  | _, _ => []

/-- Registers an operand writes when used as u. -/
def Use.writes (u : Use) (x : Operand) : List Nat :=
  match u, x with
  | .dst n, .reg b => regRange b n
  | .rmw n, .reg b => regRange b n
  | .dwin n, .reg b => regRange b n
  | .rwwin n, .reg b => regRange b n
  | _, _ => []

/-- Rows of a square A window of which only the lower triangle is read, diagonal included (R150, R152, R155); 0 for none. -/
def Instr.lowerRows : Instr → Nat
  | .smxChol o => o.smxN
  | .smxSym o => if o.modBit 0 then o.smxN else 0
  | .smxSol o => if o.modBits == 1 then 0 else o.smxM
  | _ => 0

/-- Registers an instruction reads through A. -/
def Instr.aReads (i : Instr) : List Nat :=
  let rs := i.sig.a.reads i.operands.a
  if i.lowerRows == 0 then rs
  else (rs.zipIdx.filter (fun x => decide (x.2 % i.lowerRows ≤ x.2 / i.lowerRows))).map (·.1)

/-- Registers an instruction reads (R170): sources, predicate, C, and destinations it also reads. -/
def Instr.regsRead (i : Instr) : List Nat :=
  let o := i.operands
  let g := i.sig
  g.d.reads o.d ++ i.aReads ++ g.b.reads i.bOperand ++ g.c.reads o.c ++ g.e.reads o.smxE ++
    (Use.src 1).reads o.pred.src

/-- Registers an instruction writes. -/
def Instr.regsWritten (i : Instr) : List Nat :=
  let o := i.operands
  let g := i.sig
  g.d.writes o.d ++ g.a.writes o.a ++ g.b.writes i.bOperand ++ g.e.writes o.smxE

/-- Whether an operand is legal for its use: trap 0x03 otherwise (R16, R19, R20, R94). f is the footprint. -/
def Use.legal (u : Use) (x : Operand) (f : Nat) : Bool :=
  let inF (b n : Nat) : Bool := decide (b + n ≤ f) && decide (b + n ≤ 640)
  let source (n : Nat) : Bool :=
    match x with
    | .reg b => inF b n
    | .resv _ => false
    | _ => true
  match u with
  | .zero => true
  | .src n => source n
  | .win n => (match x with
      | .reg b => inF b n
      | _ => false)
  | .dst n => (match x with
      | .reg b => inF b n
      | .spc .zero => true
      | _ => false)
  | .rmw n => (match x with
      | .reg b => inF b n
      | .spc .zero => true
      | _ => false)
  | .dwin n => (match x with
      | .reg b => inF b n
      | _ => false)
  | .rwwin n => (match x with
      | .reg b => inF b n
      | _ => false)

/-- A field value that Table 3.6 lists: a reserved operand (R19). -/
def Operand.reserved : Operand → Bool
  | .resv _ => true
  | _ => false

/-- A destination that is neither a register nor %zero (R20). -/
def Use.badDst (u : Use) (x : Operand) : Bool :=
  match u, x with
  | .dst _, .reg _ | .rmw _, .reg _ | .dwin _, .reg _ | .rwwin _, .reg _ => false
  | .dst _, .spc .zero | .rmw _, .spc .zero => false
  | .dst _, _ | .rmw _, _ | .dwin _, _ | .rwwin _, _ => true
  | _, _ => false

/-- An encoding that Table 3.6 lists for an operand: a trap-on-issue word (R76). -/
def Instr.badOperand (i : Instr) : Bool :=
  let o := i.operands
  let g := i.sig
  o.d.reserved || o.a.reserved || i.bOperand.reserved || (g.c != .zero && o.c.reserved) || (g.e != .zero && o.smxE.reserved) || o.pred.src.reserved ||
    g.d.badDst o.d || g.a.badDst o.a || g.b.badDst i.bOperand || g.e.badDst o.smxE

/-- Every operand of an instruction is legal for a footprint of f registers (trap 0x03 otherwise). -/
def operandsLegal (i : Instr) (f : Nat) : Bool :=
  let o := i.operands
  let g := i.sig
  g.d.legal o.d f && g.a.legal o.a f && g.b.legal i.bOperand f && g.c.legal o.c f && g.e.legal o.smxE f &&
    (Use.src 1).legal o.pred.src f

end Sys2Proof
end

