-- ==== Sys2Proof/WellFormed.lean ====
section
/-! DEFINITION. Which instructions an encoding can hold: every field in its range, no prefix or modifier field that
the description does not define, and a form the opcode has (spec/03_encoding_and_assembly.md R61 to R72). -/

namespace Sys2Proof

/-- Fields of a repeat prefix in range (Table 3.5). -/
def RepeatMod.fits (r : RepeatMod) : Bool :=
  decide (1 ≤ r.count) && decide (r.count ≤ 64) && decide (r.sd < 8) && decide (r.sa < 8) && decide (r.sb < 8)

/-- Fields of an extended-modifier prefix in range (Table 3.5). -/
def ExtMod.fits (e : ExtMod) : Bool :=
  decide (e.ls < 64) && decide (e.tmo < 32) && decide (e.col < 8) && decide (e.xm < 2 ^ 18)

/-- Fields of a predicate in range (R21). -/
def Pred.fits (p : Pred) : Bool := p.src.fits && decide (p.bit < 32)

/-- Fields common to F words and X heads in range (Tables 3.2, 3.3). -/
def Operands.fits (o : Operands) : Bool :=
  o.d.fits && o.a.fits && o.pred.fits && decide (o.modBits < 128) &&
    (match o.rep with
     | some r => r.fits
     | none => true) &&
    (match o.ext with
     | some e => e.fits
     | none => true)

/-- The B position of an X form is its immediate. -/
def Operand.isImm : Operand → Bool
  | .imm _ => true
  | _ => false

/-- A register v0 to v255, what the DA field of an H instruction holds (Table 3.4). -/
def Operand.isLowReg : Operand → Bool
  | .reg n => decide (n < 256)
  | _ => false

/-- R66: DA stands in the D and A positions that are used; others are 0; no prefix, predicate %true, MOD bit 6 0. -/
def hFormOk (opc : Nat) (o : Operands) (g : Sig) : Bool :=
  hOpcodes.contains opc && o.pred == .always && o.rep.isNone && o.ext.isNone && decide (o.modBits < 64) && o.b.fits &&
    o.d.isLowReg && o.a.isLowReg && (g.d == .zero || g.a == .zero || o.d == o.a)

/-- An instruction that an encoding can hold. A step without an encoding is not one. -/
def Instr.wellFormed (i : Instr) : Bool :=
  match i.isa? with
  | none => false
  | some (opc, o) =>
    staticLegal i && o.fits &&
      (match o.form with
       | .f => o.b.fits && xFormOf opc (i.sig.b != .zero) != .only
       | .x => o.b.isImm && xFormOf opc (i.sig.b != .zero) != .no
       | .h => hFormOk opc o i.sig)

end Sys2Proof
end

