-- ==== Sys2Proof/Decode.lean ====
section
/-! DEFINITION. Decoding and encoding of instruction words (spec/03_encoding_and_assembly.md R61 to R84). A word is
given as its unsigned value. Refusals carry names and the trap of Table 3.6; operand values (trap 0x03) and the pairing
rules (trap 0x04) are decided at issue (R73, R76). -/

namespace Sys2Proof

/-- Why words are not an instruction (Table 3.6). -/
inductive DecodeError
  /-- word kind 0b1111 -/
  | reservedWord
  /-- a P word or a further prefix after a prefix, a reserved TYPE, reserved prefix bits (R67, R69) -/
  | badPrefix
  /-- X head bits 7:0 or extension bits 63:32 not 0 (R63) -/
  | badExtension
  /-- an F word with an X-only opcode or an X head whose opcode has no X form (R68) -/
  | noSuchForm
  /-- R65, R71, R72 -/
  | unusedField
  /-- R82 -/
  | unassignedOpcode
  deriving DecidableEq, Repr

/-- The trap of a refusal (Table 3.6). -/
def DecodeError.trap : DecodeError → Nat
  | .unassignedOpcode => 0x02
  | _ => 0x01

/-- What words stand for. -/
inductive Decoded
  /-- one instruction of so many words, prefixes included -/
  | one (i : Instr) (words : Nat)
  /-- a P word; none for a half whose H opcode is unassigned (R73 rule 1) -/
  | pair (h0 h1 : Option Instr)
  /-- not an instruction; the opcode field where the word has one -/
  | bad (e : DecodeError) (opc : Nat)
  /-- further words are needed -/
  | short
  deriving DecidableEq, Repr

/-- The predicate fields of a word from its low bits: bit index, sense, operand (R62, R63). -/
def predOf (v : Nat) : Pred := ⟨Operand.ofField (v / 2 ^ 6 % 1024), bitOf v 5, v % 32⟩

/-- A word's predicate fields as a number: bit index in 4:0, sense in 5, operand in 15:6. -/
def predField (p : Pred) : Nat := p.src.toField * 2 ^ 6 + (if p.sense then 32 else 0) + p.bit

/-- R71, R72 for an F word whose opcode is unassigned: prefix fields that no instruction uses. -/
def prefixMisuse (opc : Nat) (rep : Option RepeatMod) (ext : Option ExtMod) : Bool :=
  (rep.isSome && decide (opc < 0x040)) ||
    (match ext with
     | some e => e.ls != 0 || e.tmo != 0 || e.col != 0 || e.xm != 0
     | none => false)

/-- The instruction of an opcode and its fields, or the refusal of Table 3.6 with the lowest code (R77). -/
def decodeFields (opc : Nat) (o : Operands) (words : Nat) : Decoded :=
  match mkInstr opc o with
  | none =>
    if o.form == .x then .bad .noSuchForm opc
    else if prefixMisuse opc o.rep o.ext then .bad .unusedField opc else .bad .unassignedOpcode opc
  | some i =>
    if (o.form == .f && xFormOf opc (i.sig.b != .zero) == .only) ||
       (o.form == .x && xFormOf opc (i.sig.b != .zero) == .no) then .bad .noSuchForm opc
    else if staticLegal i then .one i words
    else .bad .unusedField opc

/-- The fields of an F word (Table 3.2). -/
def fFields (rep : Option RepeatMod) (ext : Option ExtMod) (w : Nat) : Operands :=
  { form := .f, d := Operand.ofField (w / 2 ^ 43 % 1024), a := Operand.ofField (w / 2 ^ 33 % 1024)
    b := Operand.ofField (w / 2 ^ 23 % 1024), pred := predOf (w / 2 ^ 7 % 2 ^ 16), modBits := w % 128
    rep := rep, ext := ext }

/-- The fields of an X head and the immediate of its extension (Table 3.3). -/
def xFields (rep : Option RepeatMod) (ext : Option ExtMod) (w x : Nat) : Operands :=
  { form := .x, d := Operand.ofField (w / 2 ^ 41 % 1024), a := Operand.ofField (w / 2 ^ 31 % 1024)
    b := .imm (BitVec.ofNat 32 x), pred := predOf (w / 2 ^ 15 % 2 ^ 16), modBits := w / 2 ^ 8 % 128
    rep := rep, ext := ext }

/-- One H instruction (Table 3.4, R66); none when its H opcode is unassigned. A DA field that no position uses stands
in D, where a value other than 0 is refused (R65). -/
def decodeHalf (h : Nat) : Option Instr :=
  match hOpcodes[h / 2 ^ 24 % 128]? with
  | none => none
  | some opc =>
    let da : Operand := .reg (h / 2 ^ 16 % 256)
    let o : Operands :=
      { form := .h, d := .reg 0, a := .reg 0, b := Operand.ofField (h / 2 ^ 6 % 1024), pred := .always
        modBits := h % 64, rep := none, ext := none }
    match mkInstr opc o with
    | none => none
    | some i =>
      mkInstr opc { o with d := if i.sig.d == .zero && i.sig.a != .zero then .reg 0 else da
                           a := if i.sig.a == .zero then .reg 0 else da }

/-- The two halves of a P word (R64). -/
def decodePair (w : Nat) : Decoded := .pair (decodeHalf (w / 2 ^ 31 % 2 ^ 31)) (decodeHalf (w % 2 ^ 31))

/-- The words after the prefixes given; k is the number of prefix words. -/
def decodeBody (rep : Option RepeatMod) (ext : Option ExtMod) (k : Nat) : List Nat → Decoded
  | [] => .short
  | w :: ws =>
    if w / 2 ^ 63 % 2 == 0 then decodeFields (w / 2 ^ 53 % 1024) (fFields rep ext w) (k + 1)
    else if w / 2 ^ 62 % 2 == 0 then (if k == 0 then decodePair w else .bad .badPrefix 0)
    else if w / 2 ^ 61 % 2 == 0 then
      (if w % 256 != 0 then .bad .badExtension (w / 2 ^ 51 % 1024)
       else match ws with
        | [] => .short
        | x :: _ =>
          if x / 2 ^ 32 != 0 then .bad .badExtension (w / 2 ^ 51 % 1024)
          else decodeFields (w / 2 ^ 51 % 1024) (xFields rep ext w x) (k + 2))
    else if w / 2 ^ 60 % 2 == 0 then .bad .badPrefix 0
    else .bad .reservedWord 0

/-- TYPE of a prefix word (Table 3.5); none for another kind of word. -/
def prefixType (w : Nat) : Option Nat := if w / 2 ^ 60 == 14 then some (w / 2 ^ 56 % 16) else none

/-- The fields of a repeat prefix; none when a reserved bit is set. -/
def repeatFields (w : Nat) : Option RepeatMod :=
  if w % 2 ^ 41 == 0 then
    some ⟨w / 2 ^ 50 % 64 + 1, w / 2 ^ 47 % 8, w / 2 ^ 44 % 8, w / 2 ^ 41 % 8⟩
  else none

/-- The fields of an extended-modifier prefix; none when a reserved bit is set. -/
def extFields (w : Nat) : Option ExtMod :=
  if w / 2 ^ 32 % 2 ^ 24 == 0 then
    some ⟨w / 2 ^ 26 % 64, w / 2 ^ 21 % 32, w / 2 ^ 18 % 8, w % 2 ^ 18⟩
  else none

/-- Words after a repeat prefix (R69): an extended-modifier prefix may follow. -/
def decodeAfterRepeat (r : RepeatMod) : List Nat → Decoded
  | [] => .short
  | w :: ws =>
    if prefixType w == some 1 then
      (match extFields w with
       | some e => decodeBody (some r) (some e) 2 ws
       | none => .bad .badPrefix 0)
    else decodeBody (some r) none 1 (w :: ws)

/-- The instruction at the head of a list of words. -/
def decodeWords : List Nat → Decoded
  | [] => .short
  | w :: ws =>
    if prefixType w == some 0 then
      (match repeatFields w with
       | some r => decodeAfterRepeat r ws
       | none => .bad .badPrefix 0)
    else if prefixType w == some 1 then
      (match extFields w with
       | some e => decodeBody none (some e) 1 ws
       | none => .bad .badPrefix 0)
    else decodeBody none none 0 (w :: ws)

/-- An X head: the word after it is its extension, from which nothing is decoded (R63, R79). -/
def isXHead (w : Nat) : Bool := w / 2 ^ 61 == 6

/-- Register numbers modulo 8 (R170). -/
def banksOf (rs : List Nat) : List Nat := rs.map (· % 8)

/-- No element in common. -/
def disjoint (xs ys : List Nat) : Bool := xs.all (fun x => !ys.contains x)

/-- Rules 2 to 5 of R73 for two assigned halves. -/
def pairLegal (i j : Instr) : Bool :=
  opClass i.opcode != opClass j.opcode &&
  disjoint (banksOf i.regsRead) (banksOf j.regsRead) &&
  disjoint (banksOf i.regsWritten) (banksOf j.regsWritten) &&
  disjoint i.regsRead j.regsWritten && disjoint j.regsRead i.regsWritten

/-- Prefix words of an instruction, repeat prefix first (R67, R69). -/
def encodePrefixes (o : Operands) : List Nat :=
  (match o.rep with
   | some r => [14 * 2 ^ 60 + (r.count - 1) * 2 ^ 50 + r.sd * 2 ^ 47 + r.sa * 2 ^ 44 + r.sb * 2 ^ 41]
   | none => []) ++
  (match o.ext with
   | some e => [14 * 2 ^ 60 + 2 ^ 56 + e.ls * 2 ^ 26 + e.tmo * 2 ^ 21 + e.col * 2 ^ 18 + e.xm]
   | none => [])

/-- An F word (Table 3.2). -/
def encodeF (opc : Nat) (o : Operands) : Nat :=
  opc * 2 ^ 53 + o.d.toField * 2 ^ 43 + o.a.toField * 2 ^ 33 + o.b.toField * 2 ^ 23 + predField o.pred * 2 ^ 7 +
    o.modBits

/-- An X head (Table 3.3). -/
def encodeX (opc : Nat) (o : Operands) : Nat :=
  6 * 2 ^ 61 + opc * 2 ^ 51 + o.d.toField * 2 ^ 41 + o.a.toField * 2 ^ 31 + predField o.pred * 2 ^ 15 +
    o.modBits * 2 ^ 8

/-- Position of an opcode in Table 3.10. -/
def hopcOf (opc : Nat) : Nat := hOpcodes.idxOf opc

/-- An H instruction (Table 3.4): DA is the register of D, or of A where D is unused. -/
def encodeHalf (i : Instr) : Nat :=
  let o := i.operands
  hopcOf i.opcode * 2 ^ 24 + (if i.sig.d == .zero then o.a.toField else o.d.toField) * 2 ^ 16 + o.b.toField * 2 ^ 6 +
    o.modBits

/-- A P word of two H instructions (R64). -/
def encodePair (i j : Instr) : Nat := 2 * 2 ^ 62 + encodeHalf i * 2 ^ 31 + encodeHalf j

/-- The words of an instruction of an F or X form; an H form is encoded by encodePair. -/
def encode (i : Instr) : List Nat :=
  match i.isa? with
  | none => []
  | some (opc, o) =>
    match o.form with
    | .f => encodePrefixes o ++ [encodeF opc o]
    | .x => encodePrefixes o ++ [encodeX opc o, o.immNat]
    | .h => []

/-- The first n instruction words of a number, least significant first. -/
def wordsOfNat : Nat → Nat → List Nat
  | 0, _ => []
  | n + 1, w => w % 2 ^ 64 :: wordsOfNat n (w / 2 ^ 64)

/-- What the decoder reads from an instruction whose bits are w; the words above nbits are 0. A P word answers its
half 0 when it is legal as a whole. -/
def decodeTableWord (nbits w : Nat) : Option Instr :=
  match decodeWords (wordsOfNat 4 (w % 2 ^ nbits)) with
  | .one i _ => some i
  | .pair (some i) (some j) => if pairLegal i j && staticLegal i && staticLegal j then some i else none
  | _ => none

end Sys2Proof
end

