-- ==== Sys2Proof/Config.lean ====
section
/-! DEFINITION. What an implementation fixes and what the spec leaves open. The opaque constants have no body: nothing
can be proved of their values (assumption logs 7, 9, 10, 11). -/

namespace Sys2Proof.Config

/-- Cores of a die (R4). -/
def coresPerDie : Nat := 32
/-- Bytes of a die's scratchpad (R4). -/
def spadBytes : Nat := 2 ^ 27
/-- Bytes of a core's shared memory (R208). -/
def sharedBytes : Nat := 2 ^ 19
/-- Bytes of a core's weight buffer (R305). -/
def weightBytes : Nat := 2 ^ 18
/-- Bytes of a core's slow register file (R221). -/
def slowFileBytes : Nat := 3 * 2 ^ 19
/-- Allocation units of a core's fast register file (R213). -/
def fastUnits : Nat := 128
/-- Warps of the active scheduling set (R164). -/
def activeWarps : Nat := 32
/-- Resident warps of a core (R213). -/
def residentWarps : Nat := 64
/-- Copy slots of a core (R279). -/
def copySlots : Nat := 64
/-- Accepted matrix operations of a core (R299). -/
def matrixSlots : Nat := 4
/-- Slots of a die's Combine Unit (R394). -/
def combineSlots : Nat := 8192
/-- End of device DRAM (R429). -/
def dramEnd : Nat := 2 ^ 36
/-- Contexts a device holds (R456). -/
def maxContexts : Nat := 64
/-- Handler warps of a context on a die (R426). -/
def maxHandlers : Nat := 16

/-- Raw result of an approximate special function before it is held to its bound (R127): function, type, operands. -/
opaque approx : Nat → Nat → Word → Word → Word

/-- The n-th byte that a peer device answers (R298). -/
opaque peerByte : Nat → Byte

/-- Whether the n-th peer access fails (R298). -/
opaque peerFails : Nat → Bool

/-- Whether an engine operation reads, or writes, bytes before another's n-th write to them (R239, R243, R288): the number,
the operation, the bytes. -/
opaque comesFirst : Nat → Nat → Nat → Bool

/-- Whether the n-th read through a texture and node cache finds a line that the cache took in (R240, R385). -/
opaque stillCached : Nat → Bool

/-- Whether an engine had written its n-th destination byte when it was cut short (R402, R442). -/
opaque byteSent : Nat → Bool

/-- The bytes of the device identity key (R472). -/
opaque identityKey : Nat → Byte

/-- With which code the n-th start-up step fails; 0 when it succeeds (R470). -/
opaque startFails : Nat → Byte

/-- The X.509 certificate chain of the device identity key (R472). -/
opaque certificateChain : List Byte

end Sys2Proof.Config
end

