-- ==== Sys2Proof/Machine/Cells.lean ====
section
/-! DEFINITION. Storage as a list of cells in one canonical form: keys strictly rising, no cell equal to what an
unlisted key reads as, which is 0 (assumption log 4). Registers, memories and the picker's maps are held in it. -/

namespace Sys2Proof

/-- Cells of n bits by key. -/
abbrev Cells (n : Nat) := List (Nat × BitVec n)

/-- What a key reads as; an unlisted key reads as 0. -/
def Cells.get {n : Nat} : Cells n → Nat → BitVec n
  | [], _ => 0
  | c :: m, k => if k == c.1 then c.2 else Cells.get m k

/-- Drop every cell of a key. -/
def Cells.drop {n : Nat} : Cells n → Nat → Cells n
  | [], _ => []
  | c :: m, k => if k == c.1 then Cells.drop m k else c :: Cells.drop m k

/-- Put a cell before the first greater key. -/
def Cells.put {n : Nat} : Cells n → Nat → BitVec n → Cells n
  | [], k, v => [(k, v)]
  | c :: m, k, v => if k < c.1 then (k, v) :: c :: m else c :: Cells.put m k v

/-- Write a key. Writing 0 removes the cell, so that equal contents are equal lists. -/
def Cells.set {n : Nat} (m : Cells n) (k : Nat) (v : BitVec n) : Cells n :=
  if v == 0 then Cells.drop m k else Cells.put (Cells.drop m k) k v

/-- Keys rise strictly from lo on and no cell is 0. -/
def Cells.wfFrom {n : Nat} (lo : Nat) : Cells n → Bool
  | [] => true
  | c :: m => decide (lo ≤ c.1) && c.2 != 0 && Cells.wfFrom (c.1 + 1) m

/-- The canonical form. -/
def Cells.wf {n : Nat} (m : Cells n) : Bool := Cells.wfFrom 0 m

/-- A byte memory. -/
abbrev Memory := Cells 8

/-- The canonical form of a byte memory. -/
abbrev Memory.wf (m : Memory) : Bool := Cells.wf m

/-- n bytes from address a on, little-endian (R5). -/
def Memory.readNat (m : Memory) (a : Nat) : Nat → Nat
  | 0 => 0
  | n + 1 => (Cells.get m a).toNat + 256 * Memory.readNat m (a + 1) n

/-- Write n bytes of a number from address a on, little-endian (R5). -/
def Memory.writeNat (m : Memory) (a : Nat) : Nat → Nat → Memory
  | 0, _ => m
  | n + 1, v => Memory.writeNat (Cells.set m a (BitVec.ofNat 8 v)) (a + 1) n (v / 256)

/-- n bytes from address a on. -/
def Memory.readBytes (m : Memory) (a : Nat) : Nat → List Byte
  | 0 => []
  | n + 1 => Cells.get m a :: Memory.readBytes m (a + 1) n

/-- Write bytes from address a on. -/
def Memory.writeBytes (m : Memory) (a : Nat) : List Byte → Memory
  | [] => m
  | b :: bs => Memory.writeBytes (Cells.set m a b) (a + 1) bs

/-- The number whose little-endian bytes are given (R5). -/
def bytesToNat : List Byte → Nat
  | [] => 0
  | b :: bs => b.toNat + 256 * bytesToNat bs

/-- The low n bytes of a number, little-endian (R5). -/
def natToBytes : Nat → Nat → List Byte
  | 0, _ => []
  | n + 1, v => BitVec.ofNat 8 v :: natToBytes n (v / 256)

/-- Bytes lo to lo+n-1 of a byte list as a number. -/
def fieldOf (bs : List Byte) (lo n : Nat) : Nat := bytesToNat ((bs.drop lo).take n)

end Sys2Proof
end

