-- ==== Sys2Proof/Machine/State.lean ====
section
/-! DEFINITION. The state of the T9 as plain data: lanes, warps, blocks, launches, contexts, the two dies with their
engines, main and host memory, the registers the host sees, and the model's own agenda that says what happens next. -/

namespace Sys2Proof.Machine

/-- Why a step stops. -/
inductive Fault
  /-- exec was asked for an instruction of the table while no lane set issues: raised by every instruction meaning.
  Safe: step never asks so; a run does not meet it. -/
  | noIssuingSet
  deriving DecidableEq, Repr

/-- Why an instruction has no outcome. -/
inductive Refusal
  /-- the instruction has no meaning in this model; raised by an arm of exec only. Safe: nothing can be proved of it. -/
  | notModelled (mnemonic : String)
  deriving DecidableEq, Repr

/-- Lane states (Table 7.1). -/
inductive LaneState
  | runnable | held | suspended | parked | ended
  deriving DecidableEq, Repr

/-- A lane: PC and half (R61), REPC (R70), registers (R15; unlisted read 0), FPX (Table 1.4), generator (R51), how often
it was passed over in succession, and whether it is starved (R171). -/
structure Lane where
  st : LaneState := .runnable
  pc : Nat := 0
  half : Nat := 0
  repc : Nat := 0
  regs : Cells 32 := []
  fpx : BitVec 6 := 0
  gen : Word := 0
  passed : Nat := 0
  starved : Bool := false
  deriving DecidableEq, Repr

/-- Kinds of warps (R22, R166). -/
inductive WarpKind
  | block | task | sample | handler
  deriving DecidableEq, Repr

/-- Stage roles (Table 3.11). -/
inductive Role
  | g | s | m | v
  deriving DecidableEq, Repr

/-- The operand words a lane read at the issue of an instruction: A, B, C and the old D. -/
structure LaneVals where
  lane : Nat
  a : List Word
  b : List Word
  c : List Word
  d : List Word
  deriving DecidableEq, Repr

/-- A word to be written to a register of a lane. -/
structure RegWrite where
  lane : Nat
  reg : Nat
  val : Word
  deriving DecidableEq, Repr

/-- A store that satisfied a waiting record: its warp and ISS, the word it left, and the word before it (R271). -/
structure Latch where
  wid : Nat
  iss : Nat
  val : Word
  before : Word
  deriving DecidableEq, Repr

/-- What a record waits for (Table 9.3). Addresses are bytes of the block's shared memory or of the die scratchpad. -/
inductive Wait
  /-- nothing: a ready, faulted or resolved record -/
  | nothing
  /-- the release of owned lines (R238); the access is then made -/
  | lines (keys : List LineKey)
  /-- scratchpad cache lines (R212) -/
  | fill (lines : List Nat)
  /-- the end of the holds of registers that the instruction names (R310) -/
  | hold (regs : List Nat)
  /-- a traversal step (R385), a texture sample (R390), a gather (R366): made by their completion events -/
  | traversal
  | texture
  | gather
  /-- an atomic to be performed at its slice (R269): its place among the warp's stores and atomics -/
  | atomic (n : Nat)
  /-- a word (R271); once a store has satisfied it, the store, until it is performed -/
  | word (shared : Bool) (addr cond : Nat) (v : Word) (latch : Option Latch)
  /-- a copy handle (R296); another warp's copy that faulted and was retired leaves the wait to its timeout -/
  | copy (handle : Nat) (lost : Bool)
  /-- a byte barrier phase (R295) -/
  | byteBarrier (sp : Bool) (addr : Nat) (tok : Word)
  /-- a block barrier phase (R182); the token is also written by bar.sync -/
  | barrier (k tok : Nat)
  /-- a named queue by the die scratchpad address of its descriptor (R343) -/
  | qPush (desc : Nat)
  | qPop (desc : Nat)
  /-- a hinge ring slot (R347) -/
  | ring (k slot : Nat) (phase : Bool)
  /-- a task's end or its children's (R338) -/
  | task (tcb : Nat) (kids : Bool)
  /-- a matrix ticket (R313) -/
  | ticket (t : Word)
  /-- a matrix-to-vector queue (R317) -/
  | mxq (q : Nat)
  /-- a Combine Unit slot; the descriptor bytes as read at issue (R399) -/
  | slot (desc : List Byte)
  /-- a chained request of a DET launch (R248): site PC, repeat index, execution number -/
  | det (pc idx k : Nat)
  /-- engine operations (R272) -/
  | fence (ops : List Nat)
  /-- engine operations before a task.done takes effect, with the deque entries reserved (R333) -/
  | taskDone (ops : List Nat) (reserved : Nat)
  /-- engine operations before an arrival at the sort phase, then the phase (R392) -/
  | sortFence (ops : List Nat)
  | sortPhase
  deriving DecidableEq, Repr

/-- STATE of a continuation record (Table 9.4). -/
inductive RecState
  | waiting | ready | faulted | resolved
  deriving DecidableEq, Repr

/-- Where a record lies (R221, R223): the slow register file, the spill area (first byte in the die scratchpad and
length), a slot of the warp's fault page, or the save image of its block (R437), to return to the spill area if it was there. -/
inductive Place
  | slow
  | spill (base len : Nat)
  | slot (k : Nat)
  | image (spilled : Bool)
  deriving DecidableEq, Repr

/-- A held page entry (R429): 64 KiB page number of the address, whether it maps 512 MiB, and its value. -/
structure TlbEntry where
  page : Nat
  big : Bool
  entry : Dword
  deriving DecidableEq, Repr

/-- SPB, SPL, CSAB and CSAL of a die. -/
structure WindowRegs where
  spb : Word
  spl : Word
  csab : Word
  csal : Word
  deriving DecidableEq, Repr

/-- TTB2 with the committed root and the held entries. -/
structure TableRegs where
  ttb2 : Word
  root : Nat
  tlb : List TlbEntry
  deriving DecidableEq, Repr

/-- DQB and DQL of a core, the core named by its die and its number on it. -/
structure DequeRegs where
  die : Nat
  core : Nat
  dqb : Word
  dql : Word
  deriving DecidableEq, Repr

/-- The values, of registers written since, under which an access or engine operation completes (R31, R136, R430). -/
structure OldRegs where
  windows : List (Nat × WindowRegs) := []
  deques : List DequeRegs := []
  table : Option TableRegs := none
  deriving DecidableEq, Repr

/-- The generator and FPX of a lane as a record keeps them (Table 9.5). -/
structure LaneSave where
  lane : Nat
  gen : Word
  fpx : BitVec 6
  regs : Cells 32
  deriving DecidableEq, Repr

/-- A continuation record (Tables 9.4, 9.5), with what the continuation store needs to complete it: the instruction,
the operand words it read, its own position (ipc, ihalf,
irepc; pc, half and repc are those of resumption), and the register writes to make at resumption (R219). -/
structure Record where
  seq : Nat
  before : Bool := false
  state : RecState := .waiting
  inPlace : Bool := false
  lanes : List Nat
  pc : Nat
  half : Nat := 0
  repc : Nat := 0
  ipc : Nat := 0
  ihalf : Nat := 0
  irepc : Nat := 0
  trap : Nat := 0
  ls : Nat := 0
  tmo : Nat := 31
  opc : Nat := 0
  sdst : Nat := 0x3FF
  who : Word := 0
  blk : Word := 0
  deadline : Word := 0
  event : Nat := 0
  faddr : Nat := 0
  live : List Nat := []
  saved : List LaneSave := []
  exempt : List Nat := []
  place : Place := .slow
  size : Nat := 320
  wait : Wait := .nothing
  instr : Option Instr := none
  vals : List LaneVals := []
  results : List RegWrite := []
  old : OldRegs := {}
  suspendedAt : Nat := 0
  readyAt : Nat := 0
  parkOrder : Nat := 0
  dispatched : Bool := false
  handler : Option Nat := none
  deriving DecidableEq, Repr

/-- A kernel image as the Launch Processor read it (Tables 3.11, R86): live sets are masks of registers. -/
structure Image where
  base : Nat := 0
  entry : Nat := 0
  regs : Nat := 32
  nlive : Nat := 0
  shared : Nat := 0
  spad : Nat := 0
  codesz : Nat := 0
  stages : List Nat := []
  nparam : Nat := 0
  live : List Nat := []
  deriving DecidableEq, Repr

/-- The end of a warp's last lanes, which waits for its engine operations (R34, R292), with the values under which it was
made (R31). -/
structure ExitWait where
  lanes : List Nat
  pc : Nat
  half : Nat
  opc : Nat
  old : OldRegs := {}
  deriving DecidableEq, Repr

/-- A fold into a warp's digest that waits behind one that is not made yet (R251): its word pair, or the sequence number of
the record whose instruction will fold here. -/
inductive Fold
  | value (hi lo : Nat)
  | pending (seq : Nat)
  deriving DecidableEq, Repr

/-- A warp: its place, what it runs, the tag of its launch (R337), deque entries reserved for its own finish (R333), its control
registers of warp scope (Table 1.3), its lanes, spill stack (R205),
fault page and records (R220 to R227), counts (R244, R300), folds that wait their turn (R251), and what its port keeps of it (R164, R183 to R185). -/
structure Warp where
  wid : Nat
  kind : WarpKind := .block
  die : Nat := 0
  core : Nat := 0
  port : Nat := 0
  ctx : Nat := 0
  launch : Nat := 0
  block : Option Nat := none
  index : Nat := 0
  blockIdx : Nat := 0
  lastBlk : Nat := 0
  nwarp : Nat := 1
  stage : Nat := 0
  nstage : Nat := 1
  role : Role := .g
  depth : Nat := 0
  tcb : Word := 0xFFFFFFFF
  frame : Nat := 0
  tag : Nat := 0
  reserved : Nat := 0
  args : List Word := []
  argc : Nat := 0
  image : Image := {}
  footprint : Nat := 32
  resident : Bool := true
  active : Bool := true
  placedAt : Nat := 0
  segment : Nat := 0
  part : BitVec 3 := 5
  rnd : BitVec 3 := 0
  axc : BitVec 2 := 0
  seed : Word := 0x2545F491
  sps : Word := 0x400
  dig : Dword := 0
  digh : Word := 0
  prioClass : Nat := 2
  prioLevel : Nat := 0
  lanes : List Lane := []
  spill : Cells 33 := []
  records : List Record := []
  seqNext : Nat := 0
  iss : Nat := 0
  prf : Nat := 0
  matL : Word := 0
  matC : Word := 0
  sites : List (Nat × Nat × Nat) := []
  folds : List Fold := []
  exitWait : Option ExitWait := none
  killed : Bool := false
  readySince : Nat := 0
  readyCycles : Nat := 0
  boosted : Bool := false
  loopPc : Nat := 0
  loopCount : Nat := 0
  demoted : Bool := false
  handlerFor : Option (Nat × Nat) := none
  deriving DecidableEq, Repr

/-- Block barrier state (Table 7.3). -/
structure Barrier where
  gen : Word := 0
  cnt : BitVec 11 := 0
  exp : BitVec 11 := 0
  opened : Bool := false
  deriving DecidableEq, Repr

/-- Hinge ring state (Table 15.9). -/
structure Ring where
  nslot : Nat := 0
  link : Nat := 0
  phase : BitVec 16 := 0
  deriving DecidableEq, Repr

/-- A matrix-to-vector queue (R315): entries of 64 words, oldest first, and reserved entries. -/
structure Mxq where
  entries : List (List Word) := []
  reserved : Nat := 0
  deriving DecidableEq, Repr

/-- Where a block stands (R434 to R438): on its core, being drained, flushed or saved, saved, or to start again from
entry. -/
inductive Residency
  | resident
  | draining (since : Nat)
  | flushing
  | saving
  | saved
  | restart
  deriving DecidableEq, Repr

/-- A block: its place, shared memory (R208), weight-buffer allocation (R305), queues, barriers, rings, issue count. A
task warp or handler warp has one of its own, without memory, for its switching (R434). -/
structure Block where
  bid : Nat
  kind : WarpKind := .block
  launch : Nat
  ctx : Nat
  die : Nat := 0
  core : Nat := 0
  index : Nat := 0
  nwarp : Nat := 1
  sharedSize : Nat := 0
  shared : Memory := []
  wbSize : Nat := 0
  wb : Memory := []
  holdsMxq : Bool := false
  mxqs : List Mxq := []
  barriers : List Barrier := []
  rings : List Ring := []
  nstage : Nat := 1
  issues : Nat := 0
  residency : Residency := .resident
  switchFor : Option Nat := none
  digests : List (Nat × Dword) := []
  imageBase : Nat := 0
  imageLen : Nat := 0
  deriving DecidableEq, Repr

/-- A launch record as read (Table 23.5). -/
structure LaunchRecord where
  code : Nat := 0
  cls : Nat := 0
  level : Nat := 0
  det : Bool := false
  idempotent : Bool := false
  replayable : Bool := false
  persistent : Bool := false
  list : Bool := false
  warps : Nat := 1
  nblk : Nat := 1
  regf : Nat := 0
  shmem : Nat := 0
  wbf : Nat := 0
  est : Nat := 0
  arg : Nat := 0
  argn : Nat := 0
  cscope : Nat := 0
  csv : Nat := 0
  csa : Nat := 0
  digest : Nat := 0
  rpt : Nat := 0
  reservedZero : Bool := true
  deriving DecidableEq, Repr

/-- What made a launch: a queue's record, a member of a list call, the picker for a kind of sample warp (R358), a band
request (R369). -/
inductive LaunchKind
  | queue (q index : Nat)
  | member (call k : Nat)
  | sample (probe : Bool)
  | recon (tag : Nat)
  deriving DecidableEq, Repr

/-- Where a launch stands. -/
inductive LaunchPhase
  | waiting | placing | started | complete
  deriving DecidableEq, Repr

/-- A launch (R162, R336, R458, R463). arrival is that of the TAIL write that covers it; rtCore is the core that its next
block of class RT was given (R431); entry holds v0 to v3 of the lanes of a sample warp (R358). -/
structure Launch where
  lid : Nat
  kind : LaunchKind
  ctx : Nat
  die : Nat
  lrec : LaunchRecord
  image : Image := {}
  args : List Word := []
  argc : Nat := 0
  tag : Nat := 0
  arrival : Nat := 0
  phase : LaunchPhase := .waiting
  nextBlock : Nat := 0
  serial : Bool := false
  digests : List (Nat × Dword) := []
  firstDigest : Nat := 0
  replayed : Bool := false
  rtCore : Option Nat := none
  entry : List (List Word) := []
  deriving DecidableEq, Repr

/-- A list call (R464, R465): its members' launches are numbered; statuses of the finished ones are kept. -/
structure ListCall where
  call : Nat
  queue : Nat
  ctx : Nat
  die : Nat
  lrec : LaunchRecord
  members : Nat
  statuses : List (Nat × Nat) := []
  arrival : Nat := 0
  deriving DecidableEq, Repr

/-- A copy or weight load in flight (R279 to R292): the descriptor's bytes, its slot, the destination lines released and
main-memory blocks written, and its first faulting byte with trap and address once it has bound what is written. -/
structure CopyOp where
  weights : Bool
  desc : List Byte
  slot : Nat
  seq : Nat
  base : Nat
  otherBase : Nat
  released : List LineKey := []
  written : List Nat := []
  cut : Option (Nat × Nat × Nat) := none
  remote : Bool := false
  deriving DecidableEq, Repr

/-- A matrix operation (R299 to R316): parameter block, ticket, rows pushed, and the source bytes it read at its start:
stored rows of A and its scales, column records of B and their scales. -/
structure MatrixOp where
  params : List Byte
  ticket : Word
  started : Bool := false
  rows : Nat := 0
  aRows : List (List Byte) := []
  aScales : List Byte := []
  bCols : List (List Byte) := []
  bScales : List Byte := []
  deriving DecidableEq, Repr

/-- A Combine Unit put (R401, R402). -/
structure PutOp where
  handle : Nat
  source : Nat
  expert : Nat
  width : Nat
  f16 : Bool
  landing : Option Nat := none
  deriving DecidableEq, Repr

/-- Kinds of engine operations. -/
inductive OpKind
  | copy (c : CopyOp)
  | matrix (m : MatrixOp)
  | clear (off len : Nat) (released : List LineKey)
  | forward (tile : Nat) (bytes : List Byte)
  | put (p : PutOp)
  deriving DecidableEq, Repr

/-- An on-die memory: a block's shared memory, a die's scratchpad, a block's weight-buffer allocation. -/
inductive Space
  | shared (bid : Nat)
  | spad (die : Nat)
  | weight (bid : Nat)
  deriving DecidableEq, Repr

/-- Bytes that an engine operation reads: an on-die memory, or none for main memory; first byte and number. -/
structure Source where
  space : Option Space
  first : Nat
  len : Nat
  deriving DecidableEq, Repr

/-- A source byte that an operation has read. -/
structure ReadByte where
  space : Option Space
  addr : Nat
  val : Byte
  deriving DecidableEq, Repr

/-- An engine operation: who issued it, its colour (R241), the registers under which it goes on (R31), its sources, what
it read of them before a later write (R239), the main-memory bytes another operation wrote after it (R243), whether it has
completed or faulted and awaits its fold or report (R251, R292), and the bytes it wrote by their place in its own order,
kept in a DET launch for the digest. -/
structure EngineOp where
  oid : Nat
  die : Nat
  core : Nat
  ctx : Nat
  wid : Nat
  block : Option Nat
  colour : Nat
  kind : OpKind
  old : OldRegs := {}
  sources : List Source := []
  early : List ReadByte := []
  lost : List Nat := []
  complete : Bool := false
  fault : Option (Nat × Nat) := none
  payload : List (Nat × Byte) := []
  deriving DecidableEq, Repr

/-- Who may own a line (R236, R400). -/
inductive Owner
  | op (oid : Nat)
  | slot (die slot : Nat)
  | unit (id : Nat)
  deriving DecidableEq, Repr

/-- A unit that a Sensor Port has received and that waits for lines of its slot or barrier (R236, R469): a number of its own,
its channel, PT at its first byte, and whether a check of it failed. -/
structure WaitingUnit where
  id : Nat
  die : Nat
  chan : Nat
  unit : SensorUnit
  pt : Nat
  bad : Bool
  deriving DecidableEq, Repr

/-- The owner of a line first, then those whose requests wait, in order (R236). -/
structure LineOwner where
  line : LineKey
  owners : List Owner
  deriving DecidableEq, Repr

/-- STATE of a Combine Unit slot (Table 18.5). -/
inductive SlotState
  | free | opened | closed | released
  deriving DecidableEq, Repr

/-- A Combine Unit slot (R394 to R408). Offsets are of the owner's window; base is the window's first byte. -/
structure CmbSlot where
  slot : Nat
  state : SlotState := .free
  seq : Nat := 0
  ctx : Nat := 0
  token : Nat := 0
  experts : List Nat := []
  gates : List Word := []
  width : Nat := 0
  ctl : Nat := 0
  group : Nat := 0
  base : Nat := 0
  out : Nat := 0
  stage : Nat := 0
  cwoff : Nat := 0
  cwval : Nat := 0
  arr : Nat := 0
  sub : Nat := 0
  late : Nat := 0
  deadline : Option Nat := none
  deriving DecidableEq, Repr

/-- A cached instruction word (R75): context, header address, PC. -/
structure CodeWord where
  ctx : Nat
  base : Nat
  pc : Nat
  word : Dword
  deriving DecidableEq, Repr

/-- A line in a texture and node cache (R240): the context that read it, its target and physical address in lines of 128
bytes, its bytes. -/
structure TexLine where
  ctx : Nat
  tgt : Nat
  line : Nat
  bytes : List Byte
  deriving DecidableEq, Repr

/-- A core: copy-slot sequence numbers (R279), lines in its scratchpad cache (R212), its instruction cache (R75), its
texture and node cache (R240), and by context the released tasks that it has pushed in this cycle, each with the index of
its entry, while they stand there (R332). -/
structure Core where
  copySeq : Cells 26 := []
  spadLines : List Nat := []
  icache : List CodeWord := []
  texLines : List TexLine := []
  released : List (Nat × List (Nat × Nat)) := []
  deriving DecidableEq, Repr

/-- A pick waiting in a pending warp: tile, position, target time (R353). -/
structure Pick where
  tile : Nat
  sx : Nat
  sy : Nat
  time : Nat
  deriving DecidableEq, Repr

/-- The pending warp of a kind (R356): its picks and the tick of the first. -/
structure Pending where
  picks : List Pick := []
  first : Nat := 0
  deriving DecidableEq, Repr

/-- A band slot of the Scan-Out Unit (R368, R369): request tag and band, the real time of its scan, acknowledgements, codes
by 16·TW·row + x. -/
structure BandSlot where
  opened : Bool := false
  tag : Word := 0
  band : Nat := 0
  due : Nat := 0
  acks : Nat := 0
  codes : Cells 30 := []
  deriving DecidableEq, Repr

/-- The picker, Sample Buffer controller and Scan-Out Unit of a die (Tables 16.1, 16.2; R350 to R372). Per tile: map
entry, time of the last pick or restart, pick count, pass, WIDX and FILL. -/
structure Render where
  ownerV : Bool := false
  ownerCtx : Nat := 0
  rate : Nat := 0
  wgt : Word := 0
  agesh : Nat := 10
  sh : Nat := 0
  lead : Nat := 0
  th : Nat := 256
  tw : Nat := 256
  rayl : Word := 0
  prbl : Word := 0
  maxw : Nat := 64
  sbfb : Word := 0
  axl : Nat := 0
  pt : Nat := 0
  picks : Word := 0
  dropped : Word := 0
  fdrop : Word := 0
  souEn : Bool := false
  rql : Nat := 2
  recl : Word := 0
  seq : Word := 0
  miss : Word := 0
  pxdrop : Word := 0
  credit : Nat := 0
  vt : Nat := 0
  launched : Nat := 0
  restartAt : Nat := 0
  map : Cells 32 := []
  picked : Cells 64 := []
  count : Cells 16 := []
  pass : Cells 64 := []
  widx : Cells 6 := []
  fill : Cells 7 := []
  rayPending : Option Pending := none
  prbPending : Option Pending := none
  rayTag : Nat := 0
  prbTag : Nat := 0
  recTag : Nat := 0
  bands : List BandSlot := []
  hold : Cells 30 := []
  refreshAt : Nat := 0
  nextScan : Nat := 0
  nextReq : Nat := 0
  deriving DecidableEq, Repr

/-- A sensor channel (Table 23.7): its descriptor's eight words, the number of units delivered (R469), and the real time
from which its next period counts (R468). -/
structure Sensor where
  words : List Word := []
  units : Nat := 0
  since : Nat := 0
  deriving DecidableEq, Repr

/-- A stamp of a named-queue entry (R244): the descriptor, the entry's number, the pushing warp and its ISS. -/
structure Stamp where
  desc : Nat
  index : Nat
  wid : Nat
  iss : Nat
  deriving DecidableEq, Repr

/-- A die (R452). -/
structure Die where
  clkr : Nat := 0
  spad : Memory := []
  cores : List Core := []
  render : Render := {}
  slots : List CmbSlot := []
  cmbDrop : Word := 0
  stamps : List Stamp := []
  dtim0 : Nat := 4096
  dtim1 : Nat := 4166
  dtim2 : Nat := 2000
  sensors : List Sensor := []
  deriving DecidableEq, Repr

/-- Control registers of a context that each die has a copy of (Table 1.3), its launch tag counter (R337), and the tags
and TCB offsets of its ready, running and claimed tasks, which the Launch Processor counts (R336). -/
structure CtxDie where
  spb : Word := 0
  spl : Word := 0
  csab : Word := 0
  csal : Word := 0
  dqb : List Word := []
  dql : List Word := []
  nextTag : Nat := 0
  tasks : List (Nat × Nat) := []
  deriving DecidableEq, Repr

/-- A dump that is being written (R444, R446): the next section, the offset past the last byte written, STAT, SCODE and
SADDR once it has stopped, and the window bytes captured before a host write of them. -/
structure DumpRun where
  next : Nat := 0
  stop : Nat := 256
  cut : Option (Nat × Nat × Nat) := none
  early : List ReadByte := []
  deriving DecidableEq, Repr

/-- A context (R456): the identifier it was created with, CTX.ID, its registers, supervisor code, dump buffer; the
escalated record, die 0's count and the copies held at the halt, the dump (R443). -/
structure Context where
  id : Nat
  ctxId : BitVec 16
  retain : Bool := false
  dies : List CtxDie := []
  ttb0 : Word := 0
  ttb1 : Word := 0
  ttb2 : Word := 0
  root : Nat := 0
  trapv : Word := 0
  wdgEn : Bool := false
  wdgK : BitVec 6 := 31
  wdgCount : Nat := 0
  suph : Nat := 0
  dumpb : Nat := 0
  dumps : Nat := 0
  clk : Nat := 0
  tlb : List TlbEntry := []
  escalated : Option (Nat × Nat) := none
  haltAt : Nat := 0
  haltOps : List EngineOp := []
  dumping : Option DumpRun := none
  dumped : Bool := false
  deriving DecidableEq, Repr

/-- Where a queue switch stands (R460). -/
inductive Switching
  | idle | out | outThenIn | inward
  deriving DecidableEq, Repr

/-- A launch queue (Table 23.2, R458, R460). stopped is set by an error until ERR is cleared and TAIL is rewritten,
rewritten once the second has come before the first; covers keeps the arrival numbers of the TAIL values taken. -/
structure Queue where
  base0 : Word := 0
  base1 : Word := 0
  base2 : Word := 0
  en : Bool := false
  swIn : Bool := false
  err : Bool := false
  irq : Bool := false
  cls : Nat := 0
  die : Nat := 0
  ctx : Nat := 0
  log2n : Nat := 1
  tail : Word := 0
  latched : Option Word := none
  prog : Word := 0
  progShown : Option Word := none
  stopped : Bool := false
  rewritten : Bool := false
  covers : List (Nat × Nat) := []
  switching : Switching := .idle
  deriving DecidableEq, Repr

/-- The firmware image (R472): security version, length of its body, 57-byte key, 114-byte signature, body. -/
structure Firmware where
  version : Nat := 0
  length : Nat := 0
  key : List Byte := []
  signature : List Byte := []
  body : List Byte := []
  deriving DecidableEq, Repr

/-- A retention entry (Table 23.10). -/
structure Retained where
  id : Nat
  die : Nat
  base : Nat
  size : Nat
  deriving DecidableEq, Repr

/-- A completion word that waits for the release of its line (R238): byte of a die's scratchpad, and value. -/
structure DueWord where
  die : Nat
  addr : Nat
  val : Nat
  deriving DecidableEq, Repr

/-- What the outside sees (R235, R372, R455, R463, R472). -/
inductive Outbound
  | write (addr : Nat) (data : List Byte)
  | peerWrite (addr : Nat) (data : List Byte)
  | readReturn (data : List Byte)
  | msix (vector : Nat)
  | band (die band : Nat) (codes : Cells 30)
  | attestation (report : List Byte)
  deriving DecidableEq, Repr

/-- What happens next: an event, an issue of a port, the end of the cycle. -/
inductive Move
  | event (i : Instr)
  | port (die core port : Nat)
  | endCycle
  deriving DecidableEq, Repr

/-- PART, RND and AXC of a warp. -/
structure WarpRegs where
  part : BitVec 3
  rnd : BitVec 3
  axc : BitVec 2
  deriving DecidableEq, Repr

/-- The issuing lane set: warp, lanes, position, number of repeats, and the position after the instruction. A secondary
set keeps in regs what it reads of PART, RND and AXC: their values before the primary's effects (R135). -/
structure Cur where
  wid : Nat
  lanes : List Nat
  pc : Nat
  half : Nat
  idx : Nat
  count : Nat
  nextPc : Nat
  nextHalf : Nat
  regs : Option WarpRegs := none
  deriving DecidableEq, Repr

/-- The machine. The fields from agenda on are the model's own (assumption log 2). -/
structure State where
  t9c : Bool
  rev : Nat
  keyHash : List Byte
  minVersion : Nat
  firmware : Firmware
  bootFail : Nat
  bootWarm : Bool
  bootState : Nat
  trainingValid : Bool
  retentionValid : Bool
  retained : List Retained
  keeping : List Retained
  mailbox : List Byte
  nonceDue : Bool
  nonce : List Byte
  report : List Byte
  belt : Bool
  point : Nat
  temp : Nat
  modeDue : Option Bool
  hotTicks : Nat
  coolTicks : Nat
  clocksStopped : Bool
  ctxa0 : Word
  ctxa1 : Word
  ctxst : Nat
  queues : List Queue
  dies : List Die
  dram : Memory
  hostMem : Memory
  ctxs : List Context
  launches : List Launch
  calls : List ListCall
  blocks : List Block
  warps : List Warp
  ops : List EngineOp
  owned : List LineOwner
  words : List DueWord
  outbound : List Outbound
  realTime : Nat
  agenda : List Move
  cur : Option Cur
  secondary : Option Cur
  portsDone : List (Nat × Nat × Nat)
  resumed : List Nat
  nextId : Nat
  fresh : Nat
  arrivals : Nat
  hostWaiting : List Instr
  sensorWaiting : List WaitingUnit
  deriving DecidableEq, Repr

/-- A die right after reset: counts 0, scratchpad unlisted, every rendering register at its reset value (Table 16.2). -/
def Die.reset : Die :=
  { cores := List.replicate 32 {}, sensors := List.replicate 16 { words := List.replicate 8 0 }
    render := { bands := List.replicate 4 {} } }

/-- The fuses' key hash and the Moasan image of the state after reset (R472, assumption log 5): an image with an empty body
that its key, of a secret of zeros, signs. -/
def resetKeyHash : List Byte := natToBytes 64
  0x103a6d2cbcc654c55143402290acb5fc7e809ee8615c3e8553aaddb5b74b2b16b3d02f6255d06dd8ae4bb9a176e0fd1315f475d96df3d0d6eee41bd391f6ddfc
def resetFirmware : Firmware :=
  { key := natToBytes 57
      0x80c4321cb2699166f1a829259d8f503743f0cfceca127354d652fe62b9657f9afd7defac07f809e1bdae42a4f1d43282b2498a8703fe3a5b
    signature := natToBytes 57
      0x806e702bb58e696a0798607256feec92b206f317b7cff2c22c2c6355bc47ae052614919a574b6c974b76ce336d70710d459568310819dec241 ++ natToBytes 57
      0xf01bf37965ae23148fffb657a3ebec112a760f35b5452f5777df056add44ad281c4b779b3584ed85b0bffaabfdd53f88fb9bf6b7e25816f }

/-- The machine right after reset: BOOT.STATE 0, no context, launch or warp; Tables 16.2 and 23.2 give the registers.
Values the spec does not give are those of assumption log 5. -/
def State.reset : State :=
  { t9c := false, rev := 0x10, keyHash := resetKeyHash, minVersion := 0, firmware := resetFirmware
    bootFail := 0, bootWarm := false, bootState := 0, trainingValid := false
    retentionValid := false, retained := [], keeping := [], mailbox := List.replicate 256 0, nonceDue := false, nonce := []
    report := []
    belt := false, point := 0, temp := 0, modeDue := none, hotTicks := 0, coolTicks := 0, clocksStopped := false
    ctxa0 := 0, ctxa1 := 0, ctxst := 0, queues := List.replicate 16 {}
    dies := [Die.reset, Die.reset], dram := [], hostMem := [], ctxs := [], launches := [], calls := [], blocks := []
    warps := [], ops := [], owned := [], words := [], outbound := [], realTime := 0, agenda := [], cur := none, secondary := none
    portsDone := [], resumed := [], nextId := 1, fresh := 0, arrivals := 0, hostWaiting := [], sensorWaiting := [] }

end Sys2Proof.Machine
end

