-- ==== Sys2Proof/Machine/Access.lean ====
section
/-! DEFINITION. Reading and updating the parts of the state by name. Every later definition goes through these. -/

namespace Sys2Proof.Machine

/-- A die by number. -/
def State.die (s : State) (d : Nat) : Die := s.dies.getD d {}
/-- Change a die. -/
def State.modDie (s : State) (d : Nat) (f : Die → Die) : State := { s with dies := s.dies.modify d f }
/-- A core of a die. -/
def State.core (s : State) (d c : Nat) : Core := (s.die d).cores.getD c {}
/-- Change a core. -/
def State.modCore (s : State) (d c : Nat) (f : Core → Core) : State :=
  s.modDie d (fun x => { x with cores := x.cores.modify c f })
/-- The rendering units of a die. -/
def State.modRender (s : State) (d : Nat) (f : Render → Render) : State :=
  s.modDie d (fun x => { x with render := f x.render })

/-- A warp by its number. -/
def State.warp? (s : State) (wid : Nat) : Option Warp := s.warps.find? (fun w => w.wid == wid)
/-- Change a warp. -/
def State.modWarp (s : State) (wid : Nat) (f : Warp → Warp) : State :=
  { s with warps := s.warps.map (fun w => if w.wid == wid then f w else w) }
/-- A block by its number. -/
def State.block? (s : State) (bid : Nat) : Option Block := s.blocks.find? (fun b => b.bid == bid)
/-- Change a block. -/
def State.modBlock (s : State) (bid : Nat) (f : Block → Block) : State :=
  { s with blocks := s.blocks.map (fun b => if b.bid == bid then f b else b) }
/-- A context by the identifier it was created with (R31). -/
def State.ctx? (s : State) (id : Nat) : Option Context := s.ctxs.find? (fun c => c.id == id)
/-- Change a context. -/
def State.modCtx (s : State) (id : Nat) (f : Context → Context) : State :=
  { s with ctxs := s.ctxs.map (fun c => if c.id == id then f c else c) }
/-- A launch by its number. -/
def State.launch? (s : State) (lid : Nat) : Option Launch := s.launches.find? (fun l => l.lid == lid)
/-- Change a launch. -/
def State.modLaunch (s : State) (lid : Nat) (f : Launch → Launch) : State :=
  { s with launches := s.launches.map (fun l => if l.lid == lid then f l else l) }
/-- An engine operation by its number. -/
def State.op? (s : State) (oid : Nat) : Option EngineOp := s.ops.find? (fun o => o.oid == oid)
/-- Change an engine operation. -/
def State.modOp (s : State) (oid : Nat) (f : EngineOp → EngineOp) : State :=
  { s with ops := s.ops.map (fun o => if o.oid == oid then f o else o) }
/-- A launch queue. -/
def State.queue (s : State) (q : Nat) : Queue := s.queues.getD q {}
/-- Change a launch queue. -/
def State.modQueue (s : State) (q : Nat) (f : Queue → Queue) : State := { s with queues := s.queues.modify q f }

/-- A lane of a warp; a lane the warp does not have counts as ended. -/
def Warp.lane (w : Warp) (l : Nat) : Lane := w.lanes.getD l { st := .ended }
/-- Change a lane. -/
def Warp.modLane (w : Warp) (l : Nat) (f : Lane → Lane) : Warp := { w with lanes := w.lanes.modify l f }
/-- Change several lanes. -/
def Warp.modLanes (w : Warp) (ls : List Nat) (f : Lane → Lane) : Warp := ls.foldl (fun w l => w.modLane l f) w
/-- Change a lane of a warp. -/
def State.modLane (s : State) (wid l : Nat) (f : Lane → Lane) : State := s.modWarp wid (fun w => w.modLane l f)
/-- Change several lanes of a warp. -/
def State.modLanes (s : State) (wid : Nat) (ls : List Nat) (f : Lane → Lane) : State :=
  s.modWarp wid (fun w => w.modLanes ls f)

/-- A register of a lane (R15). -/
def Lane.reg (x : Lane) (n : Nat) : Word := x.regs.get n
/-- Write a register of a lane. -/
def Lane.setReg (x : Lane) (n : Nat) (v : Word) : Lane := { x with regs := x.regs.set n v }

/-- Change a record of a warp by its sequence number. -/
def State.modRecord (s : State) (wid seq : Nat) (f : Record → Record) : State :=
  s.modWarp wid (fun w => { w with records := w.records.map (fun r => if r.seq == seq then f r else r) })
/-- A record of a warp. -/
def Warp.record? (w : Warp) (seq : Nat) : Option Record := w.records.find? (fun r => r.seq == seq)

/-- The part of a context that a die has its own copy of (Table 1.3). -/
def Context.die (c : Context) (d : Nat) : CtxDie := c.dies.getD d {}
/-- Change it. -/
def Context.modDie (c : Context) (d : Nat) (f : CtxDie → CtxDie) : Context := { c with dies := c.dies.modify d f }

/-- A fresh number for a warp, block, launch, call or operation of the model. -/
def State.newId (s : State) : Nat × State := (s.nextId, { s with nextId := s.nextId + 1 })

/-- Byte range of a context's window in the die scratchpad: first byte and length (R210). -/
def Context.window (c : Context) (d : Nat) : Nat × Nat :=
  ((((c.die d).spb.toNat / 2 ^ 16) % 2 ^ 11) * 2 ^ 16, (((c.die d).spl.toNat / 2 ^ 16) % 2 ^ 12) * 2 ^ 16)

/-- Byte range of a context's spill area in the die scratchpad (R211). -/
def Context.spillArea (c : Context) (d : Nat) : Nat × Nat :=
  (((c.die d).csab.toNat / 2 ^ 12 % 2 ^ 15) * 2 ^ 12, ((c.die d).csal.toNat / 2 ^ 12 % 2 ^ 16) * 2 ^ 12)

/-- Bytes of the spill area that lie inside the window: the continuation store uses no others (R211). -/
def Context.spillUsable (c : Context) (d : Nat) : Nat :=
  let a := c.spillArea d
  let w := c.window d
  min (a.1 + a.2) (w.1 + w.2) - max a.1 w.1

/-- A context has a window on a die (R325). -/
def Context.residentOn (c : Context) (d : Nat) : Bool := (c.window d).2 != 0

/-- n bytes at window offset o lie in the window (R210) and, at user level, outside the spill area (R211). -/
def Context.windowOk (c : Context) (d o n : Nat) (sup : Bool) : Bool :=
  let w := c.window d
  let a := c.spillArea d
  let first := w.1 + o
  decide (o + n ≤ w.2) && decide (first + n ≤ Config.spadBytes) &&
    (sup || n == 0 || a.2 == 0 || decide (first + n ≤ a.1) || decide (a.1 + a.2 ≤ first))

/-- The first of the n window bytes from o on that fails R210 or R211. -/
def Context.firstBad (c : Context) (d o n : Nat) (sup : Bool) : Nat :=
  let w := c.window d
  let a := c.spillArea d
  let limit := min w.2 (Config.spadBytes - w.1)
  let inSpill := !sup && decide (a.1 < w.1 + o + n) && decide (w.1 + o < a.1 + a.2) && a.2 != 0
  if inSpill then
    (if w.1 + o ≥ a.1 then o else min (a.1 - w.1) (max o limit))
  else max o limit

/-- The window registers of a die's copy. -/
def CtxDie.window (c : CtxDie) : WindowRegs := ⟨c.spb, c.spl, c.csab, c.csal⟩
/-- A die's copy with other window registers. -/
def CtxDie.withWindow (c : CtxDie) (x : WindowRegs) : CtxDie :=
  { c with spb := x.spb, spl := x.spl, csab := x.csab, csal := x.csal }
/-- The registers of a context that translation uses. -/
def Context.table (c : Context) : TableRegs := ⟨c.ttb2, c.root, c.tlb⟩
/-- A context with other ones. -/
def Context.withTable (c : Context) (x : TableRegs) : Context := { c with ttb2 := x.ttb2, root := x.root, tlb := x.tlb }

/-- DQB and DQL of a core (R25). -/
def Context.dequeRegs (c : Context) (d core : Nat) : DequeRegs :=
  ⟨d, core, (c.die d).dqb.getD core 0, (c.die d).dql.getD core 0⟩
/-- A context with other ones. -/
def Context.withDeque (c : Context) (x : DequeRegs) : Context :=
  c.modDie x.die (fun d => { d with dqb := d.dqb.set x.core x.dqb, dql := d.dql.set x.core x.dql })

/-- A context under old values (R31). -/
def Context.under (c : Context) (o : OldRegs) : Context :=
  let c1 := o.deques.foldl Context.withDeque (o.windows.foldl (fun c x => c.modDie x.1 (·.withWindow x.2)) c)
  match o.table with
  | none => c1
  | some t => c1.withTable t

/-- What old values of a kind a context has now. -/
def Context.like (c : Context) (o : OldRegs) : OldRegs :=
  { windows := o.windows.map (fun x => (x.1, (c.die x.1).window)), deques := o.deques.map (fun x => c.dequeRegs x.die x.core)
    table := o.table.map (fun _ => c.table) }

/-- The state as an access or operation that was issued under old values sees it (R31, R430). -/
def State.seenUnder (s : State) (ctx : Nat) (o : OldRegs) : State :=
  if o == {} then s else s.modCtx ctx (·.under o)

/-- Go on with an access or operation under old values: the registers themselves keep (R31, R430). -/
def State.under (s : State) (ctx : Nat) (o : OldRegs) (f : State → State) : State :=
  if o == {} then f s
  else
    match s.ctx? ctx with
    | none => f s
    | some c => (f (s.seenUnder ctx o)).modCtx ctx (·.under (c.like o))

/-- Accesses and engine operations of a context that were issued go on under its old values (R31). -/
def State.keepOld (s : State) (ctx : Nat) (f : OldRegs → OldRegs) : State :=
  { s with
    ops := s.ops.map (fun o => if o.ctx == ctx then { o with old := f o.old } else o)
    warps := s.warps.map (fun w => if w.ctx == ctx then
      { w with records := w.records.map (fun r => if r.before then r else { r with old := f r.old })
               exitWait := w.exitWait.map (fun x => { x with old := f x.old }) } else w) }

/-- Keep the window registers of a die's copy, where none are kept yet. -/
def OldRegs.keepWindow (o : OldRegs) (d : Nat) (x : WindowRegs) : OldRegs :=
  if o.windows.any (fun y => y.1 == d) then o else { o with windows := (d, x) :: o.windows }
/-- Keep the deque registers of a core, where none are kept yet. -/
def OldRegs.keepDeque (o : OldRegs) (x : DequeRegs) : OldRegs :=
  if o.deques.any (fun y => y.die == x.die && y.core == x.core) then o else { o with deques := x :: o.deques }
/-- Keep the registers of translation, where none are kept yet. -/
def OldRegs.keepTable (o : OldRegs) (x : TableRegs) : OldRegs := { o with table := o.table.or (some x) }

/-- Sequence numbers modulo 2^32: a is before b (R226). -/
def seqLt (a b : Nat) : Bool := decide (2 ^ 31 ≤ (a + 2 ^ 32 - b) % 2 ^ 32)

/-- 128-byte lines that n bytes from byte a on touch. -/
def linesOf (a n : Nat) : List Nat :=
  if n == 0 then [] else (List.range ((a + n - 1) / 128 + 1 - a / 128)).map (a / 128 + ·)

/-- The first owner of a line (R236). -/
def State.ownerOf (s : State) (k : LineKey) : Option Owner :=
  match s.owned.find? (fun x => x.line == k) with
  | some x => x.owners.head?
  | none => none

/-- A line is owned. -/
def State.isOwned (s : State) (k : LineKey) : Bool := (s.ownerOf k).isSome

/-- An operation owns a line. -/
def State.owns (s : State) (o : Owner) (k : LineKey) : Bool := s.ownerOf k == some o

/-- Ask for ownership of lines: free lines are granted, others wait in the order of the requests (R236). -/
def State.acquire (s : State) (o : Owner) (ks : List LineKey) : State :=
  ks.foldl (fun s k =>
    if s.owned.any (fun x => x.line == k) then
      { s with owned := s.owned.map (fun x => if x.line == k then { x with owners := x.owners ++ [o] } else x) }
    else { s with owned := s.owned ++ [⟨k, [o]⟩] }) s

/-- Give up lines, owned or asked for; the next request is granted (R236). -/
def State.releaseLines (s : State) (o : Owner) (ks : List LineKey) : State :=
  let rest := s.owned.map (fun x =>
    if ks.contains x.line then { x with owners := x.owners.filter (· != o) } else x)
  { s with owned := rest.filter (fun x => !x.owners.isEmpty) }

/-- Lines an owner owns or waits for. -/
def State.linesOfOwner (s : State) (o : Owner) : List LineKey :=
  (s.owned.filter (fun x => x.owners.contains o)).map (·.line)

/-- Bits of a word as a list of positions. -/
def bitsSet (v n : Nat) : List Nat := (List.range n).filter (fun k => v / 2 ^ k % 2 == 1)

/-- The number with the bits of a list of positions set. -/
def maskOf (ls : List Nat) : Nat := ls.foldl (fun m l => m ||| 2 ^ l) 0

/-- Sort by a key, smaller first, keeping the order of equals. -/
def insertBy {α : Type} (lt : α → α → Bool) (x : α) : List α → List α
  | [] => [x]
  | y :: ys => if lt x y then x :: y :: ys else y :: insertBy lt x ys

/-- Insertion sort. -/
def sortBy {α : Type} (lt : α → α → Bool) : List α → List α
  | [] => []
  | x :: xs => insertBy (fun a b => lt a b || !lt b a) x (sortBy lt xs)

/-- Lexicographic comparison of lists of numbers. -/
def lexLt : List Nat → List Nat → Bool
  | [], [] => false
  | [], _ :: _ => true
  | _ :: _, [] => false
  | x :: xs, y :: ys => decide (x < y) || (x == y && lexLt xs ys)

/-- Order by keys, then by sequence number (R226). -/
def recordLt (k1 k2 : List Nat) (a b : Nat) : Bool := lexLt k1 k2 || (k1 == k2 && seqLt a b)

/-- Bits n-1:0 of v read as a signed number. -/
def toSigned (v n : Nat) : Int := if v % 2 ^ n < 2 ^ (n - 1) then (v % 2 ^ n : Nat) else (v % 2 ^ n : Nat) - (2 ^ n : Nat)

/-- Whether a warp runs at supervisor level: handler warps (R426). -/
def Warp.supervisor (w : Warp) : Bool := w.kind == .handler

/-- A warp's context is halted by an escalation (R448). -/
def State.halted (s : State) (w : Warp) : Bool := ((s.ctx? w.ctx).map (fun c => c.escalated.isSome)).getD true

/-- Lanes of a warp that have not ended. -/
def Warp.liveLanes (w : Warp) : List Nat := (List.range 32).filter (fun l => (w.lane l).st != .ended)

/-- Every lane has ended. -/
def Warp.allEnded (w : Warp) : Bool := w.lanes.all (fun x => x.st == .ended)

/-- Warps on a core. -/
def State.warpsOn (s : State) (d c : Nat) : List Warp :=
  s.warps.filter (fun w => w.resident && w.die == d && w.core == c)

/-- The owner of a die's rendering units (R348). -/
def Render.ownedBy (r : Render) (ctx : Nat) : Bool := r.ownerV && r.ownerCtx == ctx

end Sys2Proof.Machine
end

