-- ==== Sys2Proof/Machine/Operands.lean ====
section
/-! DEFINITION. The value of every operand form: registers, special operands (Table 1.2), inline constants in the type
of the instruction (R18), X immediates (R68), multi-word sources (R94), predicates (R21), and writes to destinations
(R20). -/

namespace Sys2Proof

/-- Step the register fields of a repeated instruction to repeat i (R70). -/
def stepOperand (x : Operand) (k : Nat) : Operand :=
  match x with
  | .reg n => .reg (n + k)
  | y => y

/-- An instruction with other fields. -/
def Instr.withOperands (i : Instr) (o : Operands) : Instr := (mkInstr i.opcode o).getD i

/-- Repeat k of an instruction (R70): the register fields it uses are stepped. -/
def Instr.atRepeat (i : Instr) (k : Nat) : Instr :=
  let o := i.operands
  let g := i.sig
  match o.rep with
  | none => i
  | some r =>
    i.withOperands { o with d := if g.d == .zero then o.d else stepOperand o.d (k * r.sd)
                            a := if g.a == .zero then o.a else stepOperand o.a (k * r.sa)
                            b := if g.b == .zero then o.b else stepOperand o.b (k * r.sb) }

/-- Number of repeats of an instruction (R70). -/
def Instr.repeats (i : Instr) : Nat := (i.operands.rep.map (·.count)).getD 1

end Sys2Proof

namespace Sys2Proof.Machine

/-- The type an instruction reads an operand in: integers, f32, and packed f16 or bf16 (R18, R19). -/
inductive OpTy
  | int | f32 | f16 | bf16
  deriving DecidableEq, Repr

/-- A small integer encoded exactly in a format of eb exponent and mb fraction bits (R18). -/
def smallFloat (eb mb : Nat) (v : Int) : Nat :=
  let n := v.natAbs
  if n == 0 then 0
  else
    let e := Nat.log2 n
    (if v < 0 then 2 ^ (eb + mb) else 0) + (2 ^ (eb - 1) - 1 + e) * 2 ^ mb + (n - 2 ^ e) * 2 ^ (mb - e)

/-- The same half twice (R18, R19). -/
def bothHalves (h : Nat) : Word := BitVec.ofNat 32 (h * 2 ^ 16 + h)

/-- An inline constant in a type (R18). -/
def inlineWord (ty : OpTy) (v : Int) : Word :=
  match ty with
  | .int => BitVec.ofInt 32 v
  | .f32 => BitVec.ofNat 32 (smallFloat 8 23 v)
  | .f16 => bothHalves (smallFloat 5 10 v)
  | .bf16 => bothHalves (smallFloat 8 7 v)

/-- A typed constant: its f32, f16 and bf16 encodings (R19). -/
def typedConst (ty : OpTy) (f32 f16 bf16 : Nat) : Word :=
  match ty with
  | .int => BitVec.ofNat 32 f32
  | .f32 => BitVec.ofNat 32 f32
  | .f16 => bothHalves f16
  | .bf16 => bothHalves bf16

/-- Tile size of PART (Table 1.4). -/
def Warp.tileSize (w : Warp) : Nat := 2 ^ w.part.toNat

/-- The cycle count of a context (R29). -/
def State.ctxClk (s : State) (ctx : Nat) : Nat := ((s.ctx? ctx).map (·.clk)).getD 0

/-- Table 1.2: the value of a special operand for a lane of an issuing set. -/
def specialWord (s : State) (w : Warp) (lanes : List Nat) (l : Nat) (ty : OpTy) : Special → Word
  | .lane => BitVec.ofNat 32 l
  | .warp => BitVec.ofNat 32 w.index
  | .block => BitVec.ofNat 32 w.blockIdx
  | .stage => BitVec.ofNat 32 w.stage
  | .tile => BitVec.ofNat 32 (l / w.tileSize)
  | .tlane => BitVec.ofNat 32 (l % w.tileSize)
  | .zero => 0
  | .ones => 0xFFFFFFFF
  | .true_ => 1
  | .clk => BitVec.ofNat 32 (s.ctxClk w.ctx)
  | .fpone => typedConst ty 0x3F800000 0x3C00 0x3F80
  | .fphalf => typedConst ty 0x3F000000 0x3800 0x3F00
  | .fptwo => typedConst ty 0x40000000 0x4000 0x4000
  | .fpneg => typedConst ty 0xBF800000 0xBC00 0xBF80
  | .fpinf => typedConst ty 0x7F800000 0x7C00 0x7F80
  | .fpnan => typedConst ty 0x7FC00000 0x7E00 0x7FC0
  | .fpmax => typedConst ty 0x7F7FFFFF 0x7BFF 0x7F7F
  | .tsize => BitVec.ofNat 32 w.tileSize
  | .nwarp => BitVec.ofNat 32 w.nwarp
  | .lastblk => BitVec.ofNat 32 w.lastBlk
  | .core => BitVec.ofNat 32 w.core
  | .die => BitVec.ofNat 32 w.die
  | .lmask => BitVec.ofNat 32 (2 ^ l)
  | .ltmask => BitVec.ofNat 32 (2 ^ l - 1)
  | .active => BitVec.ofNat 32 (maskOf lanes)
  | .depth => BitVec.ofNat 32 w.depth
  | .tcb => w.tcb
  | .nstage => BitVec.ofNat 32 w.nstage
  | .argc => BitVec.ofNat 32 w.argc

/-- The word an operand reads as in a lane (R17 to R19, R68). -/
def operandWord (s : State) (w : Warp) (lanes : List Nat) (l : Nat) (ty : OpTy) : Operand → Word
  | .reg n => (w.lane l).reg n
  | .spc x => specialWord s w lanes l ty x
  | .inl v => inlineWord ty v
  | .resv _ => 0
  | .imm x => x

/-- A source of n words: registers from its base on, or another operand's word extended (R94). -/
def operandWords (s : State) (w : Warp) (lanes : List Nat) (l n : Nat) (signed : Bool) (x : Operand) : List Word :=
  match x with
  | .reg b => (regRange b n).map (fun k => (w.lane l).reg k)
  | _ =>
    let v := operandWord s w lanes l .int x
    v :: List.replicate (n - 1) (if signed && v.msb then 0xFFFFFFFF else 0)

/-- The predicate of a lane (R21). -/
def predTrue (s : State) (w : Warp) (lanes : List Nat) (l : Nat) (p : Pred) : Bool :=
  (operandWord s w lanes l .int p.src).getLsbD p.bit != p.sense

/-- Write words to consecutive registers of a lane; other destinations discard them (R20). -/
def Lane.writeFrom (x : Lane) (b : Nat) : List Word → Lane
  | [] => x
  | v :: vs => Lane.writeFrom (x.setReg b v) (b + 1) vs

/-- Write words to a destination (R20). -/
def Lane.writeDst (x : Lane) (d : Operand) (vs : List Word) : Lane :=
  match d with
  | .reg b => x.writeFrom b vs
  | _ => x

/-- Register writes of words to a destination of a lane (R20). -/
def dstWrites (l : Nat) (d : Operand) (vs : List Word) : List RegWrite :=
  match d with
  | .reg b => (List.range vs.length).map (fun k => ⟨l, b + k, vs.getD k 0⟩)
  | _ => []

end Sys2Proof.Machine
end

