-- ==== Sys2Proof/Machine/Translate.lean ====
section
/-! DEFINITION. Translation of 72-bit virtual addresses (spec/21_faults_and_preemption.md R428 to R430) and accesses of
main memory through it: device DRAM, host memory, peers (R235, R298). -/

namespace Sys2Proof.Machine

/-- Access kinds (R428): reads need R, writes W, fills X. -/
inductive Access
  | read | write | fill
  deriving DecidableEq, Repr

/-- The outcome of a translation: a target (0 device DRAM, 1 host memory, 2 peer) with its address, or a trap. -/
inductive Xlat
  | ok (tgt pa : Nat)
  | trap (code : Nat)
  deriving DecidableEq, Repr

/-- Index bits of a level (Table 21.2): lowest bit and number of bits. -/
def levelBits : Nat → Nat × Nat
  | 0 => (61, 11)
  | 1 => (48, 13)
  | 2 => (35, 13)
  | 3 => (29, 6)
  | _ => (16, 13)

/-- An entry as it is read from device DRAM (R429). -/
def State.tableEntry (s : State) (table va level : Nat) : Nat :=
  let b := levelBits level
  Memory.readNat s.dram (table + 8 * (va / 2 ^ b.1 % 2 ^ b.2)) 8

/-- Reserved bits 63:52 and 11:8 of an entry are 0 (Table 21.3). -/
def entryReservedOk (e : Nat) : Bool := e / 2 ^ 52 == 0 && e / 2 ^ 8 % 16 == 0

/-- Physical address bits of an entry (Table 21.3). -/
def entryPa (e : Nat) : Nat := e % 2 ^ 52 / 2 ^ 12 * 2 ^ 12

/-- A page entry is well formed (R429); big maps 512 MiB. -/
def pageOk (e : Nat) (big : Bool) : Bool :=
  entryReservedOk e && e / 2 ^ 5 % 2 == 0 && e / 2 ^ 6 % 4 != 3 &&
    entryPa e % (if big then 2 ^ 29 else 2 ^ 16) == 0 && (e / 2 ^ 6 % 4 != 0 || decide (entryPa e < Config.dramEnd))

/-- The walk from a level on (R428, R429): the page entry and whether it maps 512 MiB; none is not present. -/
def State.walkFrom (s : State) (va : Nat) : List Nat → Nat → Option (Nat × Bool)
  | [], _ => none
  | level :: rest, table =>
    if Config.dramEnd ≤ table then none
    else
      let e := s.tableEntry table va level
      if e % 2 == 0 then none
      else if level == 4 then (if pageOk e false then some (e, false) else none)
      else if level == 3 && e / 2 % 2 == 1 then (if pageOk e true then some (e, true) else none)
      else if e / 2 % 2 == 1 || !entryReservedOk e then none
      else s.walkFrom va rest (entryPa e)

/-- The page entry of an address: a held one (R429), else a walk from the committed root while TTB2.V is 1 (R428). -/
def State.pageEntry (s : State) (c : Context) (va : Nat) : Option (Nat × Bool) :=
  if c.ttb2.getLsbD 0 then
    match c.tlb.find? (fun t => t.page == va / 2 ^ 16) with
    | some t => some (t.entry.toNat, t.big)
    | none => s.walkFrom va [0, 1, 2, 3, 4] c.root
  else none

/-- The permission bit an access needs (Table 21.3). -/
def Access.allowed (k : Access) (e : Nat) : Bool :=
  match k with
  | .read => e / 4 % 2 == 1
  | .write => e / 8 % 2 == 1
  | .fill => e / 16 % 2 == 1

/-- Translate an address (R429). -/
def State.translate (s : State) (c : Context) (va : Nat) (k : Access) : Xlat :=
  match s.pageEntry c va with
  | none => .trap 0x18
  | some (e, big) =>
    if k.allowed e then .ok (e / 2 ^ 6 % 4) (entryPa e + va % (if big then 2 ^ 29 else 2 ^ 16)) else .trap 0x19

/-- Hold the entry of an address for later translations (R429): only a present entry is held. -/
def State.holdEntry (s : State) (ctx va : Nat) : State :=
  match s.ctx? ctx with
  | none => s
  | some c =>
    match s.pageEntry c va with
    | none => s
    | some (e, big) =>
      if c.tlb.any (fun t => t.page == va / 2 ^ 16) then s
      else s.modCtx ctx (fun c => { c with tlb := ⟨va / 2 ^ 16, big, BitVec.ofNat 64 e⟩ :: c.tlb })

/-- A main-memory byte as read, or the trap of the access; k numbers a peer access (R298). -/
inductive MainByte
  | ok (b : Byte)
  | trap (code : Nat)
  deriving DecidableEq, Repr

/-- Read a byte of main memory. -/
def State.readMain (s : State) (c : Context) (va k : Nat) (a : Access) : MainByte :=
  match s.translate c (va % 2 ^ 72) a with
  | .trap t => .trap t
  | .ok tgt pa =>
    if tgt == 0 then .ok (s.dram.get pa)
    else if tgt == 1 then .ok (s.hostMem.get pa)
    else if Config.peerFails k then .trap 0x19
    else .ok (Config.peerByte k)

/-- Bytes of main memory, or the first trap with its address. -/
inductive MainBytes
  | ok (bs : List Byte)
  | trap (code va : Nat)
  deriving DecidableEq, Repr

/-- Read n bytes of main memory from an address on; k numbers the first one. -/
def State.readMainBytes (s : State) (c : Context) (va k : Nat) (a : Access) : Nat → MainBytes
  | 0 => .ok []
  | n + 1 =>
    match s.readMain c va k a with
    | .trap t => .trap t (va % 2 ^ 72)
    | .ok b =>
      match s.readMainBytes c (va + 1) (k + 1) a n with
      | .ok bs => .ok (b :: bs)
      | .trap t x => .trap t x

/-- The lines of 128 bytes, by target, of device DRAM and host memory at addresses of a context. -/
def State.physLines (s : State) (c : Context) (k : Access) (vas : List Nat) : List (Nat × Nat) :=
  (vas.filterMap (fun va => match s.translate c (va % 2 ^ 72) k with
    | .ok tgt pa => if tgt < 2 then some (tgt, pa / 128) else none
    | .trap _ => none)).eraseDups

/-- The bytes of such a line. -/
def State.lineBytes (s : State) (l : Nat × Nat) : List Byte :=
  (if l.1 == 0 then s.dram else s.hostMem).readBytes (128 * l.2) 128

/-- A core's texture and node cache takes in lines for a context, as they stand (R240). -/
def State.takeLines (s : State) (die core ctx : Nat) (ls : List (Nat × Nat)) : State :=
  let take (x : Core) (l : Nat × Nat) : Core :=
    let t : TexLine := { ctx := ctx, tgt := l.1, line := l.2, bytes := s.lineBytes l }
    if x.texLines.contains t then x else { x with texLines := t :: x.texLines }
  s.modCore die core (fun x => ls.foldl take x)

/-- Cores with a traversal step or texture sample in flight, with its context. -/
def State.texReaders (s : State) : List (Nat × Nat × Nat) :=
  ((s.warps.filter (fun w => w.resident && w.records.any (fun r => r.wait == .traversal || r.wait == .texture))).map (fun w =>
    (w.die, w.core, w.ctx))).eraseDups

/-- Lines about to be written may have been read already by the steps and samples in flight (R385). -/
def State.beforeTexWrite (s : State) (ls : List (Nat × Nat)) : State :=
  s.texReaders.foldl (fun s x => s.takeLines x.1 x.2.1 x.2.2 ls) s

/-- The texture and node caches of a die drop lines (R240). -/
def State.dropTexLines (s : State) (die : Nat) (f : TexLine → Bool) : State :=
  s.modDie die (fun x => { x with cores := x.cores.map (fun c => { c with texLines := c.texLines.filter (fun t => !f t) }) })

/-- Whether a byte of main memory can be written: 0, or the trap. -/
def State.writeTrap (s : State) (c : Context) (va : Nat) : Nat :=
  match s.translate c (va % 2 ^ 72) .write with
  | .trap t => t
  | .ok _ _ => 0

/-- Write a byte of main memory; a write that cannot be made changes nothing. Writes to host or peer memory are posted
(R235). -/
def State.writeMain (s : State) (c : Context) (va : Nat) (b : Byte) : State :=
  match s.translate c (va % 2 ^ 72) .write with
  | .trap _ => s
  | .ok tgt pa =>
    if tgt == 0 then { s with dram := s.dram.set pa b }
    else if tgt == 1 then { s with hostMem := s.hostMem.set pa b, outbound := s.outbound ++ [.write pa [b]] }
    else { s with outbound := s.outbound ++ [.peerWrite pa [b]] }

/-- Write bytes of main memory from an address on. -/
def State.writeMainBytes (s : State) (c : Context) (va : Nat) : List Byte → State
  | [] => s
  | b :: bs => (s.writeMain c va b).writeMainBytes c (va + 1) bs

/-- The first address of n bytes that cannot be written, with its trap. -/
def State.firstWriteTrap (s : State) (c : Context) (va : Nat) : Nat → Option (Nat × Nat)
  | 0 => none
  | n + 1 => if s.writeTrap c va == 0 then s.firstWriteTrap c (va + 1) n else some (s.writeTrap c va, va % 2 ^ 72)

end Sys2Proof.Machine
end

