-- ==== Sys2Proof/Machine/Ops.lean ====
section
/-! DEFINITION. The shared operations of every instruction: on-die memory events (R228 to R230), digests (R250), records
and suspension (R216 to R227), taking a trap and parking (R223, R425), returning from one (R427), the halt of an
escalation (R443), and the envelope in which an instruction issues (R22, R70). -/

namespace Sys2Proof.Machine

/-- What an issuing instruction sees: itself, the issuing set, its warp as it stood at issue, and the lanes whose
predicate is true, ascending. -/
structure Env where
  i : Instr
  o : Operands
  c : Cur
  w : Warp
  p : List Nat
  deriving DecidableEq, Repr

/-- Read n bytes of an on-die memory. -/
def State.spaceBytes (s : State) (sp : Space) (a n : Nat) : List Byte :=
  match sp with
  | .shared b => ((s.block? b).map (fun x => x.shared.readBytes a n)).getD (List.replicate n 0)
  | .spad d => (s.die d).spad.readBytes a n
  | .weight b => ((s.block? b).map (fun x => x.wb.readBytes a n)).getD (List.replicate n 0)

/-- Read a word of an on-die memory. -/
def State.spaceWord (s : State) (sp : Space) (a : Nat) : Word := BitVec.ofNat 32 (bytesToNat (s.spaceBytes sp a 4))

/-- Write bytes of an on-die memory, and nothing else. -/
def State.spacePut (s : State) (sp : Space) (a : Nat) (bs : List Byte) : State :=
  match sp with
  | .shared b => s.modBlock b (fun x => { x with shared := x.shared.writeBytes a bs })
  | .spad d => s.modDie d (fun x => { x with spad := x.spad.writeBytes a bs })
  | .weight b => s.modBlock b (fun x => { x with wb := x.wb.writeBytes a bs })

/-- Table 11.4: a word against a value. -/
def condHolds (cond : Nat) (w v : Word) : Bool :=
  match cond with
  | 0 => w == v
  | 1 => w != v
  | 2 => decide (v.toNat ≤ w.toNat)
  | 3 => decide (w.toNat < v.toNat)
  | 4 => !(w - v).msb
  | _ => w &&& v != 0

/-- The on-die memory a record of a warp waits on. -/
def Warp.space (w : Warp) (shared : Bool) : Space :=
  if shared then .shared (w.block.getD 0) else .spad w.die

/-- A waiting word record after a write event (R271): the first write that satisfies it latches the value it left and
the writer, if it is not performed at once. -/
def latchRecord (old new : State) (sp : Space) (a n : Nat) (by_ : Option (Nat × Nat)) (w : Warp) (r : Record) : Record :=
  match r.wait with
  | .word sh x cond v none =>
    if w.space sh == sp && decide (x < a + n) && decide (a < x + 4) && condHolds cond (new.spaceWord sp x) v then
      { r with wait := .word sh x cond v (some
          { wid := (by_.map (·.1)).getD 0, iss := (by_.map (·.2)).getD 0, val := new.spaceWord sp x, before := old.spaceWord sp x }) }
    else r
  | _ => r

/-- Bytes of an on-die memory that a save image holds: stores to them are discarded and they read 0 (R437). -/
def State.inImage (s : State) (sp : Space) (a n : Nat) : Bool :=
  match sp with
  | .spad d => s.blocks.any (fun b =>
      b.residency == .saved && b.imageLen != 0 && b.die == d && decide (a < b.imageBase + b.imageLen) && decide (b.imageBase < a + n))
  | _ => false

/-- The lines of n bytes of an on-die memory (R236). -/
def spaceLines (sp : Space) (a n : Nat) : List LineKey :=
  (linesOf a n).map (fun k => match sp with
    | .shared b => .shared b k
    | .spad d => .spad d k
    | .weight b => .weight b k)

/-- Aligned units of u bytes that n bytes from byte a on touch. -/
def unitsOf (u a n : Nat) : List Nat :=
  if n == 0 then [] else (List.range ((a + n - 1) / u + 1 - a / u)).map (a / u + ·)

/-- Source bytes of an operation, among n from byte a on, that it has not read. -/
def EngineOp.unread (o : EngineOp) (sp : Option Space) (a n : Nat) : List Nat :=
  ((List.range n).map (a + ·)).filter (fun x =>
    o.sources.any (fun y => y.space == sp && decide (y.first ≤ x) && decide (x < y.first + y.len)) &&
      !o.early.any (fun y => y.space == sp && y.addr == x))

/-- An operation may read an aligned unit before an event that follows its issue (R239): its line is not another's. -/
def State.mayReadAhead (s : State) (o : EngineOp) (sp : Space) (k : Nat) : Bool :=
  !o.complete && (spaceLines sp (16 * k) 16).all (fun x => !s.isOwned x || s.owns (.op o.oid) x)

/-- What an operation reads of given units before an event that follows its issue, each by the free choice f (R239). -/
def State.readAhead (s : State) (o : EngineOp) (sp : Space) (units : List Nat) (f : Nat → Bool) : List ReadByte :=
  (units.filter (fun k => s.mayReadAhead o sp k && f k)).flatMap (fun k =>
    (o.unread (some sp) (16 * k) 16).map (fun x => ⟨some sp, x, (s.spaceBytes sp x 1).headD 0⟩))

/-- Operations in flight have sources among bytes of an on-die memory. -/
def State.races (s : State) (sp : Space) (a n : Nat) : Bool :=
  s.ops.any (fun o => !(o.unread (some sp) a n).isEmpty)

/-- Every operation in flight reads the 16-byte units that a write event is about to change before it or after it, each by
a free choice (R239). -/
def State.beforeWrite (s : State) (sp : Space) (a n : Nat) : State :=
  if s.races sp a n then
    { s with
      fresh := s.fresh + 1
      ops := s.ops.map (fun o =>
        { o with early := o.early ++ s.readAhead o sp (unitsOf 16 a n) (Config.comesFirst s.fresh o.oid) }) }
  else s

/-- An event that changes bytes of an on-die memory, and that R271 does not count among those that wait.addr sees: the events
of named queues and deques (Table 10.1 lists them apart from stores and atomics). -/
def State.spaceSet (s : State) (sp : Space) (a : Nat) (bs : List Byte) : State :=
  if s.inImage sp a bs.length then s else (s.beforeWrite sp a bs.length).spacePut sp a bs

/-- A write event of an on-die memory (R228, R271). by_ is the storing warp and its ISS, none for a write performed at
once. -/
def State.spaceWrite (s : State) (sp : Space) (a : Nat) (bs : List Byte) (by_ : Option (Nat × Nat)) : State :=
  if s.inImage sp a bs.length then s
  else
    let s1 := s.beforeWrite sp a bs.length
    let s2 := s1.spacePut sp a bs
    let latch (w : Warp) : Warp := { w with records := w.records.map (latchRecord s1 s2 sp a bs.length by_ w) }
    { s2 with warps := s2.warps.map latch }

/-- Write a number of n bytes as one event. -/
def State.spaceWriteNat (s : State) (sp : Space) (a n v : Nat) (by_ : Option (Nat × Nat)) : State :=
  s.spaceWrite sp a (natToBytes n v) by_

/-- The space and line number of a line of on-die memory. -/
def keyPlace : LineKey → Space × Nat
  | .shared b k => (.shared b, k)
  | .spad d k => (.spad d, k)
  | .weight b k => (.weight b, k)

/-- Operations in flight read the units of a free line before its acquisition by another, or wait for that one's release,
each by a free choice (R238, R239); a matrix operation that has started has read them (R299). -/
def State.beforeAcquire (s : State) (by_ : Owner) (key : LineKey) : State :=
  let sp := (keyPlace key).1
  let a := 128 * (keyPlace key).2
  let sure (o : EngineOp) : Bool := match o.kind with
    | .matrix m => m.started
    | _ => false
  if s.races sp a 128 then
    { s with
      fresh := s.fresh + 1
      ops := s.ops.map (fun o =>
        if by_ == .op o.oid then o
        else { o with early := o.early ++
                 s.readAhead o sp (unitsOf 16 a 128) (fun k => sure o || Config.comesFirst s.fresh o.oid k) }) }
  else s

/-- Ask for ownership of lines (R236). -/
def State.own (s : State) (by_ : Owner) (ks : List LineKey) : State :=
  (ks.foldl (fun s k => s.beforeAcquire by_ k) s).acquire by_ ks

/-- Bytes of a source as an operation reads them now: what it read already, else what stands there (R239). -/
def State.sourceBytes (s : State) (o : EngineOp) (sp : Space) (a n : Nat) : List Byte :=
  if o.early.isEmpty then s.spaceBytes sp a n
  else (List.range n).map (fun k =>
    ((o.early.find? (fun y => y.space == some sp && y.addr == a + k)).map (·.val)).getD ((s.spaceBytes sp (a + k) 1).headD 0))

/-- Source bytes of an operation that it has still to read lie in lines that no other owns (R238). -/
def State.sourceReady (s : State) (o : EngineOp) (sp : Space) (a n : Nat) : Bool :=
  (linesOf a n).all (fun k =>
    let lo := max a (128 * k)
    let hi := min (a + n) (128 * k + 128)
    (o.unread (some sp) lo (hi - lo)).isEmpty ||
      (spaceLines sp lo 1).all (fun x => !s.isOwned x || s.owns (.op o.oid) x))

/-- A completion word: one store event, after the release of its line where another owns it (R238, R242). -/
def State.engineWord (s : State) (die addr val : Nat) : State :=
  if (spaceLines (.spad die) addr 4).any s.isOwned then { s with words := s.words ++ [⟨die, addr, val⟩] }
  else s.spaceWriteNat (.spad die) addr 4 val none

/-- Completion words whose lines are free are stored, in order. -/
def State.storeWords (s : State) : State :=
  s.words.foldl (fun s x => s.engineWord x.die x.addr x.val) { s with words := [] }

/-- One step of the digest (R250). -/
def digestStep (d x : Dword) : Dword :=
  let e := (d ^^^ x) * 0x8E5C3A61F0D72B49
  e ^^^ (e >>> 31)

/-- Fold hi:lo into a warp's digest, or behind the folds that wait (R251). -/
def Warp.fold (w : Warp) (hi lo : Nat) : Warp :=
  if w.folds.isEmpty then { w with dig := digestStep w.dig (BitVec.ofNat 64 (hi % 2 ^ 32 * 2 ^ 32 + lo % 2 ^ 32)) }
  else { w with folds := w.folds ++ [.value hi lo] }

/-- A record of a warp still waits to make accesses that may fold. -/
def Warp.willFold (w : Warp) (seq : Nat) : Bool :=
  w.records.any (fun r => r.seq == seq && r.state == .waiting && (match r.wait with
    | .lines _ | .det _ _ _ | .qPush _ => true
    | _ => false))

/-- Make the folds that wait for nothing any more. -/
def Warp.drain (w : Warp) : Warp :=
  w.folds.foldl (fun x f => match f with
    | .value hi lo => x.fold hi lo
    | .pending seq => if w.willFold seq then { x with folds := x.folds ++ [f] } else x) { w with folds := [] }

/-- Make an access of a suspended record with its folds at the place of its instruction in the warp's program order
(R251). -/
def State.foldInPlace (s : State) (wid seq : Nat) (f : State → Option State) : Option State :=
  match (s.warp? wid).map (fun w => w.folds.splitAt (w.folds.idxOf (.pending seq))) with
  | some (before, mark :: after) =>
    (f (s.modWarp wid (fun w => { w with folds := before }))).map (fun t =>
      t.modWarp wid (fun w => ({ w with folds := w.folds ++ mark :: after } : Warp).drain))
  | _ => f s

/-- Every warp makes the folds that wait for nothing any more. -/
def State.drainFolds (s : State) : State :=
  { s with warps := s.warps.map (fun w => if w.folds.isEmpty then w else w.drain) }

/-- A warp runs in a DET launch; sample warps never do (R358). -/
def State.isDet (s : State) (w : Warp) : Bool :=
  w.kind != .sample && w.kind != .handler && ((s.launch? w.launch).map (·.lrec.det)).getD false

/-- The words of a committed scratchpad store of bytes at offset o, in place, 0 where nothing is stored (R251). -/
def foldStore (w : Warp) (o : Nat) (bs : List Byte) : Warp :=
  ((List.range ((o + bs.length + 3) / 4 - o / 4)).map (o / 4 + ·)).foldl (fun w k =>
    w.fold (4 * k) (bytesToNat ((List.range 4).map (fun j =>
      if o ≤ 4 * k + j && 4 * k + j < o + bs.length then bs.getD (4 * k + j - o) 0 else 0)))) w

/-- Fold a scratchpad store of a warp in a DET launch (R251). -/
def State.foldStore (s : State) (wid o : Nat) (bs : List Byte) : State :=
  s.modWarp wid (fun w => if s.isDet w then Sys2Proof.Machine.foldStore w o bs else w)

/-- Fold one word pair of a warp in a DET launch. -/
def State.foldDet (s : State) (wid hi lo : Nat) : State :=
  s.modWarp wid (fun w => if s.isDet w then w.fold hi lo else w)

/-- A value from the model's counter of free values. -/
def State.takeFresh (s : State) (n : Nat) : Nat × State := (s.fresh, { s with fresh := s.fresh + n })

/-- Register writes of a warp. -/
def State.writeRegs (s : State) (wid : Nat) (ws : List RegWrite) : State :=
  s.modWarp wid (fun w => ws.foldl (fun w r => w.modLane r.lane (fun x => x.setReg r.reg r.val)) w)

/-- Write the words f gives each lane to a destination (R20). -/
def State.writeDst (s : State) (wid : Nat) (ls : List Nat) (d : Operand) (f : Nat → List Word) : State :=
  s.modWarp wid (fun w => ls.foldl (fun w l => w.modLane l (fun x => x.writeDst d (f l))) w)

/-- The word of an operand in a lane, at issue. -/
def Env.word (e : Env) (s : State) (ty : OpTy) (x : Operand) (l : Nat) : Word :=
  operandWord s e.w e.c.lanes l ty x

/-- The words of a source of n words in a lane, at issue (R94). -/
def Env.words (e : Env) (s : State) (n : Nat) (signed : Bool) (x : Operand) (l : Nat) : List Word :=
  operandWords s e.w e.c.lanes l n signed x

/-- The lowest lane whose predicate is true. -/
def Env.elected (e : Env) : Nat := e.p.headD 0

/-- Registers a register-mode matrix operation uses: base and number (R304). -/
def MatrixOp.regRange (m : MatrixOp) : Nat × Nat :=
  if fieldOf m.params 0 4 / 2 ^ 12 % 2 == 1 then (0, 0)
  else (fieldOf m.params 10 2, fieldOf m.params 4 2 * fieldOf m.params 6 2 / 32)

/-- Registers of a warp that matrix operations hold (R310). -/
def State.heldRegs (s : State) (wid : Nat) : List Nat :=
  s.ops.flatMap (fun o =>
    match o.kind with
    | .matrix m => if o.wid == wid && !o.complete then Sys2Proof.regRange m.regRange.1 m.regRange.2 else []
    | _ => [])

/-- Byte ranges of a context's spill area in use on a die: warp segments, records, save images. -/
def State.spillUsed (s : State) (ctx d : Nat) : List (Nat × Nat) :=
  (s.warps.filter (fun w => w.ctx == ctx && w.die == d)).flatMap (fun w =>
    (w.segment, 0x9000) :: w.records.filterMap (fun r => match r.place with
      | .spill b n => some (b, n)
      | _ => none)) ++
  (s.blocks.filter (fun b => b.ctx == ctx && b.die == d && b.imageLen != 0)).map (fun b => (b.imageBase, b.imageLen))

/-- n bytes from byte a on touch none of the ranges. -/
def rangeFree (used : List (Nat × Nat)) (a n : Nat) : Bool :=
  used.all (fun u => decide (a + n ≤ u.1) || decide (u.1 + u.2 ≤ a))

/-- The first byte of the lowest run of free granules of the context's spill area, inside its window, that holds n
bytes and touches none of further ranges (R211, R221). -/
def State.findSpillBeside (s : State) (ctx d n : Nat) (more : List (Nat × Nat)) : Option Nat :=
  match s.ctx? ctx with
  | none => none
  | some c =>
    let area := c.spillArea d
    let win := c.window d
    let used := more ++ s.spillUsed ctx d
    let len := (n + 4095) / 4096 * 4096
    ((List.range (area.2 / 4096)).map (fun k => area.1 + 4096 * k)).find? (fun a =>
      decide (a + len ≤ area.1 + area.2) && decide (win.1 ≤ a) && decide (a + len ≤ win.1 + win.2) && rangeFree used a len)

/-- The first byte of a run of free granules (R221). -/
def State.findSpill (s : State) (ctx d n : Nat) : Option Nat := s.findSpillBeside ctx d n []

/-- Bytes of the slow register file in use on a core (R221). -/
def State.slowUsed (s : State) (d c : Nat) : Nat :=
  ((s.warpsOn d c).flatMap (fun w => w.records.filterMap (fun r => match r.place with
    | .slow => some r.size
    | _ => none))).foldl (· + ·) 0

/-- A place for a record of n bytes in the spill area (R221). -/
def State.findSpillPlace (s : State) (w : Warp) (n : Nat) : Option Place :=
  (s.findSpill w.ctx w.die n).map (fun b => .spill b ((n + 4095) / 4096 * 4096))

/-- A place for a record of n bytes (R221); none where it fits neither place. -/
def State.findRoom (s : State) (w : Warp) (n : Nat) : Option Place :=
  if s.slowUsed w.die w.core + n ≤ Config.slowFileBytes then some .slow else s.findSpillPlace w n

/-- Registers of live set ls of a warp (R86, R218). -/
def Warp.liveSet (w : Warp) (ls : Nat) : List Nat :=
  if ls == 0 then List.range w.footprint
  else (List.range w.footprint).filter (fun n => (w.image.live.getD (ls - 1) 0) / 2 ^ n % 2 == 1)

/-- WHO of a record (Table 9.4). -/
def State.whoOf (s : State) (w : Warp) : Word :=
  BitVec.ofNat 32 (w.index + w.core * 2 ^ 5 + w.die * 2 ^ 10 + (((s.ctx? w.ctx).map (·.ctxId.toNat)).getD 0) * 2 ^ 16)

/-- STATE code of a record (Table 9.4). -/
def RecState.code : RecState → Nat
  | .waiting => 0
  | .ready => 1
  | .faulted => 2
  | .resolved => 3

/-- The 64 header bytes of a record (Table 9.4). -/
def Record.header (r : Record) : List Byte :=
  natToBytes 4 (r.pc / 8 * 8 + r.half % 2) ++ natToBytes 4 (maskOf r.lanes) ++ natToBytes 4 r.seq ++
  natToBytes 4 (r.state.code + (if r.inPlace then 8 else 0) + (if r.before then 16 else 0) + r.trap * 2 ^ 8 +
    r.ls * 2 ^ 16 + r.tmo * 2 ^ 22) ++
  natToBytes 2 r.opc ++ natToBytes 2 r.sdst ++ natToBytes 4 r.who.toNat ++ natToBytes 4 r.blk.toNat ++
  natToBytes 4 r.deadline.toNat ++ natToBytes 8 r.event ++ natToBytes 9 r.faddr ++ [0] ++
  natToBytes 2 (if r.inPlace then 0 else r.live.length) ++ natToBytes 4 r.size ++ natToBytes 8 0

/-- The body bytes of a record with given registers (Table 9.5). -/
def Record.body (r : Record) (regs : List Nat) : List Byte :=
  let lane (l : Nat) : Option LaneSave := r.saved.find? (fun x => x.lane == l)
  (List.range 32).flatMap (fun l => match lane l with
    | some x => natToBytes 4 x.gen.toNat ++ natToBytes 1 x.fpx.toNat ++ natToBytes 1 r.repc ++ natToBytes 2 0
    | none => natToBytes 8 0) ++
  regs.flatMap (fun n => (List.range 32).flatMap (fun l => match lane l with
    | some x => natToBytes 4 (x.regs.get n).toNat
    | none => natToBytes 4 0))

/-- Byte of the die scratchpad at which a fault-page slot lies (R205, R223). -/
def Warp.slotAddr (w : Warp) (k : Nat) : Nat := w.segment + 0x8000 + 64 * k

/-- Write a record's bytes where it lies in the scratchpad: the header alone in the fault page. -/
def State.putRecord (s : State) (w : Warp) (r : Record) : State :=
  match r.place with
  | .spill b _ => s.spacePut (.spad w.die) b (r.header ++ r.body r.live)
  | .slot k => s.spacePut (.spad w.die) (w.slotAddr k) r.header
  | _ => s

/-- Change a record and its header in memory. -/
def State.updateRecord (s : State) (wid seq : Nat) (f : Record → Record) : State :=
  let s' := s.modRecord wid seq f
  match s'.warp? wid with
  | none => s'
  | some w =>
    match w.record? seq with
    | none => s'
    | some r =>
      match r.place with
      | .spill b _ => s'.spacePut (.spad w.die) b r.header
      | .slot k => s'.spacePut (.spad w.die) (w.slotAddr k) r.header
      | _ => s'

/-- The lowest free slot of a warp's fault page (R223). -/
def Warp.freeSlot (w : Warp) : Nat :=
  ((List.range 64).find? (fun k => w.records.all (fun r => r.place != .slot k))).getD 0

/-- The word at a PC of a warp: the cached one, else the one that a fill would read (R75, R80); none where it reads none. -/
def State.codeWord (s : State) (w : Warp) (pc : Nat) : Option Nat :=
  match (s.core w.die w.core).icache.find? (fun x => x.ctx == w.ctx && x.base == w.image.base && x.pc == pc) with
  | some x => some x.word.toNat
  | none =>
    match s.ctx? w.ctx with
    | none => none
    | some c =>
      match s.readMainBytes c (w.image.base + pc) (2 ^ 202 + s.fresh) .fill 8 with
      | .ok bs => some (bytesToNat bs)
      | .trap _ _ => none

/-- Repeats of the instruction at a PC of a warp, 1 where no word is read. -/
def State.repeatsAt (s : State) (w : Warp) (pc : Nat) : Nat :=
  match s.codeWord w pc with
  | none => 1
  | some x => if prefixType x == some 0 then ((repeatFields x).map (·.count)).getD 1 else 1

/-- A lane's position (R167): PC, half, repeat index. -/
def State.position (s : State) (w : Warp) (x : Lane) : Nat × Nat × Nat :=
  (x.pc, x.half, if x.repc == 0 then 0 else s.repeatsAt w x.pc - x.repc)

/-- The lane sets among given lanes: positions with their lanes (R167). -/
def State.setsOf (s : State) (w : Warp) (ls : List Nat) : List ((Nat × Nat × Nat) × List Nat) :=
  ls.foldl (fun acc l =>
    let pos := s.position w (w.lane l)
    if acc.any (fun x => x.1 == pos) then acc.map (fun x => if x.1 == pos then (x.1, x.2 ++ [l]) else x)
    else acc ++ [(pos, [l])]) []

/-- The keys of R169 for a lane set: starved, larger, lower PC, half, repeat index. -/
def setKey (w : Warp) (x : (Nat × Nat × Nat) × List Nat) : List Nat :=
  [if x.2.any (fun l => (w.lane l).starved) then 0 else 1, 32 - x.2.length, x.1.1, x.1.2.1, x.1.2.2]

/-- Lane sets in the order of R169. -/
def State.orderedSets (s : State) (w : Warp) (ls : List Nat) : List ((Nat × Nat × Nat) × List Nat) :=
  sortBy (fun x y => lexLt (setKey w x) (setKey w y)) (s.setsOf w ls)

/-- Add a record to a warp under its next sequence number (R226). -/
def State.addRecord (s : State) (wid : Nat) (mk : Nat → Record) : State :=
  match s.warp? wid with
  | none => s
  | some w =>
    let r := mk w.seqNext
    let s := s.modWarp wid (fun w =>
      { w with records := w.records ++ [r], seqNext := (w.seqNext + 1) % 2 ^ 32 })
    s.putRecord w r

/-- What a record saves of its lanes (R218): captured registers, generator, FPX. -/
def Warp.saveLanes (w : Warp) (ls live : List Nat) : List LaneSave :=
  ls.map (fun l => { lane := l, gen := (w.lane l).gen, fpx := (w.lane l).fpx
                     regs := (w.lane l).regs.filter (fun c => live.contains c.1) })

/-- The status register of an instruction (R11, R224, Table 9.4): an operand and the place of the status in it. -/
def statusOperand (i : Instr) : Option (Operand × Nat) :=
  let o := i.operands
  match i.opcode with
  | 0x1E7 | 0x1E8 => some (o.smxE, 0)
  | 0x250 | 0x251 | 0x253 | 0x254 | 0x2C1 | 0x2C5 | 0x2C9 | 0x2CD | 0x2D1 | 0x2D4 | 0x2D8 | 0x301 | 0x343 | 0x34D => some (o.d, 0)
  | 0x2CA => some (o.d, o.mods 0 4 + 1)
  | 0x2D9 | 0x2DA | 0x380 => some (o.d, 1)
  | 0x303 => some (o.d, 2)
  | _ => none

/-- SDST of an instruction (Table 9.4). -/
def sdstOf (i : Instr) : Nat :=
  match statusOperand i with
  | some (.reg n, k) => n + k
  | some (.spc .zero, _) => 646
  | _ => 0x3FF

/-- Turn one runnable or held lane set into a pre-emption record (R431); it never fails for want of room (R432). -/
def State.preemptSet (s : State) (wid : Nat) (x : (Nat × Nat × Nat) × List Nat) : State :=
  match s.warp? wid with
  | none => s
  | some w =>
    let live := w.liveSet 0
    let size := 320 + 128 * live.length
    let now := (s.die w.die).clkr
    let repc := (w.lane (x.2.headD 0)).repc
    match s.findRoom w size with
    | some pl =>
      (s.addRecord wid (fun n =>
        { seq := n, before := true, state := .ready, lanes := x.2, pc := x.1.1, half := x.1.2.1, repc := repc
          tmo := 0, who := s.whoOf w, blk := BitVec.ofNat 32 w.blockIdx, live := live
          saved := w.saveLanes x.2 live, exempt := s.heldRegs wid, place := pl, size := size
          suspendedAt := now, readyAt := now })).modLanes wid x.2 (fun l => { l with st := .suspended })
    | none =>
      (s.addRecord wid (fun n =>
        { seq := n, before := true, state := .ready, inPlace := true, lanes := x.2, pc := x.1.1, half := x.1.2.1
          repc := repc, tmo := 0, who := s.whoOf w, blk := BitVec.ofNat 32 w.blockIdx, place := .slot w.freeSlot
          size := 64, suspendedAt := now, readyAt := now })).modLanes wid x.2 (fun l => { l with st := .suspended })

/-- Every runnable or held lane set of a warp becomes a pre-emption record, in the order of R169 (R431). -/
def State.preemptWarp (s : State) (wid : Nat) : State :=
  match s.warp? wid with
  | none => s
  | some w =>
    let ls := (List.range 32).filter (fun l => (w.lane l).st == .runnable || (w.lane l).st == .held)
    (s.orderedSets w ls).foldl (fun s x => s.preemptSet wid x) s

/-- Escalation of a record (R443 step 1): the context halts; a context escalates once. -/
def State.escalate (s : State) (ctx wid seq : Nat) : State :=
  match s.ctx? ctx with
  | none => s
  | some c =>
    if c.escalated.isSome then s
    else
      let copies := s.ops.filter (fun o => match o.kind with
        | .copy _ => o.ctx == ctx && !o.complete && decide (o.core < Config.coresPerDie)
        | _ => false)
      let s := s.modCtx ctx (fun c =>
        { c with escalated := some (wid, seq), haltAt := (s.die 0).clkr, haltOps := copies })
      (s.warps.filter (fun w => w.ctx == ctx)).foldl (fun s w => s.preemptWarp w.wid) s

/-- Faulted records of a context that escalate as soon as the instruction or event that parked them is over: those of
supervisor warps, and all without a handler entry (R426, R427); the one that parked first comes first. -/
def State.escalates (s : State) (c : Context) : List (Warp × Record) :=
  if c.escalated.isSome then []
  else sortBy (fun a b => decide (a.2.parkOrder < b.2.parkOrder)) ((s.warps.filter (fun w => w.ctx == c.id)).flatMap (fun w =>
    (w.records.filter (fun r => r.state == .faulted && !r.dispatched && (w.supervisor || c.trapv.toNat / 8 == 0))).map (fun r =>
      (w, r))))

/-- Escalate what is due. -/
def State.escalateDue (s : State) : State :=
  s.ctxs.foldl (fun s c => match ((s.ctx? c.id).map s.escalates).getD [] with
    | [] => s
    | x :: _ => s.escalate c.id x.1.wid x.2.seq) s

/-- Park lanes in place under one trap (R223, R425): the one way an exception is taken. -/
def State.park (s : State) (wid : Nat) (ls : List Nat) (code pc half repc opc faddr event : Nat) : State :=
  match s.warp? wid with
  | none => s
  | some w =>
    let now := (s.die w.die).clkr
    let s1 := s.addRecord wid (fun n =>
      { seq := n, before := true, state := .faulted, inPlace := true, lanes := ls, pc := pc, half := half, repc := repc
        trap := code, tmo := 0, opc := opc, who := s.whoOf w, blk := BitVec.ofNat 32 w.blockIdx, event := event
        faddr := faddr, place := .slot w.freeSlot, size := 64, suspendedAt := now, parkOrder := s.arrivals })
    let s2 := { s1 with arrivals := s1.arrivals + 1 }
    s2.modLanes wid ls (fun l => { l with st := .parked, pc := pc, half := half, repc := repc })

/-- A trap raised in one lane: code, FADDR, EVENT. -/
structure LaneTrap where
  lane : Nat
  code : Nat
  faddr : Nat := 0
  event : Nat := 0
  deriving DecidableEq, Repr

/-- Traps grouped by code, in the order of each group's lowest lane (R425). -/
def groupTraps (ts : List LaneTrap) : List (LaneTrap × List Nat) :=
  ts.foldl (fun acc t =>
    if acc.any (fun x => x.1.code == t.code) then
      acc.map (fun x => if x.1.code == t.code then (x.1, x.2 ++ [t.lane]) else x)
    else acc ++ [(t, [t.lane])]) []

/-- REPC of a lane that stops at repeat idx of n (R70); 0 for an instruction without a repeat prefix. -/
def Cur.repcAt (c : Cur) (i : Instr) : Nat := if i.operands.rep.isSome then c.count - c.idx else 0

/-- Park the lanes of an instruction that raised traps, at the instruction (R425, Table 3.7). -/
def State.raise (s : State) (e : Env) (ts : List LaneTrap) : State :=
  (groupTraps ts).foldl (fun s g =>
    s.park e.c.wid g.2 g.1.code e.c.pc e.c.half (e.c.repcAt e.i) e.i.opcode g.1.faddr g.1.event) s

/-- Raise one trap in all of given lanes as one set. -/
def State.raiseAll (s : State) (e : Env) (ls : List Nat) (code faddr event : Nat) : State :=
  s.park e.c.wid ls code e.c.pc e.c.half (e.c.repcAt e.i) e.i.opcode faddr event

/-- A suspension to be made: its lanes, whether before the instruction, what it waits for, the fields of Table 9.4. -/
structure Suspension where
  lanes : List Nat
  before : Bool := false
  wait : Wait
  ls : Nat := 0
  tmo : Nat := 31
  event : Nat := 0
  vals : List LaneVals := []
  results : List RegWrite := []
  deriving DecidableEq, Repr

/-- An instruction that suspends with a wait makes accesses later that a DET launch folds (R251, R294, R343). -/
def foldsLater (i : Instr) (x : Wait) : Bool :=
  let opc := i.opcode
  match x with
  | .lines _ => ((opc == 0x248 || opc == 0x249) && i.operands.modBit 5) ||
      ((opc == 0x2C4 || opc == 0x2C6 || opc == 0x2C7) && i.operands.modBit 0)
  | .det _ _ _ => i.operands.modBit 5
  | .qPush _ => true
  | _ => false

/-- Make a record of suspended lanes (R217, R218); none when no place holds it (R222). A suspend-before record stands
at the instruction, a suspend-after record at the position that follows it. DESIGN CHOICE (assumption log 15): TO of a
suspend-before record is 31, and DEADLINE of an instruction with TO 0 that waits for an owned line is CLK + 1. -/
def State.suspend? (s : State) (e : Env) (x : Suspension) : Option State :=
  match s.warp? e.c.wid with
  | none => none
  | some w =>
    let live := w.liveSet x.ls
    let size := 320 + 128 * live.length
    match s.findRoom w size with
    | none => none
    | some pl =>
      let now := (s.die w.die).clkr
      let after := e.c.idx + 1 == e.c.count
      let repc := if x.before then e.c.repcAt e.i else if after then 0 else e.c.count - e.c.idx - 1
      let pc := if x.before || !after then e.c.pc else e.c.nextPc
      let half := if x.before || !after then e.c.half else e.c.nextHalf
      let dl := if x.tmo == 31 then 0 else BitVec.ofNat 32 (s.ctxClk w.ctx + 2 ^ x.tmo)
      let s1 := if foldsLater e.i x.wait && s.isDet w then
          s.modWarp e.c.wid (fun y => { y with folds := y.folds ++ [.pending y.seqNext] })
        else s
      some ((s1.addRecord e.c.wid (fun n =>
        { seq := n, before := x.before, lanes := x.lanes, pc := pc, half := half, repc := repc, ls := x.ls, tmo := x.tmo
          opc := e.i.opcode, sdst := sdstOf e.i, who := s.whoOf w, blk := BitVec.ofNat 32 w.blockIdx, deadline := dl
          ipc := e.c.pc, ihalf := e.c.half, irepc := e.c.repcAt e.i
          event := x.event, live := live, saved := w.saveLanes x.lanes live, exempt := s.heldRegs e.c.wid, place := pl
          size := size, wait := x.wait, instr := some e.i, vals := x.vals, results := x.results
          suspendedAt := now })).modLanes e.c.wid x.lanes (fun l =>
            { l with st := .suspended, pc := pc, half := half, repc := repc }))

/-- Suspend lanes, or raise trap 0x20 in them where no place holds the record (R222). -/
def State.suspend (s : State) (e : Env) (x : Suspension) : State :=
  match s.suspend? e x with
  | some s' => s'
  | none => s.raiseAll e x.lanes 0x20 0 0

/-- Suspend lanes, of which some meet traps of their own: where no place holds the record those report them, being the lower
codes, and the others 0x20 (R10, R222). -/
def State.suspendOr (s : State) (e : Env) (x : Suspension) (bad : List LaneTrap) : State :=
  match s.suspend? e x with
  | some s' => s'
  | none =>
    s.raise e (x.lanes.map (fun l => (bad.find? (fun t => t.lane == l)).getD { lane := l, code := 0x20 }))

/-- A waiting record becomes ready with register writes to make at resumption. -/
def State.ready (s : State) (wid seq : Nat) (ws : List RegWrite) : State :=
  match s.warp? wid with
  | none => s
  | some w =>
    s.updateRecord wid seq (fun r =>
      { r with state := .ready, wait := .nothing, results := r.results ++ ws, readyAt := (s.die w.die).clkr })

/-- A waiting record waits for something else. -/
def State.rewait (s : State) (wid seq : Nat) (x : Wait) : State := s.modRecord wid seq (fun r => { r with wait := x })

/-- Restore one lane from a record (R219). -/
def restoreLane (r : Record) (x : Lane) (v : LaneSave) : Lane :=
  { x with st := .runnable, pc := r.pc, half := r.half, repc := r.repc, gen := v.gen, fpx := v.fpx
           regs := r.exempt.foldl (fun m n => m.set n (x.regs.get n)) v.regs }

/-- A record is freed (R221). -/
def State.freeRecord (s : State) (wid seq : Nat) : State :=
  s.modWarp wid (fun w => { w with records := w.records.filter (fun x => x.seq != seq) })

/-- A record keeps only some of its lanes: its bytes follow where they lie in memory (R220). -/
def State.narrowRecord (s : State) (wid seq : Nat) (ls : List Nat) : State :=
  let s1 := s.modRecord wid seq (fun r =>
    { r with lanes := r.lanes.filter ls.contains, saved := r.saved.filter (fun x => ls.contains x.lane)
             vals := r.vals.filter (fun v => ls.contains v.lane) })
  match s1.warp? wid with
  | none => s1
  | some w =>
    match w.record? seq with
    | none => s1
    | some r => s1.putRecord w r

/-- The lanes of a record take up at the record's position, with what it saved of them (R219). -/
def State.restoreLanes (s : State) (wid : Nat) (r : Record) : State :=
  if r.inPlace then
    s.modLanes wid r.lanes (fun x => { x with st := .runnable, pc := r.pc, half := r.half, repc := r.repc })
  else s.modWarp wid (fun w => r.saved.foldl (fun w v => w.modLane v.lane (fun x => restoreLane r x v)) w)

/-- A ready record resumes (R219, R227): its lanes become runnable, its results are written, and it is freed. A register
that a matrix operation held at any time meanwhile is not written (R310). -/
def State.resumeRecord (s : State) (wid seq : Nat) : State :=
  match (s.warp? wid).bind (·.record? seq) with
  | none => s
  | some r =>
    ((s.restoreLanes wid r).writeRegs wid (r.results.filter (fun x => !r.exempt.contains x.reg))).freeRecord wid seq

/-- Lanes of a suspended record raise a trap at its instruction instead of resuming (R292, R385): they are restored and
park; the record is freed. -/
def State.trapRecord (s : State) (w : Warp) (r : Record) (code faddr event : Nat) : State :=
  ((s.restoreLanes w.wid r).freeRecord w.wid r.seq).park w.wid r.lanes code r.ipc r.ihalf r.irepc r.opc faddr event

/-- Some lanes of a suspended record raise traps at its instruction; the record keeps the others (R425). -/
def State.trapLanes (s : State) (w : Warp) (r : Record) (ts : List LaneTrap) : State :=
  let ls := ts.map (·.lane)
  let gone : Record := { r with lanes := ls, saved := r.saved.filter (fun x => ls.contains x.lane) }
  let rest := r.lanes.filter (fun l => !ls.contains l)
  let s1 := s.restoreLanes w.wid gone
  let s2 := if rest.isEmpty then s1.freeRecord w.wid r.seq else s1.narrowRecord w.wid r.seq rest
  (groupTraps ts).foldl (fun s g => s.park w.wid g.2 g.1.code r.ipc r.ihalf r.irepc r.opc g.1.faddr g.1.event) s2

/-- A header slot of a resolved record whose handler runs stays listed (R223). -/
def State.resolve (s : State) (wid seq : Nat) : State :=
  let s := s.updateRecord wid seq (fun r => { r with state := .resolved })
  match s.warp? wid with
  | none => s
  | some w =>
    match w.record? seq with
    | none => s
    | some r =>
      let running := match r.handler with
        | some h => s.warps.any (fun x => x.wid == h)
        | none => false
      if running then s
      else s.modWarp wid (fun w => { w with records := w.records.filter (fun x => x.seq != seq) })

/-- Phases of all-lanes barriers are tested when lanes of a block end (R179). -/
def barrierTest (liveLanes : Nat) (b : Barrier) : Barrier :=
  if b.opened && b.exp == 0 && b.cnt.toNat == liveLanes then
    { b with gen := b.gen + 1, cnt := 0, opened := false }
  else b

/-- Number of lanes of a block that have not ended (R179). -/
def State.blockLanes (s : State) (bid : Nat) : Nat :=
  (s.warps.filter (fun w => w.block == some bid)).foldl (fun n w => n + w.liveLanes.length) 0

/-- End a lane of a warp (R34): it issues nothing more, and open all-lanes phases are tested at once (R179). -/
def State.endLane (s : State) (wid l : Nat) : State :=
  let s := s.modLane wid l (fun x => { x with st := .ended })
  match (s.warp? wid).bind (·.block) with
  | none => s
  | some b =>
    let n := s.blockLanes b
    s.modBlock b (fun x => { x with barriers := x.barriers.map (barrierTest n) })

/-- End lanes of a warp in ascending order (R179). -/
def State.endLanes (s : State) (wid : Nat) (ls : List Nat) : State := ls.foldl (fun s l => s.endLane wid l) s

/-- Bytes of the words of an F instruction at a PC of a warp: its prefix is counted where one is read. -/
def State.fBytesAt (s : State) (w : Warp) (pc : Nat) : Nat :=
  match s.codeWord w pc with
  | none => 8
  | some x => if (prefixType x).isSome then 16 else 8

/-- Return from a trap (R427, R139): the lanes stand at the record's position again, past the instruction for 0x3E and
0x3F. -/
def State.returnFrom (s : State) (w : Warp) (r : Record) : State :=
  let pc := if r.trap == 0x3E || r.trap == 0x3F then r.pc + s.fBytesAt w r.pc else r.pc
  let s := s.modLanes w.wid r.lanes (fun x => { x with st := .runnable, pc := pc, half := r.half, repc := r.repc })
  s.resolve w.wid r.seq

/-- Lanes of a record end (R427, R335). -/
def State.killRecord (s : State) (w : Warp) (r : Record) : State :=
  let s := s.endLanes w.wid r.lanes
  let s := s.modWarp w.wid (fun w => { w with killed := true })
  s.resolve w.wid r.seq

/-- Control register numbers of Table 1.3, and whether each is of the supervisor view. -/
def csrKnown (n : Nat) : Bool := decide (n ≤ 0x0A) || (decide (0x20 ≤ n) && decide (n ≤ 0x2D))
def csrSupervisor (n : Nat) : Bool := decide (0x20 ≤ n)

/-- An instruction of the csr group. -/
def isCsr (opc : Nat) : Bool := decide (0x00B ≤ opc) && decide (opc ≤ 0x00E)
/-- Block barrier and hinge ring instructions and tru.sort, which need a block (R166). -/
def needsBlock (opc : Nat) : Bool :=
  (decide (0x252 ≤ opc) && decide (opc ≤ 0x254)) || (decide (0x2CC ≤ opc) && decide (opc ≤ 0x2CF)) || opc == 0x34B
/-- Picker, sample and row instructions, which need ownership at user level (R348). -/
def needsOwner (opc : Nat) : Bool := (decide (0x340 ≤ opc) && decide (opc ≤ 0x344)) || opc == 0x34C || opc == 0x34D
/-- Matrix-queue instructions (R315). -/
def needsMxq (opc : Nat) : Bool := decide (0x303 ≤ opc) && decide (opc ≤ 0x305)

/-- Roles an opcode admits (R83). -/
def roleOk (opc : Nat) (r : Role) : Bool :=
  if opc == 0x2C0 || opc == 0x306 then r == .g || r == .s
  else if opc == 0x300 then r == .g || r == .m
  else if opc == 0x303 then r == .g || r == .v
  else true

/-- The ring an instruction names, when it is initialised and links other stages (R346). -/
def State.ringForeign (s : State) (w : Warp) (i : Instr) : Bool :=
  let opc := i.opcode
  if decide (0x2CD ≤ opc) && decide (opc ≤ 0x2CF) then
    match w.block.bind s.block? with
    | none => false
    | some b =>
      let r := b.rings.getD (i.operands.mods 0 3) {}
      r.nslot != 0 && w.stage != r.link && w.stage != r.link + 1
  else false

/-- The lowest code among conditions that hold; 0 when none does (R10). The list is in ascending code. -/
def lowestTrap (cs : List (Bool × Nat)) : Nat := ((cs.find? (·.1)).map (·.2)).getD 0

/-- The issue trap of an instruction in a warp (R22): 0 when there is none. -/
def State.issueTrap (s : State) (w : Warp) (i : Instr) : Nat :=
  let opc := i.opcode
  let o := i.operands
  let blk := w.block.bind s.block?
  lowestTrap [
    (!staticLegal i, 0x01),
    (!operandsLegal i w.footprint || (i.sig.ls && decide (w.image.nlive < o.ls)) ||
      (isCsr opc && !csrKnown (o.mods 0 6)), 0x03),
    (!w.supervisor && (supervisorOnly opc || (isCsr opc && csrSupervisor (o.mods 0 6)) ||
      (needsOwner opc && !(s.die w.die).render.ownedBy w.ctx)), 0x05),
    (!roleOk opc w.role || (needsBlock opc && (w.kind == .task || w.kind == .handler)) ||
      (opc == 0x34B && decide (1 < (blk.map (·.nstage)).getD 1)) || s.ringForeign w i, 0x06),
    (s.t9c && combineOpcode opc, 0x07),
    (needsMxq opc && !((blk.map (·.holdsMxq)).getD false), 0x28)]

/-- The issuing lanes move past the instruction, or to its next repeat (R70). -/
def State.advance (s : State) (c : Cur) : State :=
  s.modLanes c.wid c.lanes (fun x =>
    if c.count ≤ c.idx + 1 then { x with pc := c.nextPc, half := c.nextHalf, repc := 0 }
    else { x with repc := c.count - c.idx - 1 })

/-- A warp as an issuing set reads it: a secondary set reads PART, RND and AXC as they were before the primary's effects
(R135), and SPS as the primary left it (R264). -/
def Warp.readBy (w : Warp) (c : Cur) : Warp :=
  match c.regs with
  | none => w
  | some x => { w with part := x.part, rnd := x.rnd, axc := x.axc }

/-- The environment of an instruction in an issuing set. -/
def State.env (s : State) (i : Instr) (c : Cur) (w : Warp) : Env :=
  { i := i, o := i.operands, c := c, w := w
    p := c.lanes.filter (fun l => predTrue s w c.lanes l i.operands.pred) }

/-- Stack registers of the traversal windows of lanes, by the CTL each holds (R378). -/
def stackRegs (w : Warp) (lanes : List Nat) (i : Instr) : List Nat :=
  match i.opcode, i.operands.b with
  | 0x346, .reg b => (lanes.flatMap (fun l => regRange (b + 18) (((w.lane l).reg (b + 11)).toNat / 2 ^ 6 % 32 + 1))).eraseDups
  | _, _ => []

/-- The registers that an instruction reads or writes, by the lanes whose predicate is true (R22, R310): without one, its
predicate alone. -/
def touchedRegs (w : Warp) (p : List Nat) (i : Instr) : List Nat :=
  let test := (Use.src 1).reads i.operands.pred.src
  if p.isEmpty then test else test ++ i.regsRead ++ i.regsWritten ++ stackRegs w p i

/-- The registers of an instruction that matrix operations hold (R310). -/
def State.namesHeld (s : State) (w : Warp) (p : List Nat) (i : Instr) : List Nat :=
  let held := s.heldRegs w.wid
  if held.isEmpty then [] else ((touchedRegs w p i).filter held.contains).eraseDups

/-- The envelope of every instruction of the table: an issue trap parks the whole issuing set (R22); a held register
suspends it before the instruction (R216); otherwise the lanes advance and the instruction has its effect. DESIGN CHOICE
(assumption log 47): this order holds also for an instruction that its unit would hold back (R183, R299), whose body asks the
unit. -/
def issue (i : Instr) (s : State) (body : Env → State → State) : Host.Outcome State Fault Refusal :=
  match s.cur with
  | none => .fault .noIssuingSet
  | some c =>
    match (s.warp? c.wid).map (·.readBy c) with
    | none => .fault .noIssuingSet
    | some w =>
      let e := s.env i c w
      let t := s.issueTrap w i
      if t != 0 then .next (s.raiseAll e c.lanes t 0 0)
      else if s.namesHeld w e.p i != [] then
        .next (s.suspend e { lanes := c.lanes, before := true, wait := .hold (s.namesHeld w e.p i) })
      else .next (body e (s.advance c))

/-- The block of a warp. -/
def State.blockOf (s : State) (w : Warp) : Option Block := w.block.bind s.block?

/-- Bytes of shared memory a warp's accesses may reach (R208): its block's, 0 for one that has none (R328, R358). -/
def State.sharedLimit (s : State) (w : Warp) : Nat := ((s.blockOf w).map (·.sharedSize)).getD 0

/-- The check of R254 on offset o of z bytes aligned to al: 0 or the lowest trap. -/
def State.checkAccess (s : State) (w : Warp) (shared : Bool) (o z al : Nat) : Nat :=
  let bound :=
    if shared then decide (o + z ≤ s.sharedLimit w)
    else ((s.ctx? w.ctx).map (fun c => c.windowOk w.die o z w.supervisor)).getD false
  lowestTrap [(!bound && !shared, 0x10), (!bound && shared, 0x11), (o % al != 0, 0x12)]

/-- Byte of the on-die memory at an offset: the window starts at SPB (R210). -/
def State.spaceAddr (s : State) (w : Warp) (shared : Bool) (o : Nat) : Nat :=
  if shared then o else ((s.ctx? w.ctx).map (fun c => (c.window w.die).1)).getD 0 + o

/-- Lines of n bytes at an offset that an engine owns (R238). -/
def State.ownedLines (s : State) (w : Warp) (shared : Bool) (o n : Nat) : List LineKey :=
  (spaceLines (w.space shared) (s.spaceAddr w shared o) n).filter s.isOwned

end Sys2Proof.Machine
end

