-- ==== Sys2Proof/Machine/Integer.lean ====
section
/-! DEFINITION. Integer and address instructions (spec/04_sequential_instructions.md R92 to R108). Each acts on the
lanes whose predicate is true; every source is read before any register is written (R14). -/

namespace Sys2Proof.Machine

/-- Write the words f gives each lane to D and set the flags f gives it (R20, R57, R92). -/
def State.perLane (s : State) (e : Env) (f : Nat → List Word × BitVec 6) : State :=
  s.modWarp e.c.wid (fun w => e.p.foldl (fun w l =>
    let r := f l
    w.modLane l (fun x => { x.writeDst e.o.d r.1 with fpx := x.fpx ||| r.2 })) w)

/-- Operand A as an integer. -/
def Env.a (e : Env) (s : State) (l : Nat) : Word := e.word s .int e.o.a l
/-- Operand B as an integer. -/
def Env.b (e : Env) (s : State) (l : Nat) : Word := e.word s .int e.o.b l
/-- The third source C as an integer (R93). -/
def Env.cc (e : Env) (s : State) (l : Nat) : Word := e.word s .int e.o.c l
/-- D as a source (R101, R119). -/
def Env.d (e : Env) (s : State) (l : Nat) : Word := e.word s .int e.o.d l

/-- One word without flags in each lane. -/
def State.perWord (s : State) (e : Env) (f : Nat → Word) : State := s.perLane e (fun l => ([f l], 0))

/-- A word as a number: signed, or unsigned with .n (R98). -/
def intOf (n : Bool) (w : Word) : Int := if n then (w.toNat : Int) else w.toInt

/-- The least and greatest number of a .sat form (R99). -/
def satMin (n : Bool) : Int := if n then 0 else -(2 ^ 31)
def satMax (n : Bool) : Int := if n then 2 ^ 32 - 1 else 2 ^ 31 - 1

/-- An exact result written modulo 2^32, or clamped with FPX.ST in a .sat form (R99). -/
def narrow (n sat : Bool) (v : Int) : List Word × BitVec 6 :=
  if sat && decide (v < satMin n) then ([BitVec.ofInt 32 (satMin n)], fST)
  else if sat && decide (satMax n < v) then ([BitVec.ofInt 32 (satMax n)], fST)
  else ([BitVec.ofInt 32 v], 0)

/-- An arithmetic instruction of exact result f with MOD 0 = .n and 1 = .sat (Table 4.3). -/
def State.arith (s : State) (e : Env) (f : Int → Int → Int → Int) : State :=
  let n := e.o.modBit 0
  s.perLane e (fun l => narrow n (e.o.modBit 1) (f (intOf n (e.a s l)) (intOf n (e.b s l)) (intOf n (e.cc s l))))

/-- Quotient rounded toward zero (R102). -/
def idivWord (n : Bool) (a b : Word) : Word :=
  if b == 0 then 0xFFFFFFFF else BitVec.ofInt 32 ((intOf n a).tdiv (intOf n b))
/-- Remainder with the sign of a (R102). -/
def iremWord (n : Bool) (a b : Word) : Word :=
  if b == 0 then a else BitVec.ofInt 32 (intOf n a - intOf n b * (intOf n a).tdiv (intOf n b))

/-- A word with bit k replaced (R101). -/
def setBit (w : Word) (k : Nat) (v : Bool) : Word :=
  let m : Word := BitVec.ofNat 32 (2 ^ k)
  if v then w ||| m else w &&& ~~~m

/-- One bit of lgc3's result (R104). -/
def lgcBit (fn : Nat) (a b c : Bool) : Bool :=
  bitOf fn ((if a then 1 else 0) + (if b then 2 else 0) + (if c then 4 else 0))
/-- lgc3 (R104). -/
def lgcWord (fn : Nat) (a b c : Word) : Word :=
  BitVec.ofNat 32 (maskOf ((List.range 32).filter (fun i => lgcBit fn (a.getLsbD i) (b.getLsbD i) (c.getLsbD i))))

/-- Logical shifts by b and 63 (Table 4.3, R105). -/
def shlWord (a b : Word) : Word := a <<< (b.toNat % 64)
def shrWord (a b : Word) : Word := a >>> (b.toNat % 64)
/-- Arithmetic shift right by min(b and 63, 31). -/
def sarWord (a b : Word) : Word := BitVec.sshiftRight a (min (b.toNat % 64) 31)

/-- The funnel shift (R106). -/
def fshWord (left : Bool) (a b c : Word) : Word :=
  let sh := b.toNat % 32
  if left then BitVec.ofNat 32 ((a.toNat * 2 ^ 32 + c.toNat) * 2 ^ sh / 2 ^ 32)
  else BitVec.ofNat 32 ((c.toNat * 2 ^ 32 + a.toNat) / 2 ^ sh)

/-- Position and width of a bit field (R107). -/
def fieldPos (b : Word) : Nat := b.toNat % 256
def fieldWidth (b : Word) : Nat := min (b.toNat / 256 % 256) 32

/-- bfx (R107). -/
def bfxWord (signed : Bool) (a b : Word) : Word :=
  let w := fieldWidth b
  let v : Int := (if signed then a.toInt else (a.toNat : Int)) / (2 ^ fieldPos b : Nat)
  let f : Int := v % (2 ^ w : Nat)
  if w == 0 then 0
  else if signed && decide ((2 ^ (w - 1) : Nat) ≤ f) then BitVec.ofInt 32 (f - (2 ^ w : Nat))
  else BitVec.ofInt 32 f

/-- bfi (R107). -/
def bfiWord (a b c : Word) : Word :=
  let m : Word := BitVec.ofNat 32 ((2 ^ fieldWidth b - 1) * 2 ^ fieldPos b)
  (c &&& ~~~m) ||| (BitVec.ofNat 32 (a.toNat * 2 ^ fieldPos b) &&& m)

/-- Number of leading zero bits (Table 4.3). -/
def clzWord (b : Word) : Word := if b == 0 then 32 else BitVec.ofNat 32 (31 - Nat.log2 b.toNat)
/-- Number of one bits. -/
def popCount (b : Word) : Nat := (bitsSet b.toNat 32).length
/-- Bits reversed. -/
def brevWord (b : Word) : Word := BitVec.ofNat 32 (maskOf ((bitsSet b.toNat 32).map (31 - ·)))

/-- The 72-bit value of a triple (R23, R108). -/
def vaOf (ws : List Word) : Nat :=
  (ws.getD 0 0).toNat + (ws.getD 1 0).toNat * 2 ^ 32 + (ws.getD 2 0).toNat % 256 * 2 ^ 64
/-- The triple of a 72-bit value (R23). -/
def vaWords (v : Nat) : List Word :=
  [BitVec.ofNat 32 v, BitVec.ofNat 32 (v / 2 ^ 32), BitVec.ofNat 32 (v / 2 ^ 64 % 256)]

/-- `iadd` (Table 4.3, R99). -/
def execIadd (o : Operands) (s : State) := issue (.iadd o) s (fun e s => s.arith e (fun a b _ => a + b))
/-- `isub` (Table 4.3, R99). -/
def execIsub (o : Operands) (s : State) := issue (.isub o) s (fun e s => s.arith e (fun a b _ => a - b))
/-- `imul` (Table 4.3, R99). -/
def execImul (o : Operands) (s : State) := issue (.imul o) s (fun e s => s.arith e (fun a b _ => a * b))
/-- `imulh` (Table 4.3). -/
def execImulh (o : Operands) (s : State) :=
  issue (.imulh o) s (fun e s => s.perWord e (fun l =>
    BitVec.ofInt 32 (intOf (e.o.modBit 0) (e.a s l) * intOf (e.o.modBit 0) (e.b s l) / 2 ^ 32)))
/-- `imad` (Table 4.3, R99). -/
def execImad (o : Operands) (s : State) := issue (.imad o) s (fun e s => s.arith e (fun a b c => a * b + c))
/-- `imadw` (R100): a pair. -/
def execImadw (o : Operands) (s : State) :=
  issue (.imadw o) s (fun e s => s.perLane e (fun l =>
    let n := e.o.modBit 0
    let c := e.words s 2 (!n) e.o.c l
    let v := intOf n (e.a s l) * intOf n (e.b s l) + ((c.getD 0 0).toNat + (c.getD 1 0).toNat * 2 ^ 32 : Nat)
    ([BitVec.ofInt 32 v, BitVec.ofInt 32 (v / 2 ^ 32)], 0)))
/-- `iaddx` (R100). -/
def execIaddx (o : Operands) (s : State) :=
  issue (.iaddx o) s (fun e s => s.perWord e (fun l =>
    let t := (e.a s l).toNat + (e.b s l).toNat + (e.cc s l).toNat % 2
    BitVec.ofNat 32 (if e.o.modBit 2 then t / 2 ^ 32 else t)))
/-- `idiv` (R102). -/
def execIdiv (o : Operands) (s : State) :=
  issue (.idiv o) s (fun e s => s.perWord e (fun l => idivWord (e.o.modBit 0) (e.a s l) (e.b s l)))
/-- `irem` (R102). -/
def execIrem (o : Operands) (s : State) :=
  issue (.irem o) s (fun e s => s.perWord e (fun l => iremWord (e.o.modBit 0) (e.a s l) (e.b s l)))
/-- `iabs` (R99). -/
def execIabs (o : Operands) (s : State) :=
  issue (.iabs o) s (fun e s => s.perLane e (fun l => narrow false (e.o.modBit 1) (e.b s l).toInt.natAbs))
/-- `imin` (Table 4.3). -/
def execImin (o : Operands) (s : State) :=
  issue (.imin o) s (fun e s => s.perWord e (fun l =>
    if intOf (e.o.modBit 0) (e.b s l) < intOf (e.o.modBit 0) (e.a s l) then e.b s l else e.a s l))
/-- `imax` (Table 4.3). -/
def execImax (o : Operands) (s : State) :=
  issue (.imax o) s (fun e s => s.perWord e (fun l =>
    if intOf (e.o.modBit 0) (e.a s l) < intOf (e.o.modBit 0) (e.b s l) then e.b s l else e.a s l))
/-- `sel` (R103): K in XM 14:10. -/
def execSel (o : Operands) (s : State) :=
  issue (.sel o) s (fun e s => s.perWord e (fun l =>
    if (e.cc s l).getLsbD (bitsOf e.o.xm 10 5) then e.a s l else e.b s l))
/-- `mov` (Table 4.3). -/
def execMov (o : Operands) (s : State) := issue (.mov o) s (fun e s => s.perWord e (fun l => e.b s l))
/-- `icmp` (R101): K in XM 4:0. -/
def execIcmp (o : Operands) (s : State) :=
  issue (.icmp o) s (fun e s => s.perWord e (fun l =>
    setBit (e.d s l) (bitsOf e.o.xm 0 5)
      (icond (e.o.mods 0 3) (intOf (e.o.modBit 3) (e.a s l)) (intOf (e.o.modBit 3) (e.b s l)))))
/-- `and` (Table 4.3). -/
def execAnd (o : Operands) (s : State) := issue (.and o) s (fun e s => s.perWord e (fun l => e.a s l &&& e.b s l))
/-- `or` (Table 4.3). -/
def execOr (o : Operands) (s : State) := issue (.or o) s (fun e s => s.perWord e (fun l => e.a s l ||| e.b s l))
/-- `xor` (Table 4.3). -/
def execXor (o : Operands) (s : State) := issue (.xor o) s (fun e s => s.perWord e (fun l => e.a s l ^^^ e.b s l))
/-- `andn` (Table 4.3). -/
def execAndn (o : Operands) (s : State) :=
  issue (.andn o) s (fun e s => s.perWord e (fun l => e.a s l &&& ~~~(e.b s l)))
/-- `orn` (Table 4.3). -/
def execOrn (o : Operands) (s : State) :=
  issue (.orn o) s (fun e s => s.perWord e (fun l => e.a s l ||| ~~~(e.b s l)))
/-- `lgc3` (R104): FN in XM 17:10. -/
def execLgc3 (o : Operands) (s : State) :=
  issue (.lgc3 o) s (fun e s => s.perWord e (fun l => lgcWord (bitsOf e.o.xm 10 8) (e.a s l) (e.b s l) (e.cc s l)))
/-- `shl` (R105). -/
def execShl (o : Operands) (s : State) := issue (.shl o) s (fun e s => s.perWord e (fun l => shlWord (e.a s l) (e.b s l)))
/-- `shr` (R105). -/
def execShr (o : Operands) (s : State) := issue (.shr o) s (fun e s => s.perWord e (fun l => shrWord (e.a s l) (e.b s l)))
/-- `sar` (R105). -/
def execSar (o : Operands) (s : State) := issue (.sar o) s (fun e s => s.perWord e (fun l => sarWord (e.a s l) (e.b s l)))
/-- `rol` (R105). -/
def execRol (o : Operands) (s : State) :=
  issue (.rol o) s (fun e s => s.perWord e (fun l => (e.a s l).rotateLeft ((e.b s l).toNat % 32)))
/-- `ror` (R105). -/
def execRor (o : Operands) (s : State) :=
  issue (.ror o) s (fun e s => s.perWord e (fun l => (e.a s l).rotateRight ((e.b s l).toNat % 32)))
/-- `fsh` (R106): MOD 0 = .l. -/
def execFsh (o : Operands) (s : State) :=
  issue (.fsh o) s (fun e s => s.perWord e (fun l => fshWord (e.o.modBit 0) (e.a s l) (e.b s l) (e.cc s l)))
/-- `bfx` (R107): MOD 0 = .i. -/
def execBfx (o : Operands) (s : State) :=
  issue (.bfx o) s (fun e s => s.perWord e (fun l => bfxWord (e.o.modBit 0) (e.a s l) (e.b s l)))
/-- `bfi` (R107). -/
def execBfi (o : Operands) (s : State) :=
  issue (.bfi o) s (fun e s => s.perWord e (fun l => bfiWord (e.a s l) (e.b s l) (e.cc s l)))
/-- `popc` (Table 4.3). -/
def execPopc (o : Operands) (s : State) :=
  issue (.popc o) s (fun e s => s.perWord e (fun l => BitVec.ofNat 32 (popCount (e.b s l))))
/-- `clz` (Table 4.3). -/
def execClz (o : Operands) (s : State) := issue (.clz o) s (fun e s => s.perWord e (fun l => clzWord (e.b s l)))
/-- `brev` (Table 4.3). -/
def execBrev (o : Operands) (s : State) := issue (.brev o) s (fun e s => s.perWord e (fun l => brevWord (e.b s l)))
/-- `bset` (Table 4.3). -/
def execBset (o : Operands) (s : State) :=
  issue (.bset o) s (fun e s => s.perWord e (fun l => setBit (e.a s l) ((e.b s l).toNat % 32) true))
/-- `bclr` (Table 4.3). -/
def execBclr (o : Operands) (s : State) :=
  issue (.bclr o) s (fun e s => s.perWord e (fun l => setBit (e.a s l) ((e.b s l).toNat % 32) false))
/-- `va.add` (R108): MOD 0 = .n. -/
def execVaAdd (o : Operands) (s : State) :=
  issue (.vaAdd o) s (fun e s => s.perLane e (fun l =>
    let n := e.o.modBit 0
    let b := (intOf n (e.b s l)) % 2 ^ 72
    (vaWords ((vaOf (e.words s 3 (!n) e.o.a l) + b.toNat) % 2 ^ 72), 0)))
/-- `va.sub` (R108). -/
def execVaSub (o : Operands) (s : State) :=
  issue (.vaSub o) s (fun e s => s.perLane e (fun l =>
    (vaWords ((vaOf (e.words s 3 true e.o.a l) + 2 ^ 72 - vaOf (e.words s 3 true e.o.b l)) % 2 ^ 72), 0)))
/-- `va.cmp` (R101, R108). -/
def execVaCmp (o : Operands) (s : State) :=
  issue (.vaCmp o) s (fun e s => s.perWord e (fun l =>
    setBit (e.d s l) (bitsOf e.o.xm 0 5)
      (icond (e.o.mods 0 3) (vaOf (e.words s 3 true e.o.a l)) (vaOf (e.words s 3 true e.o.b l)))))
/-- `va.mov` (R108). -/
def execVaMov (o : Operands) (s : State) :=
  issue (.vaMov o) s (fun e s => s.perLane e (fun l => (vaWords (vaOf (e.words s 3 true e.o.b l)), 0)))

end Sys2Proof.Machine
end

