-- ==== Sys2Proof/Machine/Float.lean ====
section
/-! DEFINITION. Floating-point instructions (spec/04_sequential_instructions.md R95 to R97, R109 to R117). -/

namespace Sys2Proof.Machine

/-- Format of TY (Table 4.2). -/
def fmtOfTy (ty : Nat) : Fmt :=
  match ty with
  | 0 => fmtF32
  | 1 => fmtF16
  | _ => fmtBf16

/-- Type in which operands of TY are read (R18). -/
def opTyOf (ty : Nat) : OpTy :=
  match ty with
  | 0 => .f32
  | 1 => .f16
  | _ => .bf16

/-- TY of an instruction (Table 4.2). -/
def Env.ty (e : Env) : Nat := e.o.mods 0 2

/-- The effective rounding mode of arithmetic (R48, R95): RND.MODE for RM 0, .sr as .rn. -/
def Env.rm (e : Env) : Nat :=
  let m := if e.o.mods 2 3 == 0 then e.w.rnd.toNat else e.o.mods 2 3 - 1
  if m == rmSr then rmRn else m

/-- Elements of a word in TY: one, or two halves (R97). -/
def elems (ty : Nat) (w : Word) : List Nat :=
  if ty == 0 then [w.toNat] else [w.toNat % 2 ^ 16, w.toNat / 2 ^ 16]

/-- The word of elements in TY. -/
def ofElems (ty : Nat) (xs : List Nat) : Word :=
  if ty == 0 then BitVec.ofNat 32 (xs.getD 0 0) else BitVec.ofNat 32 (xs.getD 0 0 + xs.getD 1 0 * 2 ^ 16)

/-- Sign modifiers at XM bit k (R96): absolute value first, then negation. -/
def Fmt.signMod (f : Fmt) (xm k x : Nat) : Nat :=
  let y := if bitOf xm (k + 1) then f.clearSign x else x
  if bitOf xm k then f.flipSign y else y

/-- Elements of a source with its sign modifiers; k is its lowest modifier bit. -/
def Env.felems (e : Env) (s : State) (x : Operand) (k l : Nat) : List Nat :=
  (elems e.ty (e.word s (opTyOf e.ty) x l)).map ((fmtOfTy e.ty).signMod e.o.xm k)

/-- Elements of A, B, C. -/
def Env.fa (e : Env) (s : State) (l : Nat) : List Nat := e.felems s e.o.a 10 l
def Env.fb (e : Env) (s : State) (l : Nat) : List Nat := e.felems s e.o.b 12 l
def Env.fc (e : Env) (s : State) (l : Nat) : List Nat := e.felems s e.o.c 14 l

/-- The word and the union of flags of element results (R56, R97). -/
def packResults (ty : Nat) (rs : List FRes) : List Word × BitVec 6 :=
  ([ofElems ty (rs.map (·.bits))], rs.foldl (fun fl r => fl ||| r.fl) 0)

/-- An operation on the elements of A, B and C. -/
def State.fop (s : State) (e : Env) (f : Fmt → Nat → Nat → Nat → Nat → FRes) : State :=
  s.perLane e (fun l =>
    let a := e.fa s l
    let b := e.fb s l
    let c := e.fc s l
    packResults e.ty ((List.range b.length).map (fun k =>
      f (fmtOfTy e.ty) e.rm (a.getD k 0) (b.getD k 0) (c.getD k 0))))

/-- The operations on one element (R110, R111). -/
def faddEl (f : Fmt) (m a b : Nat) : FRes := f.addVals m (f.decode a) (f.decode b)
def fsubEl (f : Fmt) (m a b : Nat) : FRes := f.addVals m (f.decode a) (f.decode b).flip
def fmulEl (f : Fmt) (m a b : Nat) : FRes := f.mulVals m (f.decode a) (f.decode b)
def fmaEl (f : Fmt) (m a b c : Nat) : FRes := f.fmaVals m (f.decode a) (f.decode b) (f.decode c)
def fmsEl (f : Fmt) (m a b c : Nat) : FRes := f.fmaVals m (f.decode a) (f.decode b) (f.decode c).flip
def fnmaEl (f : Fmt) (m a b c : Nat) : FRes := f.fmaVals m (f.decode a).flip (f.decode b) (f.decode c)

/-- fclamp (R111): fmin(fmax(a, b), c). -/
def fclampEl (f : Fmt) (a b c : Nat) : FRes :=
  let x := f.minMax true a b
  let y := f.minMax false x.bits c
  ⟨y.bits, x.fl ||| y.fl⟩

/-- The class mask (R113). -/
def fclassEl (f : Fmt) (x : Nat) : Nat :=
  match f.decode x with
  | .nan s => if s then 2 ^ 8 else 2 ^ 9
  | .inf n => if n then 1 else 2 ^ 7
  | .fin n m _ =>
    if m == 0 then (if n then 2 ^ 3 else 2 ^ 4)
    else if m < 2 ^ f.mb then (if n then 2 ^ 2 else 2 ^ 5)
    else if n then 2 else 2 ^ 6

/-- frnd (R114). -/
def frndEl (f : Fmt) (m x : Nat) : FRes :=
  match f.decode x with
  | .nan s => f.nanRes (if s then fNV else 0)
  | .inf _ => ⟨x, 0⟩
  | .fin n k e =>
    if k == 0 then ⟨x, 0⟩
    else ⟨(f.round rmRn false 0 ⟨n, (roundToInt m 0 ⟨n, k, e, false⟩).1.natAbs, 0, false⟩).bits, 0⟩

/-- fscale (R110). Beyond 600 places either way the result no longer depends on the amount. -/
def fscaleEl (m a : Nat) (b : Word) : FRes :=
  match fmtF32.decode a with
  | .nan s => fmtF32.nanRes (if s then fNV else 0)
  | .inf _ => ⟨a, 0⟩
  | .fin n k e =>
    if k == 0 then ⟨a, 0⟩ else fmtF32.round m false 0 ⟨n, k, e + max (-600) (min 600 b.toInt), false⟩

/-- fgetx (R114). -/
def fgetxEl (x : Nat) : Word × BitVec 6 :=
  match fmtF32.decode x with
  | .nan _ => (0x80000000, fNV)
  | .inf _ => (0x7FFFFFFF, 0)
  | .fin _ m e => if m == 0 then (0x80000000, fDZ) else (BitVec.ofInt 32 (Nat.log2 m + e), 0)

/-- ffrac (R110): b − trunc(b), exact. -/
def ffracEl (f : Fmt) (x : Nat) : FRes :=
  match f.decode x with
  | .nan s => f.nanRes (if s then fNV else 0)
  | .inf _ => f.nanRes fNV
  | .fin n m e => f.round rmRn false 0 ⟨n, if 0 ≤ e then 0 else m % 2 ^ (-e).toNat, e, false⟩

/-- The exact sum of two products, by R59: a NaN, an infinity, or a number. -/
def sumProducts (p q : Option FVal) : FVal :=
  match p, q with
  | some (.inf a), some (.inf b) => if a == b then .inf a else .nan false
  | some (.inf a), some (.fin _ _ _) => .inf a
  | some (.fin _ _ _), some (.inf b) => .inf b
  | some (.fin n1 m1 e1), some (.fin n2 m2 e2) =>
    let x := addFin rmRn n1 m1 e1 n2 m2 e2
    .fin x.neg x.m x.e
  | _, _ => .nan false

/-- fdot2 (R110, R115): one rounding of a0·b0 + a1·b1 + c. -/
def fdot2El (f : Fmt) (m : Nat) (a b : List Nat) (c : Nat) : FRes :=
  let x := a.map f.decode
  let y := b.map f.decode
  let z := fmtF32.decode c
  let x0 := x.getD 0 (.nan false)
  let x1 := x.getD 1 (.nan false)
  let y0 := y.getD 0 (.nan false)
  let y1 := y.getD 1 (.nan false)
  let sum := sumProducts (x0.mul y0) (x1.mul y1)
  let anyNan := (x ++ y).any FVal.isNan
  let invalid := mulInvalid x0 y0 || mulInvalid x1 y1 || (sum.isNan && !anyNan)
  let fl := (if invalid then fNV else 0) ||| sigFlag (z :: (x ++ y))
  if sum.isNan then fmtF32.nanRes fl
  else
    let r := fmtF32.addVals m sum z
    ⟨r.bits, r.fl ||| fl⟩

/-- Kept significand bits of AXC.LEVEL (Table 4.7). -/
def axcBits (level : Nat) : Int :=
  match level with
  | 0 => 24
  | 1 => 14
  | 2 => 10
  | _ => 8

/-- ex(x) of R116. -/
def axcEx (m : Nat) (e : Int) : Int := if m == 0 then -126 else max (Nat.log2 m + e) (-126)

/-- reduce(x, q) of R116 as a signed count of units and the unit's exponent. -/
def axcReduce (neg : Bool) (m : Nat) (e q : Int) : Int × Int :=
  let u := axcEx m e - q + 1
  let k : Nat := if u ≤ e then m * 2 ^ (e - u).toNat else m / 2 ^ (u - e).toNat
  (if neg then -(k : Int) else k, u)

/-- axcmp (R116): the reduced operands decide outside the guard band, the operands themselves inside it. -/
def axcmp (cond : Nat) (level : Nat) (a b : FVal) : Bool × Bool :=
  match a, b with
  | .fin n1 m1 e1, .fin n2 m2 e2 =>
    let q := axcBits level
    let x := axcReduce n1 m1 e1 q
    let y := axcReduce n2 m2 e2 q
    let g := max (axcEx m1 e1) (axcEx m2 e2) - q + 2
    let k := min (min x.2 y.2) g
    let xv := x.1 * 2 ^ (x.2 - k).toNat
    let yv := y.1 * 2 ^ (y.2 - k).toNat
    if (xv - yv).natAbs ≤ 2 ^ (g - k).toNat then fcond cond a b
    else fcond cond (.fin (decide (xv < 0)) xv.natAbs k) (.fin (decide (yv < 0)) yv.natAbs k)
  | _, _ => fcond cond a b

/-- A comparison of f for the elements of A and B: bits from K on of D (R112). -/
def State.fcompare (s : State) (e : Env) (f : FVal → FVal → Bool × Bool) : State :=
  s.perLane e (fun l =>
    let a := (e.fa s l).map (fmtOfTy e.ty).decode
    let b := (e.fb s l).map (fmtOfTy e.ty).decode
    let k := bitsOf e.o.xm 0 5
    let rs := (List.range a.length).map (fun j => (j, f (a.getD j (.nan false)) (b.getD j (.nan false))))
    ([rs.foldl (fun w r => setBit w (k + r.1) r.2.1) (e.d s l)], if rs.any (·.2.2) then fNV else 0))

/-- `fadd` (R109, R110). -/
def execFadd (o : Operands) (s : State) := issue (.fadd o) s (fun e s => s.fop e (fun f m a b _ => faddEl f m a b))
/-- `fsub` (R109, R110). -/
def execFsub (o : Operands) (s : State) := issue (.fsub o) s (fun e s => s.fop e (fun f m a b _ => fsubEl f m a b))
/-- `fmul` (R109, R110). -/
def execFmul (o : Operands) (s : State) := issue (.fmul o) s (fun e s => s.fop e (fun f m a b _ => fmulEl f m a b))
/-- `fma` (R109, R110). -/
def execFma (o : Operands) (s : State) := issue (.fma o) s (fun e s => s.fop e fmaEl)
/-- `fms` (R109, R110). -/
def execFms (o : Operands) (s : State) := issue (.fms o) s (fun e s => s.fop e fmsEl)
/-- `fnma` (R109, R110). -/
def execFnma (o : Operands) (s : State) := issue (.fnma o) s (fun e s => s.fop e fnmaEl)
/-- `fmin` (R111). -/
def execFmin (o : Operands) (s : State) :=
  issue (.fmin o) s (fun e s => s.fop e (fun f _ a b _ => f.minMax false a b))
/-- `fmax` (R111). -/
def execFmax (o : Operands) (s : State) :=
  issue (.fmax o) s (fun e s => s.fop e (fun f _ a b _ => f.minMax true a b))
/-- `fcmp` (R112): cond in MOD 4:2. -/
def execFcmp (o : Operands) (s : State) := issue (.fcmp o) s (fun e s => s.fcompare e (fcond (e.o.mods 2 3)))
/-- `fcmp.ax` (R116, R117). -/
def execFcmpAx (o : Operands) (s : State) :=
  issue (.fcmpAx o) s (fun e s => s.fcompare e (axcmp (e.o.mods 2 3) e.w.axc.toNat))
/-- `fclass` (R113). -/
def execFclass (o : Operands) (s : State) :=
  issue (.fclass o) s (fun e s => s.perWord e (fun l =>
    ofElems e.ty ((e.fb s l).map (fclassEl (fmtOfTy e.ty)))))
/-- `fmov` (Table 4.6). -/
def execFmov (o : Operands) (s : State) := issue (.fmov o) s (fun e s => s.perWord e (fun l => ofElems e.ty (e.fb s l)))
/-- `frnd` (R114). -/
def execFrnd (o : Operands) (s : State) := issue (.frnd o) s (fun e s => s.fop e (fun f m _ b _ => frndEl f m b))
/-- `fscale` (R110): B is an integer. -/
def execFscale (o : Operands) (s : State) :=
  issue (.fscale o) s (fun e s => s.perLane e (fun l =>
    packResults 0 [fscaleEl e.rm ((e.fa s l).getD 0 0) (e.b s l)]))
/-- `fgetx` (R114). -/
def execFgetx (o : Operands) (s : State) :=
  issue (.fgetx o) s (fun e s => s.perLane e (fun l =>
    let r := fgetxEl ((e.fb s l).getD 0 0)
    ([r.1], r.2)))
/-- `fdot2` (R115): C is an f32. -/
def execFdot2 (o : Operands) (s : State) :=
  issue (.fdot2 o) s (fun e s => s.perLane e (fun l =>
    let c := fmtF32.signMod e.o.xm 14 (e.word s .f32 e.o.c l).toNat
    packResults 0 [fdot2El (fmtOfTy e.ty) e.rm (e.fa s l) (e.fb s l) c]))
/-- `fclamp` (R111). -/
def execFclamp (o : Operands) (s : State) := issue (.fclamp o) s (fun e s => s.fop e (fun f _ a b c => fclampEl f a b c))
/-- `fminmag` (R111). -/
def execFminmag (o : Operands) (s : State) :=
  issue (.fminmag o) s (fun e s => s.fop e (fun f _ a b _ => f.minMaxMag false a b))
/-- `fmaxmag` (R111). -/
def execFmaxmag (o : Operands) (s : State) :=
  issue (.fmaxmag o) s (fun e s => s.fop e (fun f _ a b _ => f.minMaxMag true a b))
/-- `ffrac` (R110). -/
def execFfrac (o : Operands) (s : State) := issue (.ffrac o) s (fun e s => s.fop e (fun f _ _ b _ => ffracEl f b))

end Sys2Proof.Machine
end

