-- ==== Sys2Proof/Machine/CrossLane.lean ====
section
/-! DEFINITION. Cross-lane instructions (spec/08_cross_lane_instructions.md R189 to R203). The participants are the lanes
of the issuing set whose predicate is true; a group is those of one tile. -/

namespace Sys2Proof.Machine

/-- The group G(l), ascending (R189). -/
def Env.group (e : Env) (l : Nat) : List Nat := e.p.filter (fun m => m / e.w.tileSize == l / e.w.tileSize)
/-- %tlane of a lane. -/
def Env.tpos (e : Env) (l : Nat) : Nat := l % e.w.tileSize
/-- The lane at a position of the tile of l. -/
def Env.tlaneAt (e : Env) (l u : Nat) : Nat := l / e.w.tileSize * e.w.tileSize + u
/-- The fallback of R189; z selects 0. -/
def Env.fallback (e : Env) (s : State) (z : Bool) (l : Nat) : Word := if z then 0 else e.a s l
/-- Bit K of B in a lane (Table 8.1). -/
def Env.kbit (e : Env) (s : State) (l : Nat) : Bool := (e.b s l).getLsbD (bitsOf e.o.xm 0 5)

/-- vote (R192). -/
def voteWord (e : Env) (s : State) (l : Nat) : Word :=
  let g := e.group l
  let yes := g.filter (e.kbit s)
  match e.o.mods 0 3 with
  | 0 => BitVec.ofNat 32 (maskOf yes)
  | 1 => if yes.length == g.length then 1 else 0
  | 2 => if yes.isEmpty then 0 else 1
  | 3 => if g.all (fun m => e.b s m == e.b s l) then 1 else 0
  | _ => BitVec.ofNat 32 yes.length

/-- The lane elect and bcast choose (R193). -/
def Env.chosen (e : Env) (l : Nat) : Nat :=
  if e.o.modBit 0 then (e.group l).getLastD l else (e.group l).headD l

/-- The source position of shf, when it is in range (R194). -/
def shfSource (sm t size b : Nat) : Option Nat :=
  match sm with
  | 0 => some (b % size)
  | 1 => if b ≤ t then some (t - b) else none
  | 2 => if t + b < size then some (t + b) else none
  | _ => if Nat.xor t b < size then some (Nat.xor t b) else none

/-- shf (R194). -/
def shfWord (e : Env) (s : State) (l : Nat) : Word :=
  match shfSource (e.o.mods 0 2) (e.tpos l) e.w.tileSize (e.b s l).toNat with
  | some u => if (e.group l).contains (e.tlaneAt l u) then e.a s (e.tlaneAt l u) else e.fallback s (e.o.modBit 2) l
  | none => e.fallback s (e.o.modBit 2) l

/-- prm (R195). -/
def prmWord (e : Env) (s : State) (l : Nat) : Word :=
  match (e.group l).find? (fun m => (e.b s m).toNat % e.w.tileSize == e.tpos l) with
  | some m => e.a s m
  | none => e.fallback s (e.o.modBit 0) l

/-- cmpct (R196). -/
def cmpctWord (e : Env) (s : State) (l : Nat) : Word :=
  match ((e.group l).filter (e.kbit s))[e.tpos l]? with
  | some m => e.a s m
  | none => e.fallback s (e.o.modBit 0) l

/-- rank (R197). -/
def rankWord (e : Env) (s : State) (l : Nat) : Word :=
  BitVec.ofNat 32 ((e.group l).filter (fun m =>
    decide (m < l) && (if e.o.modBit 0 then e.b s m == e.b s l else e.kbit s m))).length

/-- Whether two keys match (R198). -/
def keysMatch (f32 : Bool) (x y : Word) : Bool :=
  if f32 then
    let a := fmtF32.decode x.toNat
    let b := fmtF32.decode y.toNat
    x == y || (a.isNan && b.isNan) || (a.isZero && b.isZero)
  else x == y

/-- match (R198). -/
def matchWord (e : Env) (s : State) (l : Nat) : Word :=
  let f32 := e.o.mods 0 2 == 1
  let ty : OpTy := if f32 then .f32 else .int
  let key (m : Nat) : Word := e.word s ty e.o.b m
  let g := (e.group l).filter (fun m => keysMatch f32 (key m) (key l))
  if e.o.modBit 2 then (if g == e.group l then 1 else 0) else BitVec.ofNat 32 (maskOf g)

/-- step(x, y) of Table 8.3 with its flags. -/
def combineStep (op : Nat) (x y : Word) : Word × BitVec 6 :=
  let f32 (r : FRes) : Word × BitVec 6 := (BitVec.ofNat 32 r.bits, r.fl)
  match op with
  | 0 => (x + y, 0)
  | 1 => f32 (faddEl fmtF32 rmRn x.toNat y.toNat)
  | 2 =>
    let lo := faddEl fmtF16 rmRn (x.toNat % 2 ^ 16) (y.toNat % 2 ^ 16)
    let hi := faddEl fmtF16 rmRn (x.toNat / 2 ^ 16) (y.toNat / 2 ^ 16)
    (BitVec.ofNat 32 (lo.bits + hi.bits * 2 ^ 16), lo.fl ||| hi.fl)
  | 3 => (if y.toInt < x.toInt then y else x, 0)
  | 4 => (if y.toNat < x.toNat then y else x, 0)
  | 5 => (if x.toInt < y.toInt then y else x, 0)
  | 6 => (if x.toNat < y.toNat then y else x, 0)
  | 7 => f32 (fmtF32.minMax false x.toNat y.toNat)
  | 8 => f32 (fmtF32.minMax true x.toNat y.toNat)
  | 9 => (x &&& y, 0)
  | 10 => (x ||| y, 0)
  | _ => (x ^^^ y, 0)

/-- Identity of Table 8.3. -/
def combineIdentity (op : Nat) : Word :=
  match op with
  | 3 => 0x7FFFFFFF
  | 4 => 0xFFFFFFFF
  | 5 => 0x80000000
  | 7 => 0x7F800000
  | 8 => 0xFF800000
  | 9 => 0xFFFFFFFF
  | _ => 0

/-- Type in which the values of an operation are read (R18, R191). -/
def combineTy (op : Nat) : OpTy :=
  match op with
  | 1 => .f32
  | 2 => .f16
  | 7 => .f32
  | 8 => .f32
  | _ => .int

/-- The chain of R200 over values, left to right, with the flags of its steps. -/
def chain (op : Nat) : List Word → Word × BitVec 6
  | [] => (combineIdentity op, 0)
  | x :: xs => xs.foldl (fun c y =>
      let r := combineStep op c.1 y
      (r.1, c.2 ||| r.2)) (x, 0)

/-- The elements of a group that a scan combines for lane l: those of its segment up to it, without it under .ex. heads
tells which lanes start a segment. -/
def scanLanes (g : List Nat) (heads : Nat → Bool) (ex : Bool) (l : Nat) : List Nat :=
  let upTo := g.filter (fun m => decide (m ≤ l))
  let start := ((upTo.filter heads).getLastD 0)
  upTo.filter (fun m => decide (start ≤ m) && (!ex || m != l))

/-- A scan in each lane (R200). -/
def State.scanBy (s : State) (e : Env) (heads : Nat → Bool) : State :=
  let op := e.o.mods 0 4
  s.perLane e (fun l =>
    let r := chain op ((scanLanes (e.group l) heads (e.o.modBit 4) l).map (e.word s (combineTy op) e.o.b))
    ([r.1], r.2))

/-- Code of PART.SIZE for a tile size (Table 1.4). -/
def partCode (b : Word) : Option (BitVec 3) :=
  match b.toNat with
  | 2 => some 1
  | 4 => some 2
  | 8 => some 3
  | 16 => some 4
  | 32 => some 5
  | _ => none

/-- Whether part succeeds, with the new code (R201). -/
def Env.partNew (e : Env) (s : State) : Option (BitVec 3) :=
  let b := e.b s e.elected
  if e.p.all (fun l => e.b s l == b) && e.p == e.w.liveLanes then partCode b else none

/-- `vote` (R192). -/
def execVote (o : Operands) (s : State) := issue (.vote o) s (fun e s => s.perWord e (voteWord e s))
/-- `elect` (R193). -/
def execElect (o : Operands) (s : State) :=
  issue (.elect o) s (fun e s => s.perWord e (fun l => if e.chosen l == l then 1 else 0))
/-- `bcast` (R193). -/
def execBcast (o : Operands) (s : State) := issue (.bcast o) s (fun e s => s.perWord e (fun l => e.b s (e.chosen l)))
/-- `shf` (R194). -/
def execShf (o : Operands) (s : State) := issue (.shf o) s (fun e s => s.perWord e (shfWord e s))
/-- `prm` (R195). -/
def execPrm (o : Operands) (s : State) := issue (.prm o) s (fun e s => s.perWord e (prmWord e s))
/-- `match` (R198). -/
def execMatchKeys (o : Operands) (s : State) := issue (.matchKeys o) s (fun e s => s.perWord e (matchWord e s))
/-- `red` (R200). -/
def execRed (o : Operands) (s : State) :=
  issue (.red o) s (fun e s => s.perLane e (fun l =>
    let r := chain (e.o.mods 0 4) ((e.group l).map (e.word s (combineTy (e.o.mods 0 4)) e.o.b))
    ([r.1], r.2)))
/-- `scan` (R200). -/
def execScan (o : Operands) (s : State) := issue (.scan o) s (fun e s => s.scanBy e (fun _ => false))
/-- `sscan` (R200): head flags in bit K of A, which is read as an integer whatever OP's type (DESIGN CHOICE, assumption log
24). -/
def execSscan (o : Operands) (s : State) :=
  issue (.sscan o) s (fun e s => s.scanBy e (fun m => (e.a s m).getLsbD (bitsOf e.o.xm 0 5)))
/-- `rank` (R197). -/
def execRank (o : Operands) (s : State) := issue (.rank o) s (fun e s => s.perWord e (rankWord e s))
/-- `cmpct` (R196). -/
def execCmpct (o : Operands) (s : State) := issue (.cmpct o) s (fun e s => s.perWord e (cmpctWord e s))
/-- `part` (R201). -/
def execPart (o : Operands) (s : State) :=
  issue (.part o) s (fun e s =>
    match e.partNew s with
    | some code => (s.perWord e (fun _ => BitVec.ofNat 32 e.w.tileSize)).modWarp e.c.wid (fun w => { w with part := code })
    | none => s.perWord e (fun _ => 0))
/-- `lsel` (R202). -/
def execLsel (o : Operands) (s : State) :=
  issue (.lsel o) s (fun e s => s.perWord e (fun l => if (e.b s l).getLsbD l then e.a s l else e.cc s l))

end Sys2Proof.Machine
end

