-- ==== Sys2Proof/Machine/SmallMatrix.lean ====
section
/-! DEFINITION. Small matrices in registers (spec/05_small_matrices.md R141 to R155). Every step is an FP32 operation
rounded to nearest (R144); the flags of the steps are united. -/

namespace Sys2Proof.Machine

/-- A value formed so far with the flags of the steps that formed it. -/
abbrev FAcc := Nat × BitVec 6

/-- The helpers of R144. -/
def mulAcc (fl : BitVec 6) (x y : Nat) : FAcc :=
  let r := fmulEl fmtF32 rmRn x y
  (r.bits, fl ||| r.fl)
def addAcc (fl : BitVec 6) (x y : Nat) : FAcc :=
  let r := faddEl fmtF32 rmRn x y
  (r.bits, fl ||| r.fl)
def fmaAcc (x y : Nat) (z : FAcc) : FAcc :=
  let r := fmaEl fmtF32 rmRn x y z.1
  (r.bits, z.2 ||| r.fl)
def divAcc (fl : BitVec 6) (x y : Nat) : FAcc :=
  let r := fmtF32.divVals rmRn (fmtF32.decode x) (fmtF32.decode y)
  (r.bits, fl ||| r.fl)
def sqrtAcc (fl : BitVec 6) (x : Nat) : FAcc :=
  let r := fmtF32.sqrtVal rmRn (fmtF32.decode x)
  (r.bits, fl ||| r.fl)

/-- A matrix: encodings in row-major order (R24). -/
abbrev Mat := List Nat
/-- Element (i, j) of a matrix of c columns. -/
def Mat.at (w : Mat) (c i j : Nat) : Nat := w.getD (i * c + j) 0
/-- Replace element (i, j). -/
def Mat.put (w : Mat) (c i j v : Nat) : Mat := w.set (i * c + j) v
/-- The positions of an m × n matrix in row-major order. -/
def positions (m n : Nat) : List (Nat × Nat) := (List.range m).flatMap (fun i => (List.range n).map (fun j => (i, j)))

/-- A result matrix with the flags of its steps. -/
def buildMat (m n : Nat) (f : BitVec 6 → Nat → Nat → FAcc) : Mat × BitVec 6 :=
  (positions m n).foldl (fun acc p =>
    let r := f acc.2 p.1 p.2
    (acc.1 ++ [r.1], acc.2 ||| r.2)) ([], 0)

/-- A negated encoding when the condition holds (R144). -/
def negIf (c : Bool) (x : Nat) : Nat := if c then negF x else x

/-- smx.mul and smx.mad (R148): the addend is none for smx.mul. -/
def smxProduct (m n k : Nat) (ta tb neg : Bool) (a b : Mat) (addend : Option Mat) : Mat × BitVec 6 :=
  let ael (i t : Nat) : Nat := if ta then a.at m t i else a.at k i t
  let bel (t j : Nat) : Nat := if tb then b.at k j t else b.at n t j
  buildMat m n (fun fl i j =>
    let first : FAcc × Nat :=
      match addend with
      | some e => ((e.at n i j, fl), 0)
      | none => (mulAcc fl (ael i 0) (bel 0 j), 1)
    ((List.range k).drop first.2).foldl (fun z t => fmaAcc (negIf neg (ael i t)) (bel t j) z) first.1)

/-- A factorisation under way: matrix, flags, status bits, first bad pivot, row permutation. -/
structure Factor where
  w : Mat
  fl : BitVec 6 := 0
  st : Nat := 0
  first : Option Nat := none
  perm : List Nat := []
  deriving DecidableEq, Repr

/-- The status word (Table 5.3). -/
def Factor.status (f : Factor) : Nat :=
  f.st ||| (match f.first with
    | some j => j * 2 ^ 8
    | none => 0)

/-- A pivot is recorded as bad with a status bit. -/
def Factor.markBad (f : Factor) (j bit : Nat) : Factor :=
  { f with st := f.st ||| bit, first := some (f.first.getD j) }

/-- Row i below pivot j of a Cholesky column (R152). -/
def cholRow (n : Nat) (a : Mat) (j : Nat) (f : Factor) (i : Nat) : Factor :=
  let z := (List.range j).foldl (fun z k => fmaAcc (negF (f.w.at n i k)) (f.w.at n j k) z) (a.at n i j, f.fl)
  let q := divAcc z.2 z.1 (f.w.at n j j)
  { f with w := f.w.put n i j q.1, fl := q.2 }

/-- Column j of smx.chol (R152). -/
def cholCol (n : Nat) (a : Mat) (f : Factor) (j : Nat) : Factor :=
  let d := (List.range j).foldl (fun z k => fmaAcc (negF (f.w.at n j k)) (f.w.at n j k) z) (a.at n j j, f.fl)
  let f := { f with fl := d.2 }
  if isNanF d.1 then { f.markBad j 4 with w := f.w.put n j j 0x3F800000 }
  else if leF d.1 0 then { f.markBad j 1 with w := f.w.put n j j 0x3F800000 }
  else
    let r := sqrtAcc f.fl d.1
    ((List.range n).drop (j + 1)).foldl (cholRow n a j) { f with w := f.w.put n j j r.1, fl := r.2 }

/-- smx.chol (R152). -/
def smxCholesky (n : Nat) (a : Mat) : Factor :=
  let f := (List.range n).foldl (cholCol n a) { w := List.replicate (n * n) 0 }
  if (positions n n).any (fun p => decide (p.2 ≤ p.1) && isNanF (a.at n p.1 p.2)) then { f with st := f.st ||| 4 } else f

/-- key(x) of R153: a strictly greater magnitude; a NaN is below every number. -/
def keyLt (x y : Nat) : Bool :=
  if isNanF y then false else if isNanF x then true else ltF (fmtF32.clearSign x) (fmtF32.clearSign y)

/-- Swap two elements of a list. -/
def swapAt (xs : List Nat) (i j : Nat) : List Nat := (xs.set i (xs.getD j 0)).set j (xs.getD i 0)

/-- Row i below pivot j of smx.lu, with multiplier and update (R153). -/
def luRow (n j q : Nat) (f : Factor) (i : Nat) : Factor :=
  let m := divAcc f.fl (f.w.at n i j) q
  ((List.range n).drop (j + 1)).foldl (fun f k =>
    let z := fmaAcc (negF m.1) (f.w.at n j k) (f.w.at n i k, f.fl)
    { f with w := f.w.put n i k z.1, fl := z.2 }) { f with w := f.w.put n i j m.1, fl := m.2 }

/-- Column j of smx.lu (R153). -/
def luCol (n : Nat) (f : Factor) (j : Nat) : Factor :=
  let r := ((List.range n).drop (j + 1)).foldl (fun r i => if keyLt (f.w.at n r j) (f.w.at n i j) then i else r) j
  let rows (w : Mat) : Mat := (List.range n).foldl (fun w k => swapAt w (r * n + k) (j * n + k)) w
  let f := if r == j then f else { f with perm := swapAt f.perm r j, w := rows f.w }
  let q := f.w.at n j j
  let bad (f : Factor) (bit : Nat) : Factor :=
    let w := ((List.range n).drop (j + 1)).foldl (fun w i => Mat.put w n i j 0) (f.w.put n j j 0x3F800000)
    { f.markBad j bit with w := w }
  if isNanF q then bad f 4
  else if ltF (fmtF32.clearSign q) 0x00800000 then bad f 2
  else ((List.range n).drop (j + 1)).foldl (luRow n j q) f

/-- smx.lu (R153). -/
def smxLuFactor (n : Nat) (a : Mat) : Factor :=
  let f := (List.range n).foldl (luCol n) { w := a, perm := List.range n }
  if a.any isNanF then { f with st := f.st ||| 4 } else f

/-- The permutation word (R154). -/
def permWord (p : List Nat) : Nat := (List.range p.length).foldl (fun v i => v + p.getD i 0 * 2 ^ (3 * i)) 0

/-- Field i of a permutation operand (R154). -/
def permAt (v n i : Nat) : Nat := if v / 2 ^ (3 * i) % 8 < n then v / 2 ^ (3 * i) % 8 else i

/-- Forward substitution (R155). -/
def smxForward (n : Nat) (lu : Bool) (f : Mat) (y : List Nat × BitVec 6) : List Nat × BitVec 6 :=
  (List.range n).foldl (fun y i =>
    let z := (List.range i).foldl (fun z t => fmaAcc (negF (f.at n i t)) (y.1.getD t 0) z) (y.1.getD i 0, y.2)
    let q := if lu then z else divAcc z.2 z.1 (f.at n i i)
    (y.1.set i q.1, q.2)) y

/-- Back substitution (R155). -/
def smxBackward (n : Nat) (lu : Bool) (f : Mat) (y : List Nat × BitVec 6) : List Nat × BitVec 6 :=
  (List.range n).reverse.foldl (fun y i =>
    let z := ((List.range n).drop (i + 1)).foldl (fun z t =>
      fmaAcc (negF (if lu then f.at n i t else f.at n t i)) (y.1.getD t 0) z) (y.1.getD i 0, y.2)
    let q := divAcc z.2 z.1 (f.at n i i)
    (y.1.set i q.1, q.2)) y

/-- smx.sol (R155): form 0 .chol, 1 .lu, 2 .fwd, 3 .bwd; perm is the permutation operand. -/
def smxSolve (n cols form perm : Nat) (f b : Mat) : Mat × BitVec 6 :=
  (List.range cols).foldl (fun acc c =>
    let y := (List.range n).map (fun i => b.at cols (if form == 1 then permAt perm n i else i) c)
    let y1 := if form == 3 then (y, acc.2) else smxForward n (form == 1) f (y, acc.2)
    let y2 := if form == 2 then y1 else smxBackward n (form == 1) f y1
    ((List.range n).foldl (fun w i => Mat.put w cols i c (y2.1.getD i 0)) acc.1, y2.2))
    (List.replicate (n * cols) 0, 0)

/-- A window of the instruction as a matrix. -/
def Env.mat (e : Env) (s : State) (x : Operand) (n l : Nat) : Mat := (e.words s n false x l).map (·.toNat)
/-- A scalar operand, f32 (R146). -/
def Env.scalar (e : Env) (s : State) (l : Nat) : Nat := (e.word s .f32 e.o.smxB l).toNat

/-- Write a matrix to D, then words to the registers named by the immediate's B and E fields (R141). -/
def State.smxResult (s : State) (e : Env) (f : Nat → Mat × BitVec 6 × List Word × List Word) : State :=
  s.modWarp e.c.wid (fun w => e.p.foldl (fun w l =>
    let r := f l
    w.modLane l (fun x =>
      { ((x.writeDst e.o.d (r.1.map (BitVec.ofNat 32))).writeDst e.o.smxB r.2.2.1).writeDst e.o.smxE r.2.2.2 with
        fpx := x.fpx ||| r.2.1 })) w)

/-- A matrix result alone. -/
def State.smxMatrix (s : State) (e : Env) (f : Nat → Mat × BitVec 6) : State :=
  s.perLane e (fun l => ((f l).1.map (BitVec.ofNat 32), (f l).2))

/-- The sources of a product. -/
def State.smxMulAdd (s : State) (e : Env) (mad : Bool) : State :=
  let m := e.o.smxM
  let n := e.o.smxN
  let k := e.o.smxK
  s.smxMatrix e (fun l =>
    smxProduct m n k (e.o.modBit 0) (e.o.modBit 1) (e.o.modBit 2) (e.mat s e.o.a (m * k) l) (e.mat s e.o.smxB (k * n) l)
      (if mad then some (e.mat s e.o.smxE (m * n) l) else none))

/-- `smx.mul` (R148). -/
def execSmxMul (o : Operands) (s : State) := issue (.smxMul o) s (fun e s => s.smxMulAdd e false)
/-- `smx.mad` (R148). -/
def execSmxMad (o : Operands) (s : State) := issue (.smxMad o) s (fun e s => s.smxMulAdd e true)
/-- `smx.add` (R149). -/
def execSmxAdd (o : Operands) (s : State) :=
  issue (.smxAdd o) s (fun e s =>
    let m := e.o.smxM
    let n := e.o.smxN
    s.smxMatrix e (fun l =>
      let a := e.mat s e.o.a (m * n) l
      let b := e.mat s e.o.smxB (m * n) l
      buildMat m n (fun fl i j =>
        addAcc fl (a.at n i j) (negIf (e.o.modBit 2) (if e.o.modBit 1 then b.at m j i else b.at n i j)))))
/-- `smx.scl` (R149). -/
def execSmxScl (o : Operands) (s : State) :=
  issue (.smxScl o) s (fun e s =>
    let n := e.o.smxN
    s.smxMatrix e (fun l =>
      let a := e.mat s e.o.a (e.o.smxM * n) l
      buildMat e.o.smxM n (fun fl i j => mulAcc fl (negIf (e.o.modBit 2) (a.at n i j)) (e.scalar s l))))
/-- `smx.tr` (R150). -/
def execSmxTr (o : Operands) (s : State) :=
  issue (.smxTr o) s (fun e s =>
    s.smxMatrix e (fun l =>
      let a := e.mat s e.o.a (e.o.smxM * e.o.smxN) l
      buildMat e.o.smxN e.o.smxM (fun fl j i => (a.at e.o.smxN i j, fl))))
/-- `smx.sym` (R150): MOD 0 = .lo. -/
def execSmxSym (o : Operands) (s : State) :=
  issue (.smxSym o) s (fun e s =>
    let n := e.o.smxN
    s.smxMatrix e (fun l =>
      let a := e.mat s e.o.a (n * n) l
      buildMat n n (fun fl i j =>
        if e.o.modBit 0 then (a.at n (max i j) (min i j), fl)
        else if i == j then (a.at n i i, fl)
        else
          let t := addAcc fl (a.at n (min i j) (max i j)) (a.at n (max i j) (min i j))
          mulAcc t.2 t.1 0x3F000000)))
/-- `smx.id` (R150). -/
def execSmxId (o : Operands) (s : State) :=
  issue (.smxId o) s (fun e s =>
    s.smxMatrix e (fun l => buildMat e.o.smxM e.o.smxN (fun fl i j => (if i == j then e.scalar s l else 0, fl))))
/-- `smx.chol` (R152). -/
def execSmxChol (o : Operands) (s : State) :=
  issue (.smxChol o) s (fun e s =>
    s.smxResult e (fun l =>
      let f := smxCholesky e.o.smxN (e.mat s e.o.a (e.o.smxN * e.o.smxN) l)
      (f.w, f.fl, [], [BitVec.ofNat 32 f.status])))
/-- `smx.lu` (R153). -/
def execSmxLu (o : Operands) (s : State) :=
  issue (.smxLu o) s (fun e s =>
    s.smxResult e (fun l =>
      let f := smxLuFactor e.o.smxN (e.mat s e.o.a (e.o.smxN * e.o.smxN) l)
      (f.w, f.fl, [BitVec.ofNat 32 (permWord f.perm)], [BitVec.ofNat 32 f.status])))
/-- `smx.sol` (R155). -/
def execSmxSol (o : Operands) (s : State) :=
  issue (.smxSol o) s (fun e s =>
    let n := e.o.smxM
    s.smxMatrix e (fun l =>
      smxSolve n e.o.smxN (e.o.mods 0 2) (e.word s .int e.o.smxE l).toNat (e.mat s e.o.a (n * n) l)
        (e.mat s e.o.smxB (n * e.o.smxN) l)))

end Sys2Proof.Machine
end

