-- ==== Sys2Proof/Machine/Memory.lean ====
section
/-! DEFINITION. Memory, spill-stack, atomic and wait instructions (spec/11_memory_instructions.md R253 to R272; R156, R157)
and the shared form of every instruction that may suspend after its request (R216 to R224). -/

namespace Sys2Proof.Machine

/-- What came of making an instruction's accesses: the state, what is still waited for, the register writes that
follow at once or at resumption, and lanes that trap instead. -/
structure Try where
  s : State
  wait : Option Wait := none
  ws : List RegWrite := []
  traps : List LaneTrap := []
  deriving DecidableEq, Repr

/-- The type in which A is read (R18): f32 for the f32 operations of atm, whose OP is 1, 6 or 7 (Table 11.3). -/
def aType (i : Instr) : OpTy :=
  let op := i.operands.mods 0 4
  if i.opcode == 0x248 && (op == 1 || op == 6 || op == 7) then .f32 else .int

/-- The operand words a lane hands to a record: na words of A, nb of B, nc of C, nd of D. -/
def Env.valsOf (e : Env) (s : State) (na nb nc nd : Nat) (l : Nat) : LaneVals :=
  { lane := l
    a := if na == 0 then [] else if na == 1 then [e.word s (aType e.i) e.o.a l] else e.words s na false e.o.a l
    b := if nb == 0 then [] else e.words s nb false e.o.b l
    c := if nc == 0 then [] else e.words s nc false e.o.c l
    d := if nd == 0 then [] else e.words s nd false e.o.d l }

/-- Word k of the operand words of a lane. -/
def LaneVals.a0 (v : LaneVals) : Word := v.a.headD 0
def LaneVals.b0 (v : LaneVals) : Word := v.b.headD 0
def LaneVals.c0 (v : LaneVals) : Word := v.c.headD 0

/-- Finish an instruction whose accesses were tried: write its results, or suspend its lanes after it. The room for the
record is tested on the state before any effect (R222). -/
def State.complete (s : State) (e : Env) (x : Suspension) (t : Try) : State :=
  match t.wait with
  | none => t.s.writeRegs e.c.wid t.ws
  | some w =>
    match s.suspend? e { x with wait := w } with
    | none => s.raiseAll e x.lanes 0x20 0 0
    | some _ => t.s.suspend e { x with wait := w, results := t.ws }

/-- The displacement of an address (R254). -/
def dispOf (o : Operands) : Int := toSigned (bitsOf o.xm 0 16) 16

/-- The offset an address operand forms (R254). -/
def offsetOf (o : Operands) (b : Word) : Nat := (((b.toNat : Int) + dispOf o) % 2 ^ 32).toNat

/-- Lanes whose access of z bytes passes R254, and the traps of the others. -/
def State.checkLanes (s : State) (e : Env) (shared : Bool) (z : Nat) (off : Nat → Nat) : List Nat × List LaneTrap :=
  (e.p.filter (fun l => s.checkAccess e.w shared (off l) z z == 0),
   (e.p.filter (fun l => s.checkAccess e.w shared (off l) z z != 0)).map (fun l =>
     { lane := l, code := s.checkAccess e.w shared (off l) z z, faddr := off l }))

/-- Owned lines among accesses of z bytes at offsets (R238). -/
def State.blockers (s : State) (w : Warp) (shared : Bool) (z : Nat) (offs : List Nat) : List LineKey :=
  (offs.flatMap (fun o => s.ownedLines w shared o z)).eraseDups

/-- Lines of the frame of a task warp (R328). -/
def State.frameLines (s : State) (w : Warp) : List Nat :=
  if w.kind == .task then linesOf (s.spaceAddr w false (w.tcb.toNat + 64)) (64 * w.frame) else []

/-- A core's scratchpad cache holds a line (R212): one filled, or one of the frame of a task on that core (R328). -/
def State.holdsLine (s : State) (die core line : Nat) : Bool :=
  (s.core die core).spadLines.contains line || (s.warpsOn die core).any (fun w => (s.frameLines w).contains line)

/-- Lines of accesses that the core's scratchpad cache does not hold (R212). -/
def State.missing (s : State) (w : Warp) (z : Nat) (offs : List Nat) : List Nat :=
  ((offs.flatMap (fun o => linesOf (s.spaceAddr w false o) z)).filter (fun k => !s.holdsLine w.die w.core k)).eraseDups

/-- Opcodes that store or are atomic, which ISS and PRF count (R244). -/
def isStoreOp (opc : Nat) : Bool := opc == 0x241 || opc == 0x243 || opc == 0x248 || opc == 0x249 || opc == 0x1EB

/-- A store or atomic that was issued and has not been made. -/
def Record.unmade (r : Record) : Bool :=
  r.state == .waiting && !r.before && isStoreOp r.opc &&
    (match r.wait with
     | .lines _ => true
     | .det _ _ _ => true
     | _ => false)

/-- How many of a warp's stores and atomics have been made (R244). -/
def Warp.made (w : Warp) : Nat := w.iss - (w.records.filter Record.unmade).length

/-- A store or atomic is issued: ISS counts it (R244). -/
def State.noteStore (s : State) (wid : Nat) : State := s.modWarp wid (fun w => { w with iss := w.iss + 1 })

/-- The bytes of a loaded register image (Table 11.2). -/
def loadImage (sz : Nat) (bs : List Byte) : List Word :=
  let v := bytesToNat bs
  match sz with
  | 2 => [BitVec.ofInt 32 (toSigned v 8)]
  | 4 => [BitVec.ofInt 32 (toSigned v 16)]
  | _ => (List.range (szRegs sz)).map (fun k => BitVec.ofNat 32 (v / 2 ^ (32 * k)))

/-- The bytes a store takes from its data words (Table 11.2). -/
def storeBytes (sz : Nat) (ws : List Word) : List Byte := (ws.flatMap (fun w => natToBytes 4 w.toNat)).take (szBytes sz)

/-- The loads of given lanes (R258): they wait for owned lines, and for missing lines of the scratchpad. -/
def loadTry (i : Instr) (shared : Bool) (s : State) (w : Warp) (vs : List LaneVals) : Try :=
  let o := i.operands
  let sz := o.mods 0 3
  let z := szBytes sz
  let offs := vs.map (fun v => offsetOf o v.b0)
  let ks := s.blockers w shared z offs
  let ms := if shared then [] else s.missing w z offs
  if !ks.isEmpty then { s := s, wait := some (.lines ks) }
  else if !ms.isEmpty then { s := s, wait := some (.fill ms) }
  else
    { s := s
      ws := vs.flatMap (fun v =>
        dstWrites v.lane o.d (loadImage sz (s.spaceBytes (w.space shared) (s.spaceAddr w shared (offsetOf o v.b0)) z))) }

/-- The stores of given lanes, in ascending order (R258); n is their place among the warp's stores. -/
def storeTry (i : Instr) (shared : Bool) (n : Nat) (s : State) (w : Warp) (vs : List LaneVals) : Try :=
  let o := i.operands
  let sz := o.mods 0 3
  let ks := s.blockers w shared (szBytes sz) (vs.map (fun v => offsetOf o v.b0))
  if !ks.isEmpty then { s := s, wait := some (.lines ks) }
  else
    { s := vs.foldl (fun s v =>
        s.spaceWrite (w.space shared) (s.spaceAddr w shared (offsetOf o v.b0)) (storeBytes sz v.a) (some (w.wid, n))) s }

/-- Lanes whose access by an H form passes R254, and the traps of the others. -/
def State.hLanes (s : State) (e : Env) : List Nat × List LaneTrap :=
  let opc := e.i.opcode
  if e.o.form == .h && (opc == 0x240 || opc == 0x241) then
    s.checkLanes e true (szBytes (e.o.mods 0 3)) (fun l => offsetOf e.o (e.b s l))
  else ([], [])

/-- The owned lines that an H form meets in its lanes (R256). -/
def State.hBlockers (s : State) (e : Env) : List LineKey :=
  s.blockers e.w true (szBytes (e.o.mods 0 3)) ((s.hLanes e).1.map (fun l => offsetOf e.o (e.b s l)))

/-- Suspend a whole issuing set before its instruction until lines are released (R216); bad are lanes that would trap. -/
def State.suspendBefore (s : State) (e : Env) (ks : List LineKey) (bad : List LaneTrap) : State :=
  s.suspendOr e { lanes := e.c.lanes, before := true, wait := .lines ks } bad

/-- A load instruction (R258). -/
def State.loadInstr (s : State) (e : Env) (shared : Bool) : State :=
  let hs := s.hBlockers e
  if !hs.isEmpty then s.suspendBefore e hs (s.hLanes e).2
  else
    let g := s.checkLanes e shared (szBytes (e.o.mods 0 3)) (fun l => offsetOf e.o (e.b s l))
    let vs := g.1.map (e.valsOf s 0 1 0 0)
    let s' := if g.1.isEmpty then s
      else s.complete e { lanes := g.1, wait := .nothing, ls := e.o.ls, vals := vs } (loadTry e.i shared s e.w vs)
    s'.raise e g.2

/-- A store instruction (R258). A scratchpad store of a DET launch is folded at its place in program order (R251). -/
def State.storeInstr (s : State) (e : Env) (shared : Bool) : State :=
  let hs := s.hBlockers e
  if !hs.isEmpty then s.suspendBefore e hs (s.hLanes e).2
  else
    let sz := e.o.mods 0 3
    let g := s.checkLanes e shared (szBytes sz) (fun l => offsetOf e.o (e.b s l))
    if g.1.isEmpty then s.raise e g.2
    else
      let vs := g.1.map (e.valsOf s (szRegs sz) 1 0 0)
      let x : Suspension := { lanes := g.1, wait := .nothing, ls := e.o.ls, vals := vs }
      let t := storeTry e.i shared (e.w.made + 1) s e.w vs
      let roomless := t.wait.isSome && (s.suspend? e { x with wait := .hold [] }).isNone
      let s1 := s.complete e x t
      let s2 := if roomless then s1
        else vs.foldl (fun s v =>
          if shared then s else s.foldStore e.c.wid (offsetOf e.o v.b0) (storeBytes sz v.a)) (s1.noteStore e.c.wid)
      s2.raise e g.2

/-- A byte offset read as a half. -/
def halfAt (bs : List Byte) (c : Nat) : Nat := fieldOf bs (2 * c) 2

/-- ldm.t on captured offsets (R259): the rows of tile i are those of lanes 16i to 16i + 15 that take part. -/
def ldmTry (i : Instr) (s : State) (w : Warp) (vs : List LaneVals) : Try :=
  let o := i.operands
  let n := o.mods 0 2 + 1
  let rows := vs.filter (fun v => decide (v.lane < 16 * n))
  let ks := s.blockers w true 32 (rows.map (fun v => offsetOf o v.b0))
  if !ks.isEmpty then { s := s, wait := some (.lines ks) }
  else
    let row (k : Nat) : List Byte :=
      match rows.find? (fun v => v.lane == k) with
      | some v => s.spaceBytes (w.space true) (offsetOf o v.b0) 32
      | none => List.replicate 32 0
    let tiles := (List.range (16 * n)).map row
    let el (i r c : Nat) : Nat := halfAt (tiles.getD (16 * i + r) []) c
    { s := s
      ws := vs.flatMap (fun v =>
        let c := v.lane % 16
        let h := v.lane / 16
        dstWrites v.lane o.d ((List.range n).flatMap (fun i => (List.range 4).map (fun k =>
          BitVec.ofNat 32 (el i (2 * (4 * h + k) + 1) c * 2 ^ 16 + el i (2 * (4 * h + k)) c))))) }

/-- Rows of ldm.t that fail their check, in order, with trap and offset (R260). -/
def State.ldmBad (s : State) (e : Env) : List (Nat × Nat) :=
  ((e.p.filter (fun l => decide (l < 16 * (e.o.mods 0 2 + 1)))).map (fun l =>
    let o := offsetOf e.o (e.b s l)
    (s.checkAccess e.w true o 32 32, o))).filter (fun x => x.1 != 0)

/-- The least of numbers, 0 for none. -/
def leastOf : List Nat → Nat
  | [] => 0
  | x :: xs => xs.foldl min x

/-- `ld.sh` (R258). -/
def execLdSh (o : Operands) (s : State) := issue (.ldSh o) s (fun e s => s.loadInstr e true)
/-- `st.sh` (R258). -/
def execStSh (o : Operands) (s : State) := issue (.stSh o) s (fun e s => s.storeInstr e true)
/-- `ld.sp` (R258). -/
def execLdSp (o : Operands) (s : State) := issue (.ldSp o) s (fun e s => s.loadInstr e false)
/-- `st.sp` (R258). -/
def execStSp (o : Operands) (s : State) := issue (.stSp o) s (fun e s => s.storeInstr e false)
/-- `ldm.t` (R259, R260). DESIGN CHOICE (assumption log 15): FADDR is the first row that fails with the reported code. -/
def execLdmT (o : Operands) (s : State) :=
  issue (.ldmT o) s (fun e s =>
    let bad := s.ldmBad e
    if e.p.isEmpty then s
    else if !bad.isEmpty then
      (let code := leastOf (bad.map (·.1))
       s.raiseAll e e.p code (((bad.find? (fun x => x.1 == code)).map (·.2)).getD 0) 0)
    else
      let vs := e.p.map (e.valsOf s 0 1 0 0)
      s.complete e { lanes := e.p, wait := .nothing, ls := e.o.ls, vals := vs } (ldmTry e.i s e.w vs))
/-- `ld.par` (R262). -/
def execLdPar (o : Operands) (s : State) :=
  issue (.ldPar o) s (fun e s => s.perWord e (fun l => e.w.args.getD (e.b s l).toNat 0))
/-- `pref.sp` (R263): no architectural effect. -/
def execPrefSp (o : Operands) (s : State) := issue (.prefSp o) s (fun _ s => s)

/-- The spill-stack word at offset o of a lane (R205, R206). -/
def Warp.spillWord (w : Warp) (o l : Nat) : Word := (w.spill.get (o / 4 * 32 + l)).setWidth 32
/-- Write a spill-stack word: bit 32 notes that it was written. -/
def Warp.setSpill (w : Warp) (o l : Nat) (v : Word) : Warp := { w with spill := w.spill.set (o / 4 * 32 + l) (1#1 ++ v) }

/-- A push of n words is in range (R206). -/
def Warp.canPush (w : Warp) (n : Nat) : Bool := decide (4 * n ≤ w.sps.toNat) && decide (w.sps.toNat ≤ 0x400)
/-- A pop of n words is in range (R206). -/
def Warp.canPop (w : Warp) (n : Nat) : Bool := decide (w.sps.toNat + 4 * n ≤ 0x400)

/-- Push words of lanes and move SPS once (R206). -/
def Warp.push (w : Warp) (n : Nat) (ls : List Nat) (f : Nat → List Word) : Warp :=
  let base := w.sps.toNat - 4 * n
  let w := ls.foldl (fun w l => (List.range n).foldl (fun w j => w.setSpill (base + 4 * j) l ((f l).getD j 0)) w) w
  { w with sps := BitVec.ofNat 32 base }

/-- `spl.push` (R264). -/
def execSplPush (o : Operands) (s : State) :=
  issue (.splPush o) s (fun e s =>
    let n := e.o.mods 0 3 + 1
    if e.p.isEmpty then s
    else if e.w.canPush n then s.modWarp e.c.wid (fun w => w.push n e.p (e.words s n false e.o.a))
    else s.raiseAll e e.p 0x13 0 0)
/-- `spl.pop` (R264). -/
def execSplPop (o : Operands) (s : State) :=
  issue (.splPop o) s (fun e s =>
    let n := e.o.mods 0 3 + 1
    if e.p.isEmpty then s
    else if e.w.canPop n then
      (s.writeDst e.c.wid e.p e.o.d (fun l => (List.range n).map (fun j => e.w.spillWord (e.w.sps.toNat + 4 * j) l))).modWarp
        e.c.wid (fun w => { w with sps := w.sps + BitVec.ofNat 32 (4 * n) })
    else s.raiseAll e e.p 0x13 0 0)
/-- The offset of spl.rd and its trap (R265). -/
def splOffset (e : Env) (s : State) (l : Nat) : Nat := (e.w.sps + e.b s l).toNat
def splTrap (o : Nat) : Nat := lowestTrap [(o % 4 != 0, 0x12), (decide (0x3FC < o), 0x13)]
/-- `spl.rd` (R265). -/
def execSplRd (o : Operands) (s : State) :=
  issue (.splRd o) s (fun e s =>
    let good := e.p.filter (fun l => splTrap (splOffset e s l) == 0)
    let bad := (e.p.filter (fun l => splTrap (splOffset e s l) != 0)).map (fun l =>
      ({ lane := l, code := splTrap (splOffset e s l) } : LaneTrap))
    (s.writeDst e.c.wid good e.o.d (fun l => [e.w.spillWord (splOffset e s l) l])).raise e bad)

/-- new := f(m, x) of Table 11.3. -/
def atmNew (op : Nat) (m x : Word) : Word :=
  match op with
  | 0 => m + x
  | 1 => BitVec.ofNat 32 (addRn m.toNat x.toNat)
  | 2 => if x.toInt < m.toInt then x else m
  | 3 => if x.toNat < m.toNat then x else m
  | 4 => if m.toInt < x.toInt then x else m
  | 5 => if m.toNat < x.toNat then x else m
  | 6 => BitVec.ofNat 32 (minF m.toNat x.toNat)
  | 7 => BitVec.ofNat 32 (maxF m.toNat x.toNat)
  | 8 => m &&& x
  | 9 => m ||| x
  | 10 => m ^^^ x
  | 11 => x
  | _ => if x.toNat ≤ m.toNat then 0 else m + 1

/-- A combining group (R267): old values of the lanes and the new word. The combination of the values so far is t. -/
def combineLanes (op : Nat) (m : Word) : List Word → List Word × Word
  | [] => ([], m)
  | x :: xs =>
    let r := xs.foldl (fun (acc : List Word × Word) y => (acc.1 ++ [atmNew op m acc.2], atmNew op acc.2 y)) ([m], x)
    (r.1, atmNew op m r.2)

/-- A sequential group (R267, R268): each step answers the new word and whether it wrote. -/
def sequentialLanes (m : Word) (steps : List (Word → Word × Bool)) : List Word × Word × Bool :=
  steps.foldl (fun (acc : List Word × Word × Bool) g =>
    let r := g acc.2.1
    (acc.1 ++ [acc.2.1], r.1, acc.2.2 || r.2)) ([], m, false)

/-- The lanes of an atomic grouped by offset, in order of the lowest lane (R267). -/
def groupBy {α : Type} [BEq α] (f : LaneVals → α) (vs : List LaneVals) : List (α × List LaneVals) :=
  vs.foldl (fun acc v =>
    if acc.any (fun g => g.1 == f v) then acc.map (fun g => if g.1 == f v then (g.1, g.2 ++ [v]) else g)
    else acc ++ [(f v, [v])]) []

/-- One group of an atomic on word m: old values, new word, whether anything was written. -/
def atomicGroup (i : Instr) (m : Word) (vs : List LaneVals) : List Word × Word × Bool :=
  let op := i.operands.mods 0 4
  if i.opcode == 0x249 then sequentialLanes m (vs.map (fun v y => if y == v.a0 then (v.c0, true) else (y, false)))
  else if op ≤ 10 then
    let r := combineLanes op m (vs.map (·.a0))
    (r.1, r.2, true)
  else sequentialLanes m (vs.map (fun v y => (atmNew op y v.a0, true)))

/-- Whether an atomic acts on shared memory: MOD 5 = .sp. -/
def atmShared (i : Instr) : Bool := !i.operands.modBit 5

/-- The offset of an atomic: the XM of atm.cas holds C, no displacement (R254, R268). -/
def atmOffset (i : Instr) (b : Word) : Nat := if i.opcode == 0x249 then b.toNat else offsetOf i.operands b

/-- Apply an atomic in given lanes (R267); n is its place among the warp's stores. A scratchpad word that a DET launch
writes is folded (R251). -/
def atomicApply (i : Instr) (n : Nat) (s : State) (w : Warp) (vs : List LaneVals) : Try :=
  let o := i.operands
  let shared := atmShared i
  (groupBy (fun v => atmOffset i v.b0) vs).foldl (fun t g =>
    let addr := t.s.spaceAddr w shared g.1
    let r := atomicGroup i (t.s.spaceWord (w.space shared) addr) g.2
    let s1 := t.s.spaceWriteNat (w.space shared) addr 4 r.2.1.toNat (some (w.wid, n))
    let s2 := if !shared && r.2.2 then s1.foldDet w.wid g.1 r.2.1.toNat else s1
    { s := s2
      ws := t.ws ++ (List.range g.2.length).flatMap (fun k =>
        dstWrites ((g.2.map (·.lane)).getD k 0) o.d [r.1.getD k 0]) }) { s := s }

/-- Whether an atomic is chained in a DET launch (R247). -/
def isChained (i : Instr) : Bool :=
  let o := i.operands
  o.d != .spc .zero || i.opcode == 0x249 || o.mods 0 4 == 1 || o.mods 0 4 == 11 || o.mods 0 4 == 12

/-- The accesses of an atomic (R269): owned lines first; a scratchpad atomic that writes a register is made and then
waits to be performed. -/
def atomicTry (i : Instr) (n : Nat) (s : State) (w : Warp) (vs : List LaneVals) : Try :=
  let o := i.operands
  let ks := s.blockers w (atmShared i) 4 (vs.map (fun v => atmOffset i v.b0))
  if !ks.isEmpty then { s := s, wait := some (.lines ks) }
  else
    let t := atomicApply i n s w vs
    if !atmShared i && o.d != .spc .zero then { t with wait := some (.atomic n) } else t

/-- How often a site of a warp was executed before (R248). -/
def Warp.executions (w : Warp) (pc idx : Nat) : Nat :=
  ((w.sites.find? (fun x => x.1 == pc && x.2.1 == idx)).map (·.2.2)).getD 0

/-- Count an execution of a site (R248). -/
def Warp.countSite (w : Warp) (pc idx : Nat) : Warp :=
  { w with sites := (pc, idx, w.executions pc idx + 1) :: w.sites.filter (fun x => !(x.1 == pc && x.2.1 == idx)) }

/-- An atomic instruction (R266 to R269). Nothing is done where its record finds no room (R222). -/
def State.atomicInstr (s : State) (e : Env) (nc : Nat) : State :=
  let shared := atmShared e.i
  let g := s.checkLanes e shared 4 (fun l => atmOffset e.i (e.b s l))
  let det := s.isDet e.w && isChained e.i
  let counted := if det && !e.p.isEmpty then s.modWarp e.c.wid (fun w => w.countSite e.c.pc e.c.idx) else s
  if g.1.isEmpty then counted.raise e g.2
  else
    let vs := g.1.map (e.valsOf s 1 1 nc 0)
    let x : Suspension := { lanes := g.1, wait := .nothing, ls := e.o.ls, vals := vs }
    let n := e.w.made + 1
    let t : Try := if det then
        { s := counted, wait := some (.det e.c.pc e.c.idx (e.w.executions e.c.pc e.c.idx + 1)) }
      else atomicTry e.i n s e.w vs
    let roomless := t.wait.isSome && (s.suspend? e { x with wait := .hold [] }).isNone
    let s1 := s.complete e x t
    (if roomless then s1 else s1.noteStore e.c.wid).raise e g.2

/-- `atm` (R266). -/
def execAtm (o : Operands) (s : State) := issue (.atm o) s (fun e s => s.atomicInstr e 0)
/-- `atm.cas` (R268): C is the new value. -/
def execAtmCas (o : Operands) (s : State) := issue (.atmCas o) s (fun e s => s.atomicInstr e 1)

/-- Status and value of wait.addr for lanes (R271). -/
def waitWrites (o : Operands) (vs : List LaneVals) (st : Nat) (w : Word) : List RegWrite :=
  vs.flatMap (fun v => dstWrites v.lane o.d [BitVec.ofNat 32 st, w])

/-- The read of wait.addr by lanes of one offset and value (R271 steps 1 to 4). -/
def waitTry (i : Instr) (s : State) (w : Warp) (vs : List LaneVals) : Try :=
  let o := i.operands
  let shared := o.modBit 5
  let off := ((vs.map (fun v => offsetOf o v.b0)).headD 0)
  let v := ((vs.map (·.a0)).headD 0)
  let ks := s.ownedLines w shared off 4
  if !ks.isEmpty then { s := s, wait := some (.lines ks) }
  else
    let addr := s.spaceAddr w shared off
    let x := s.spaceWord (w.space shared) addr
    if condHolds (o.mods 0 3) x v then { s := s, ws := waitWrites o vs 0 x }
    else if o.tmo == 0 then { s := s, ws := waitWrites o vs 1 x }
    else { s := s, wait := some (.word shared addr (o.mods 0 3) v none) }

/-- `wait.addr` (R270, R271): one record for each offset and compare value. -/
def execWaitAddr (o : Operands) (s : State) :=
  issue (.waitAddr o) s (fun e s =>
    let g := s.checkLanes e (e.o.modBit 5) 4 (fun l => offsetOf e.o (e.b s l))
    let groups := groupBy (fun v => (offsetOf e.o v.b0, v.a0)) (g.1.map (e.valsOf s 1 1 0 0))
    (groups.foldl (fun s x =>
      s.complete e { lanes := x.2.map (·.lane), wait := .nothing, ls := e.o.ls, tmo := e.o.tmo
                     event := x.1.1, vals := x.2 } (waitTry e.i s e.w x.2)) s).raise e g.2)

/-- Byte addresses of the elements of a shared window, in row-major order (R156). -/
def smxAddrs (o : Operands) (base stride : Word) : List Nat :=
  let es := if o.modBit 0 then stride.toNat % 2 ^ 16 else 4
  let rs := if o.modBit 0 then stride.toNat / 2 ^ 16 else 4 * o.smxN
  (positions o.smxM o.smxN).map (fun p => (base.toNat + p.1 * rs + p.2 * es) % 2 ^ 32)

/-- The addresses of a lane's window. -/
def Env.smxAddrs (e : Env) (s : State) (l : Nat) : List Nat :=
  Sys2Proof.Machine.smxAddrs e.o (e.word s .int e.o.smxB l) (e.word s .int e.o.smxE l)

/-- The trap of a lane's window (R156): code and first address that gives it. -/
def State.smxBad (s : State) (e : Env) (l : Nat) : Nat × Nat :=
  let bad := ((e.smxAddrs s l).map (fun a => (s.checkAccess e.w true a 4 4, a))).filter (fun x => x.1 != 0)
  let code := leastOf (bad.map (·.1))
  (code, ((bad.find? (fun x => x.1 == code)).map (·.2)).getD 0)

/-- A shared-memory window instruction (R156, R157): the whole set waits before it for an owned line that any element of any
lane's window lies in, lanes that will trap included. DESIGN CHOICE (assumption log 18): all elements of all lanes are
accessed in one step, so that no other event falls between two of them. -/
def State.smxShared (s : State) (e : Env) (f : State → List Nat → State) : State :=
  let good := e.p.filter (fun l => (s.smxBad e l).1 == 0)
  let bad := (e.p.filter (fun l => (s.smxBad e l).1 != 0)).map (fun l =>
    ({ lane := l, code := (s.smxBad e l).1, faddr := (s.smxBad e l).2 } : LaneTrap))
  let ks := s.blockers e.w true 4 (e.p.flatMap (e.smxAddrs s))
  if !ks.isEmpty then s.suspendBefore e ks bad else (f s good).raise e bad

/-- `smx.ld.sh` (R156, R157). -/
def execSmxLdSh (o : Operands) (s : State) :=
  issue (.smxLdSh o) s (fun e s => s.smxShared e (fun s good =>
    s.writeDst e.c.wid good e.o.d (fun l => (e.smxAddrs s l).map (s.spaceWord (e.w.space true)))))
/-- `smx.st.sh` (R156, R157). -/
def execSmxStSh (o : Operands) (s : State) :=
  issue (.smxStSh o) s (fun e s => s.smxShared e (fun s good =>
    if good.isEmpty then s
    else
      let n := e.w.made + 1
      (good.foldl (fun s l =>
        ((e.smxAddrs s l).zip (e.words s (e.o.smxM * e.o.smxN) false e.o.a l)).foldl (fun s x =>
          s.spaceWriteNat (e.w.space true) x.1 4 x.2.toNat (some (e.c.wid, n))) s) s).noteStore e.c.wid))

end Sys2Proof.Machine
end

