-- ==== Sys2Proof/Machine/BulkCopy.lean ====
section
/-! DEFINITION. Bulk copies, byte barriers and engine fences (spec/13_bulk_copy.md R279 to R298; R272). -/

namespace Sys2Proof.Machine

/-- A side of a copy (Table 13.2). -/
inductive Side
  | main | shared | spad | other
  deriving DecidableEq, Repr

/-- Source and destination of DIR (Table 13.2). -/
def dirSides (dir : Nat) : Side × Side :=
  match dir with
  | 0 => (.main, .shared)
  | 1 => (.main, .spad)
  | 2 => (.shared, .main)
  | 3 => (.spad, .main)
  | 4 => (.spad, .shared)
  | 5 => (.shared, .spad)
  | 6 => (.spad, .other)
  | 7 => (.other, .spad)
  | _ => (.main, .main)

/-- Fields of a copy descriptor (Table 13.1). -/
def cpCtl (d : List Byte) : Nat := fieldOf d 0 4
def cpDir (d : List Byte) : Nat := cpCtl d % 16
def cpDim (d : List Byte) : Nat := cpCtl d / 2 ^ 4 % 4
def cpCw (d : List Byte) : Bool := bitOf (cpCtl d) 6
def cpBb (d : List Byte) : Bool := bitOf (cpCtl d) 7
def cpCwd (d : List Byte) : Bool := bitOf (cpCtl d) 8
def cpLen (d : List Byte) : Nat := fieldOf d 4 4
def cpSrc (d : List Byte) : Nat := fieldOf d 8 8 + fieldOf d 24 1 * 2 ^ 64
def cpDst (d : List Byte) : Nat := fieldOf d 16 8 + fieldOf d 25 1 * 2 ^ 64
def cpRows (d : List Byte) : Nat := fieldOf d 28 2 + 1
def cpPlanes (d : List Byte) : Nat := fieldOf d 30 2 + 1
def cpStride (d : List Byte) (k : Nat) : Int := toSigned (fieldOf d (32 + 4 * k) 4) 32
def cpCwOff (d : List Byte) : Nat := fieldOf d 48 4
def cpCwVal (d : List Byte) : Nat := fieldOf d 52 4
def cpBbOff (d : List Byte) : Nat := fieldOf d 56 4

/-- Bytes of a copy (R282). -/
def cpTotal (d : List Byte) : Nat := cpLen d * cpRows d * cpPlanes d

/-- Fields that R282 requires to be 0. -/
def cpReservedOk (d : List Byte) : Bool :=
  let dim := cpDim d
  let onDie (x : Side) (v : Nat) : Bool := x == .main || decide (v < 2 ^ 32)
  cpCtl d / 2 ^ 9 == 0 && fieldOf d 26 2 == 0 && fieldOf d 60 4 == 0 &&
    (dim != 0 || (cpRows d == 1 && fieldOf d 32 8 == 0)) &&
    (dim == 2 || (cpPlanes d == 1 && fieldOf d 40 8 == 0)) &&
    onDie (dirSides (cpDir d)).1 (cpSrc d) && onDie (dirSides (cpDir d)).2 (cpDst d) &&
    (!cpCwd d || cpDir d == 6 || cpDir d == 7)

/-- Address of byte k of row r of plane p of a side (R282). -/
def sideAddr (x : Side) (start : Nat) (s1 s2 : Int) (p r k : Nat) : Nat :=
  ((start + p * s2 + r * s1 + k : Int) % (if x == .main then 2 ^ 72 else 2 ^ 32)).toNat

/-- Source and destination address of byte i in copy order (R282). -/
def cpFrom (d : List Byte) (i : Nat) : Nat :=
  sideAddr (dirSides (cpDir d)).1 (cpSrc d) (cpStride d 0) (cpStride d 2) (i / cpLen d / cpRows d)
    (i / cpLen d % cpRows d) (i % cpLen d)
def cpTo (d : List Byte) (i : Nat) : Nat :=
  sideAddr (dirSides (cpDir d)).2 (cpDst d) (cpStride d 1) (cpStride d 3) (i / cpLen d / cpRows d)
    (i / cpLen d % cpRows d) (i % cpLen d)

/-- Starts of the rows of a side, in copy order. -/
def rowStarts (d : List Byte) (source : Bool) : List Nat :=
  (List.range (cpPlanes d)).flatMap (fun p => (List.range (cpRows d)).map (fun r =>
    if source then sideAddr (dirSides (cpDir d)).1 (cpSrc d) (cpStride d 0) (cpStride d 2) p r 0
    else sideAddr (dirSides (cpDir d)).2 (cpDst d) (cpStride d 1) (cpStride d 3) p r 0))

/-- A warp of a block, which has shared memory, matrix queues and weight buffer of its own (R287, R166). -/
def Warp.ownsShared (w : Warp) : Bool := w.kind == .block

/-- n bytes at an offset of a warp's shared memory or window: 0, or the trap and its first failing offset. -/
def State.rangeTrap (s : State) (w : Warp) (shared : Bool) (o n : Nat) : Option (Nat × Nat) :=
  if shared then (if o + n ≤ s.sharedLimit w then none else some (0x11, max o (s.sharedLimit w)))
  else
    match s.ctx? w.ctx with
    | none => some (0x10, o)
    | some c => if c.windowOk w.die o n w.supervisor then none else some (0x10, c.firstBad w.die o n w.supervisor)

/-- Bytes of a warp's weight-buffer allocation (R305): 0 for one that is no warp of a block (R287). -/
def State.weightLimit (s : State) (w : Warp) : Nat := if w.ownsShared then ((s.blockOf w).map (·.wbSize)).getD 0 else 0

/-- n bytes at an offset of a warp's weight-buffer allocation (R319): none, or the trap and its first failing offset; a warp
that is no warp of a block fails (R287). DESIGN CHOICE (assumption log 47): a row of 0 bytes of a block's warp passes where it
starts within the allocation or at its end, and fails where it starts beyond. -/
def State.weightTrap (s : State) (w : Warp) (o n : Nat) : Option (Nat × Nat) :=
  if w.ownsShared && decide (o + n ≤ s.weightLimit w) then none else some (0x28, max o (s.weightLimit w))

/-- Row 7 of Table 13.4 for one side; the destination of a weight load is its allocation (R319). -/
def State.rowTraps (s : State) (w : Warp) (d : List Byte) (weights source : Bool) : List (Nat × Nat) :=
  let x := if source then (dirSides (cpDir d)).1 else (dirSides (cpDir d)).2
  if weights && !source then ((rowStarts d source).findSome? (fun o => s.weightTrap w o (cpLen d))).toList
  else if x == .shared || x == .spad then
    ((rowStarts d source).findSome? (fun o => s.rangeTrap w (x == .shared) o (cpLen d))).toList
  else []

/-- Rows 7 to 9 of Table 13.4: traps with their offsets, in order. A completion word in the spill area fails at either level
(row 9 names it, where row 7 cites R211). -/
def State.copyTraps (s : State) (w : Warp) (d : List Byte) (weights : Bool) : List (Nat × Nat) :=
  s.rowTraps w d weights true ++ s.rowTraps w d weights false ++
  (if cpBb d then
    (if cpBbOff d % 16 != 0 then [(0x12, cpBbOff d)] else []) ++
    (if s.sharedLimit w < cpBbOff d + 16 then [(0x11, cpBbOff d)] else [])
   else []) ++
  (if cpCw d && !(cpCwd d && (cpDir d == 6 || cpDir d == 7)) then
    (if cpCwOff d % 4 != 0 then [(0x12, cpCwOff d)] else []) ++
    (if (s.rangeTrap { w with kind := .block } false (cpCwOff d) 4).isSome then [(0x10, cpCwOff d)] else [])
   else [])

/-- The lowest trap of a list with its first offset (R10). -/
def firstLowest (ts : List (Nat × Nat)) : Option (Nat × Nat) :=
  ts.find? (fun t => t.1 == leastOf (ts.map (·.1)))

/-- The reason for which a copy is rejected, 0 for none (Table 13.4, R319). -/
def copyReason (w : Warp) (d : List Byte) (weights : Bool) : Nat :=
  if 9 ≤ cpDir d || (weights && cpDir d != 0 && cpDir d != 4) then 1
  else if cpDim d == 3 then 2
  else if !cpReservedOk d || (cpBb d && !w.ownsShared) then 3
  else if 2 ^ 32 - 1 < cpTotal d || 2 ^ 24 < cpLen d then 4
  else 0

/-- Copies that hold a slot of a core (R279). -/
def State.copySlotUsed (s : State) (d c slot : Nat) : Bool :=
  s.ops.any (fun o => match o.kind with
    | .copy x => o.die == d && o.core == c && !o.complete && x.slot == slot
    | _ => false)

/-- The lowest free copy slot of a core (R279). -/
def State.freeCopySlot (s : State) (d c : Nat) : Option Nat :=
  (List.range Config.copySlots).find? (fun k => !s.copySlotUsed d c k)

/-- The next sequence number of a slot: it wraps modulo 2^26 and skips 0 (R279). -/
def nextSeq (v : BitVec 26) : BitVec 26 := if v + 1 == 0 then 1 else v + 1

/-- A handle (R280). -/
def handleOf (seq slot : Nat) : Nat := seq * 64 + slot

/-- The live copy that a handle names on a core (R280). -/
def State.copyOf (s : State) (d c h : Nat) : Option EngineOp :=
  s.ops.find? (fun o => match o.kind with
    | .copy x => o.die == d && o.core == c && !o.complete && x.slot == h % 64 && x.seq == h / 64
    | _ => false)

/-- Lanes that do not go past their instruction: the warp was not ready for it (R183, R286). -/
def State.holdBack (s : State) (e : Env) : State :=
  s.modLanes e.c.wid e.c.lanes (fun x => { x with pc := e.c.pc, half := e.c.half, repc := e.c.repcAt e.i })

/-- Where a warp's descriptors lie (R287): its shared memory, or the window. -/
def State.descBytes (s : State) (w : Warp) (o n : Nat) : List Byte :=
  s.spaceBytes (w.space w.ownsShared) (s.spaceAddr w w.ownsShared o) n

/-- Row 2 of Table 13.4 and its like: the descriptor's bytes fail their level. -/
def State.descTrap (s : State) (w : Warp) (o n : Nat) : Nat := ((s.rangeTrap w w.ownsShared o n).map (·.1)).getD 0

/-- The on-die memory of a side of a copy with the byte at which its offset 0 lies. -/
def CopyOp.place (c : CopyOp) (o : EngineOp) (x : Side) : Space × Nat :=
  match x with
  | .shared => (if c.weights then .weight (o.block.getD 0) else .shared (o.block.getD 0), 0)
  | .other => (.spad (1 - o.die), c.otherBase)
  | _ => (.spad o.die, c.base)

/-- Lines of the destination in copy order (R236). -/
def CopyOp.lines (c : CopyOp) (o : EngineOp) : List LineKey :=
  let x := (dirSides (cpDir c.desc)).2
  if x == .main || cpLen c.desc == 0 then []
  else ((rowStarts c.desc false).flatMap (fun a =>
    spaceLines (c.place o x).1 ((c.place o x).2 + a) (cpLen c.desc))).eraseDups

/-- The sources of a copy (R239, R288). -/
def CopyOp.sources (c : CopyOp) (o : EngineOp) : List Source :=
  let x := (dirSides (cpDir c.desc)).1
  (rowStarts c.desc true).map (fun a =>
    if x == .main then { space := none, first := a, len := cpLen c.desc }
    else { space := some (c.place o x).1, first := (c.place o x).2 + a, len := cpLen c.desc })

/-- Byte i of a copy is written (R289). -/
def CopyOp.wroteByte (c : CopyOp) (o : EngineOp) (i : Nat) : Bool :=
  let x := (dirSides (cpDir c.desc)).2
  if x == .main then c.written.contains (cpTo c.desc i / 64)
  else (spaceLines (c.place o x).1 ((c.place o x).2 + cpTo c.desc i) 1).any c.released.contains

/-- Change the copy of an operation. -/
def State.modCopy (s : State) (oid : Nat) (f : CopyOp → CopyOp) : State :=
  s.modOp oid (fun o => match o.kind with
    | .copy c => { o with kind := .copy (f c) }
    | _ => o)

/-- An operation leaves the machine, or stays, complete, for its fold in a DET launch (R251). -/
def State.retire (s : State) (o : EngineOp) : State :=
  let det := match s.warp? o.wid with
    | some w => s.isDet w
    | none => false
  if det && o.fault.isNone then s.modOp o.oid (fun o => { o with complete := true })
  else { s with ops := s.ops.filter (fun x => x.oid != o.oid) }

/-- One byte-barrier arrival of n bytes (R289, R294). DESIGN CHOICE (assumption log 35): it is made at once, also where an
operation owns the barrier's line, and so is a write of FLT. -/
def State.arriveBytes (s : State) (sp : Space) (addr n : Nat) : State :=
  let rem := s.spaceWord sp addr - BitVec.ofNat 32 n
  let gen := s.spaceWord sp (addr + 4)
  if n == 0 then s
  else s.spaceWrite sp addr (natToBytes 4 rem.toNat ++ natToBytes 4 (if rem == 0 then gen + 1 else gen).toNat) none

/-- A trap code enters FLT of a barrier when FLT is 0 (R291). -/
def State.setFlt (s : State) (sp : Space) (addr code : Nat) : State :=
  let w := s.spaceWord sp (addr + 8)
  if w.toNat % 64 == 0 then s.spaceWriteNat sp (addr + 8) 4 (w.toNat / 64 * 64 + code) none else s

/-- Count arrivals of a copy (R289). -/
def State.copyArrive (s : State) (o : EngineOp) (d : List Byte) (n : Nat) : State :=
  if cpBb d then s.arriveBytes (.shared (o.block.getD 0)) (cpBbOff d) n else s

/-- The level of the warp that issued an operation (R211). -/
def State.opLevel (s : State) (o : EngineOp) : Bool := ((s.warp? o.wid).map (·.supervisor)).getD false

/-- The number by which a peer access of a copy's byte is known. -/
def peerKey (oid i : Nat) : Nat := oid * 2 ^ 40 + 2 * i

/-- The trap with which byte i of a copy faults, with its address (R291). A peer's writes are posted and do not fail
(R298). DESIGN CHOICE (assumption log 47): where the source and the destination of the byte both fail, the lower code is
reported, and with one code the source's address. -/
def State.byteFault (s : State) (o : EngineOp) (d : List Byte) (i : Nat) : Option (Nat × Nat) :=
  match s.ctx? o.ctx with
  | none => none
  | some c =>
    let sup := s.opLevel o
    let side (x : Side) (a : Nat) (write : Bool) (k : Nat) : List Nat :=
      match x with
      | .main =>
        (match s.translate c a (if write then .write else .read) with
         | .trap t => [t]
         | .ok tgt _ => if tgt == 2 && !write && Config.peerFails k then [0x19] else [])
      | .other => if c.windowOk (1 - o.die) a 1 sup then [] else [0x10]
      | _ => []
    let a := (side (dirSides (cpDir d)).1 (cpFrom d i) false (peerKey o.oid i)).map (fun t => (t, cpFrom d i))
    let b := (side (dirSides (cpDir d)).2 (cpTo d i) true 0).map (fun t => (t, cpTo d i))
    firstLowest (a ++ b)

/-- The first faulting byte of a copy with its trap and address (R291): the one that has bound what it wrote, else the first
among the bytes not yet written. -/
def State.firstFault (s : State) (o : EngineOp) (c : CopyOp) : Option (Nat × Nat × Nat) :=
  match c.cut with
  | some f => some f
  | none => (List.range (cpTotal c.desc)).findSome? (fun i =>
      if c.wroteByte o i then none else (s.byteFault o c.desc i).map (fun t => (i, t.1, t.2)))

/-- How many bytes of a copy are written (R291). -/
def State.copyLimit (s : State) (o : EngineOp) (c : CopyOp) : Nat :=
  ((s.firstFault o c).map (·.1)).getD (cpTotal c.desc)

/-- Source byte i of a copy as it is read now, or as it was read already (R239, R243). -/
def State.copyByte (s : State) (o : EngineOp) (c : CopyOp) (i : Nat) : Byte :=
  let x := (dirSides (cpDir c.desc)).1
  let a := cpFrom c.desc i
  match x with
  | .main =>
    (match o.early.find? (fun y => y.space == none && y.addr == a), s.ctx? o.ctx with
     | some y, _ => y.val
     | none, none => 0
     | none, some ctx => (match s.readMain ctx a (peerKey o.oid i) .read with
       | .ok b => b
       | .trap _ => 0))
  | _ => (s.sourceBytes o (c.place o x).1 ((c.place o x).2 + a) 1).headD 0

/-- The lines of source bytes that the copy has still to read are free, or its own (R238). -/
def State.sourceFree (s : State) (o : EngineOp) (c : CopyOp) (is : List Nat) : Bool :=
  let x := (dirSides (cpDir c.desc)).1
  x == .main || is.all (fun i => s.sourceReady o (c.place o x).1 ((c.place o x).2 + cpFrom c.desc i) 1)

/-- Pages of a main-memory side that the first bytes of a copy touch. -/
def cpPages (d : List Byte) (source : Bool) (bytes : Nat) : List Nat :=
  if (if source then (dirSides (cpDir d)).1 else (dirSides (cpDir d)).2) != .main then []
  else ((rowStarts d source).zip (List.range (rowStarts d source).length)).flatMap (fun r =>
    (unitsOf (2 ^ 16) r.1 (min (cpLen d) (bytes - r.2 * cpLen d))).map (· % 2 ^ 56))

/-- Hold the entries of the pages that the first bytes of a copy touch (R429), those that it is about to write among them: no
byte before a written one fails later (R291). -/
def State.holdCopy (s : State) (o : EngineOp) (d : List Byte) (bytes : Nat) : State :=
  ((cpPages d true bytes ++ cpPages d false bytes).eraseDups).foldl (fun s p => s.holdEntry o.ctx (p * 2 ^ 16)) s

/-- Bytes written by an operation of a DET launch are kept for its fold (R251). -/
def State.keepPayload (s : State) (o : EngineOp) (xs : List (Nat × Byte)) : State :=
  match s.warp? o.wid with
  | none => s
  | some w => if s.isDet w then s.modOp o.oid (fun x => { x with payload := x.payload ++ xs }) else s

/-- Write bytes of one line of an on-die memory as one event. -/
def State.writeLine (s : State) (sp : Space) (line : Nat) (xs : List (Nat × Byte)) : State :=
  let old := s.spaceBytes sp (128 * line) 128
  s.spaceWrite sp (128 * line) (xs.foldl (fun bs x => bs.set (x.1 - 128 * line) x.2) old) none

/-- The first faulting byte binds what is written of a line or block that it cuts (R291). -/
def CopyOp.bind (c : CopyOp) (f : Option (Nat × Nat × Nat)) (here : List Nat) : CopyOp :=
  match f with
  | some t => if here.any (fun i => decide (t.1 ≤ i)) then { c with cut := f } else c
  | none => c

/-- ENGINE_LINE_RELEASE of a copy (R237, R288, R289): its bytes of the line are written, counted, and the line is
given up. A line whose bytes all follow the first faulting one is given up by COPY_FAULT (R291). -/
def State.copyRelease (s : State) (o : EngineOp) (c : CopyOp) (key : LineKey) : State :=
  let x := (dirSides (cpDir c.desc)).2
  let pl := c.place o x
  let limit := s.copyLimit o c
  let here := (List.range (cpTotal c.desc)).filter (fun i => (spaceLines pl.1 (pl.2 + cpTo c.desc i) 1).contains key)
  let is := here.filter (fun i => decide (i < limit))
  if s.owns (.op o.oid) key && !is.isEmpty && s.sourceFree o c is then
    let xs := is.map (fun i => (i, s.copyByte o c i))
    let s1 := (s.holdCopy o c.desc limit).writeLine pl.1 (keyPlace key).2 (xs.map (fun b => (pl.2 + cpTo c.desc b.1, b.2)))
    let s2 := s1.keepPayload o xs
    ((s2.releaseLines (.op o.oid) [key]).modCopy o.oid (fun y =>
      ({ y with released := key :: y.released } : CopyOp).bind (s.firstFault o c) here)).copyArrive o c.desc is.length
  else s

/-- 64-byte blocks of a copy's main-memory destination, in copy order (R289). -/
def CopyOp.blocks (c : CopyOp) (limit : Nat) : List Nat :=
  if (dirSides (cpDir c.desc)).2 == .main then ((List.range limit).map (fun i => cpTo c.desc i / 64)).eraseDups else []

/-- Main-memory bytes by target and address: those that addresses of a context name, device DRAM and host memory alone. -/
def State.physBytes (s : State) (c : Context) (k : Access) (vas : List Nat) : List (Nat × Nat) :=
  vas.filterMap (fun va => match s.translate c va k with
    | .ok tgt pa => if tgt < 2 then some (tgt, pa) else none
    | .trap _ => none)

/-- Addresses in ranges of main memory of a context that name one of given bytes. -/
def State.aliases (s : State) (c : Context) (k : Access) (ranges : List (Nat × Nat)) (bs : List (Nat × Nat)) : List Nat :=
  ((ranges.flatMap (fun r => (unitsOf (2 ^ 16) r.1 r.2).map (· % 2 ^ 56))).eraseDups).flatMap (fun p =>
    match s.translate c (p * 2 ^ 16) k with
    | .ok tgt pa => (bs.filter (fun b => b.1 == tgt && b.2 / 2 ^ 16 == pa / 2 ^ 16)).map (fun b => p * 2 ^ 16 + b.2 % 2 ^ 16)
    | .trap _ => [])

/-- Main memory that a copy is to read: ranges of its sources. -/
def EngineOp.mainSources (p : EngineOp) : List (Nat × Nat) :=
  (p.sources.filter (fun y => y.space == none)).map (fun y => (y.first, y.len))
/-- Main memory that a copy writes: ranges of its rows. -/
def EngineOp.mainTargets (p : EngineOp) : List (Nat × Nat) :=
  match p.kind with
  | .copy c => if (dirSides (cpDir c.desc)).2 == .main then (rowStarts c.desc false).map (fun a => (a, cpLen c.desc)) else []
  | _ => []
/-- Bytes of main memory that an operation is to write and has not written. -/
def EngineOp.toWrite (o : EngineOp) (va : Nat) : Bool :=
  match o.kind with
  | .copy c => !c.written.contains (va / 64) && o.mainTargets.any (fun r => decide (r.1 ≤ va) && decide (va < r.1 + r.2))
  | _ => false

/-- The context of an operation under the registers with which it was issued; outside holds the present ones (R31, R430). -/
def EngineOp.context (p : EngineOp) (outside : State) : Option Context := (outside.ctx? p.ctx).map (·.under p.old)

/-- Source bytes of an operation among given bytes of main memory that it has not read. -/
def State.unreadOf (s outside : State) (p : EngineOp) (bs : List (Nat × Nat)) : List Nat :=
  match p.context outside with
  | none => []
  | some c => (s.aliases c .read p.mainSources bs).filter (fun a => !(p.unread none a 1).isEmpty)
/-- Destination bytes of an operation among them that it has not written. -/
def State.unwrittenOf (s outside : State) (p : EngineOp) (bs : List (Nat × Nat)) : List Nat :=
  match p.context outside with
  | none => []
  | some c => (s.aliases c .write p.mainTargets bs).filter p.toWrite

/-- A source byte of main memory as an operation reads it now. -/
def State.mainWord (s outside : State) (p : EngineOp) (a : Nat) : List ReadByte :=
  match p.context outside with
  | none => []
  | some c => (match s.readMain c a (peerKey p.oid 0) .read with
    | .ok b => [⟨none, a, b⟩]
    | .trap _ => [])

/-- Copies in flight share main-memory bytes with a copy that is about to write some, whatever the context and the address by
which each names them: each such byte is read before the write or after it, and written before it or after it, by a free
choice (R243); a copy reads its own source bytes so by aligned units of 16 (R288). -/
def State.beforeMain (s outside : State) (o : EngineOp) (bs : List (Nat × Nat)) : State :=
  let mine (p : EngineOp) : Bool := p.oid == o.oid
  let rival (p : EngineOp) : Bool := !p.complete && p.fault.isNone
  let first (p : EngineOp) (a : Nat) : Bool := Config.comesFirst s.fresh p.oid (if mine p then a / 16 else a)
  let races (p : EngineOp) : Bool :=
    !(s.unreadOf outside p bs).isEmpty || (!mine p && !(s.unwrittenOf outside p bs).isEmpty)
  if s.ops.any (fun p => rival p && races p) then
    { s with
      fresh := s.fresh + 1
      ops := s.ops.map (fun p =>
        if rival p then
          { p with
            early := p.early ++ ((s.unreadOf outside p bs).filter (first p)).flatMap (s.mainWord outside p)
            lost := if mine p then p.lost
              else p.lost ++ (s.unwrittenOf outside p bs).filter (fun a => Config.comesFirst s.fresh p.oid (2 ^ 72 + a)) }
        else p) }
  else s

/-- COPY_BLOCK_WRITTEN (R289). A byte that another operation has written meanwhile may keep that value (R243). The state
outside is that of the event, with the registers as they are now (R31). -/
def State.copyBlock (s outside : State) (o : EngineOp) (c : CopyOp) (block : Nat) : State :=
  let limit := s.copyLimit o c
  let here := (List.range (cpTotal c.desc)).filter (fun i => cpTo c.desc i / 64 == block)
  let is := here.filter (fun i => decide (i < limit))
  let held := s.holdCopy o c.desc limit
  if (dirSides (cpDir c.desc)).2 == .main && !c.written.contains block && !is.isEmpty && s.sourceFree o c is then
    match held.ctx? o.ctx with
    | none => s
    | some ctx =>
      let xs := is.map (fun i => (i, s.copyByte o c i))
      let ys := (xs.map (fun b => (cpTo c.desc b.1, b.2))).filter (fun y => !o.lost.contains y.1)
      let vas := ys.map (·.1)
      let s1 := (held.beforeMain outside o (s.physBytes ctx .write vas)).beforeTexWrite (s.physLines ctx .write vas)
      let s2 := (ys.foldl (fun s y => s.writeMain ctx y.1 y.2) s1).keepPayload o xs
      (s2.modCopy o.oid (fun y => ({ y with written := block :: y.written } : CopyOp).bind (s.firstFault o c) here)).copyArrive
        o c.desc is.length
  else s

/-- A handle of a copy operation. -/
def CopyOp.handle (c : CopyOp) : Nat := handleOf c.seq c.slot

/-- The handle of a faulted copy names it no more: waits on it are left to their timeouts (R296). -/
def State.loseHandle (s : State) (o : EngineOp) : State :=
  match o.kind, o.fault with
  | .copy c, some _ =>
    let lose (r : Record) : Record := if r.wait == .copy c.handle false then { r with wait := .copy c.handle true } else r
    { s with warps := s.warps.map (fun w =>
        if w.die == o.die && w.core == o.core then { w with records := w.records.map lose } else w) }
  | _, _ => s

/-- A faulted copy is retired (R292). -/
def State.retireFaulted (s : State) (o : EngineOp) : State :=
  let s1 := s.loseHandle o
  { s1 with ops := s1.ops.filter (fun x => x.oid != o.oid) }

/-- Records of the issuing warp that a copy's fault reaches (R292). -/
def Warp.faultWaiters (w : Warp) (o : EngineOp) (c : CopyOp) : List Record :=
  w.records.filter (fun r => r.state == .waiting && (match r.wait with
    | .copy h _ => h == c.handle && decide (o.core < Config.coresPerDie)
    | .byteBarrier sp addr _ => !sp && cpBb c.desc && addr == cpBbOff c.desc
    | .fence ops => ops.contains o.oid
    | .taskDone ops _ => ops.contains o.oid
    | .sortFence ops => ops.contains o.oid
    | _ => false))

/-- A copy faults (R291): it stays in its slot with its trap pending. -/
def State.faultCopy (s : State) (o : EngineOp) (c : CopyOp) (code faddr : Nat) : State :=
  let s1 := s.releaseLines (.op o.oid) (s.linesOfOwner (.op o.oid))
  let s2 := if cpBb c.desc then s1.setFlt (.shared (o.block.getD 0)) (cpBbOff c.desc) code else s1
  s2.modOp o.oid (fun x => { x with fault := some (code, faddr) })

/-- The completion of a copy invalidates the lines that it wrote in every texture and node cache of its die (R240). -/
def State.dropWritten (s : State) (o : EngineOp) (c : CopyOp) : State :=
  match (dirSides (cpDir c.desc)).2, s.ctx? o.ctx with
  | .main, some ctx => s.dropTexLines o.die (fun t =>
      (s.physLines ctx .write ((rowStarts c.desc false).flatMap (fun a => (linesOf a (cpLen c.desc)).map (128 * ·)))).contains
        (t.tgt, t.line))
  | _, _ => s

/-- A copy is complete (R290, R240): its completion word is written and it is retired; a completion word that fails on the
other die makes it fault (R291). -/
def State.finishCopy (s0 : State) (o : EngineOp) (c : CopyOp) : State :=
  let d := c.desc
  let s := s0.dropWritten o c
  let far := cpCwd d && (cpDir d == 6 || cpDir d == 7)
  let sup := s.opLevel o
  let die := if far then 1 - o.die else o.die
  let base := if far then c.otherBase else c.base
  let ok := match s.ctx? o.ctx with
    | some ctx => ctx.windowOk die (cpCwOff d) 4 sup
    | none => false
  if !cpCw d then s.retire o
  else if far && !ok then s.faultCopy o c 0x10 (cpCwOff d)
  else if far && cpCwOff d % 4 != 0 then s.faultCopy o c 0x12 (cpCwOff d)
  else (s.engineWord die (base + cpCwOff d) (cpCwVal d)).retire o

/-- Accept a copy (R285 step 7): its slot and handle, its lines, its operation. -/
def State.acceptCopy (s : State) (e : Env) (d : List Byte) (slot : Nat) (weights : Bool) : Nat × State :=
  let w := e.w
  let seq := nextSeq ((s.core w.die w.core).copySeq.get slot)
  let id := s.nextId
  let win (k : Nat) : Nat := ((s.ctx? w.ctx).map (fun c => (c.window k).1)).getD 0
  let c : CopyOp :=
    { weights := weights, desc := d, slot := slot, seq := seq.toNat, base := win w.die, otherBase := win (1 - w.die) }
  let o : EngineOp :=
    { oid := id, die := w.die, core := w.core, ctx := w.ctx, wid := w.wid, block := w.block, colour := e.o.col
      kind := .copy c }
  let s1 := s.modCore w.die w.core (fun x => { x with copySeq := x.copySeq.set slot seq })
  let s2 := { s1 with nextId := id + 1, ops := s1.ops ++ [{ o with sources := c.sources o }] }
  let s3 := if (dirSides (cpDir d)).2 == .other then s2 else s2.own (.op id) (c.lines o)
  (handleOf seq.toNat slot, if cpTotal d == 0 then s3.finishCopy o c else s3)

/-- An elected-lane instruction writes the same words in every lane of P. -/
def State.answer (s : State) (e : Env) (ws : List Word) : State := s.writeDst e.c.wid e.p e.o.d (fun _ => ws)

/-- A copy instruction of the elected lane (R285, R286, R319): with every slot held it is not ready to issue. -/
def State.copyInstr (s : State) (e : Env) (weights : Bool) : State :=
  let off := (e.b s e.elected).toNat
  let early := lowestTrap [
    (s.descTrap e.w off 64 == 0x10, 0x10), (s.descTrap e.w off 64 == 0x11, 0x11), (off % 64 != 0, 0x12)]
  let ks := s.ownedLines e.w e.w.ownsShared off 64
  match s.freeCopySlot e.w.die e.w.core with
  | none => s.holdBack e
  | some slot =>
    if e.p.isEmpty then s
    else if early != 0 then s.raiseAll e e.p early off 0
    else if !ks.isEmpty then s.suspendBefore e ks []
    else
      let d := s.descBytes e.w off 64
      if copyReason e.w d weights != 0 then s.answer e [0, BitVec.ofNat 32 (copyReason e.w d weights)]
      else
        match firstLowest (s.copyTraps e.w d weights) with
        | some t => s.raiseAll e e.p t.1 t.2 0
        | none =>
          let r := s.acceptCopy e d slot weights
          r.2.answer e [BitVec.ofNat 32 r.1, 0]

/-- `bcp` (R285, R286). -/
def execBcp (o : Operands) (s : State) := issue (.bcp o) s (fun e s => s.copyInstr e false)

/-- Fold an operation of a DET launch into its warp's digest (R251). -/
def State.foldOp (s : State) (o : EngineOp) : State :=
  let xs := sortBy (fun a b => decide (a.1 < b.1)) o.payload
  let bs := xs.map (·.2)
  let s1 := s.modWarp o.wid (fun w =>
    (List.range ((bs.length + 3) / 4)).foldl (fun w j => w.fold j (fieldOf bs (4 * j) 4)) (w.fold 0xFFFFFFFF bs.length))
  { s1 with ops := s1.ops.filter (fun x => x.oid != o.oid) }

/-- Fold the completed operations among given ones, in issue order. -/
def State.foldOps (s : State) (oids : List Nat) : State :=
  (s.ops.filter (fun o => oids.contains o.oid && o.complete)).foldl (fun s o => s.foldOp o) s

/-- Report a pending fault of a copy in lanes of an instruction: the trap, with the handle as EVENT, retires the copy
(R292). -/
def State.reportFault (s : State) (e : Env) (ls : List Nat) (o : EngineOp) : State :=
  match o.fault, o.kind with
  | some f, .copy c => (s.raiseAll e ls f.1 f.2 c.handle).retireFaulted o
  | _, _ => s

/-- The trap that a pending fault raises in a lane. -/
def EngineOp.faultIn (o : EngineOp) (l : Nat) : List LaneTrap :=
  match o.fault, o.kind with
  | some f, .copy c => [{ lane := l, code := f.1, faddr := f.2, event := c.handle }]
  | _, _ => []

/-- Report the pending faults that groups of lanes of one wait meet, beside other traps of its lanes: lanes of one code park
as one set (R425). DESIGN CHOICE (assumption log 47): each group meets the earliest-issued copy of its own, and all are
reported at this instruction, but where several have one code the copy of the set's lowest lane alone; the others stay
pending for the lanes that issue the wait again. -/
def State.reportFaults (s : State) (e : Env) (xs : List (EngineOp × List Nat)) (ts : List LaneTrap) : State :=
  let all := sortBy (fun a b => decide (a.lane < b.lane)) (xs.flatMap (fun x => x.2.flatMap x.1.faultIn) ++ ts)
  let heads := (groupTraps all).map (·.1.lane)
  (xs.filter (fun x => x.2.any heads.contains)).foldl (fun s x => s.retireFaulted x.1) (s.raise e all)

/-- Complete an operation of the same handle's fold at a copy wait (R251). -/
def State.foldHandle (s : State) (w : Warp) (h : Nat) : State :=
  s.foldOps ((s.ops.filter (fun o => o.wid == w.wid && o.complete && (match o.kind with
    | .copy c => c.handle == h && o.die == w.die && o.core == w.core
    | _ => false))).map (·.oid))

/-- Status of lanes in D. -/
def statusWrites (d : Operand) (ls : List Nat) (st : Nat) : List RegWrite :=
  ls.flatMap (fun l => dstWrites l d [BitVec.ofNat 32 st])

/-- A wait whose lanes form a group: status 0 when it is satisfied, 1 for TO 0, else a record (R224). -/
def State.waitGroup (s : State) (e : Env) (vs : List LaneVals) (done : Bool) (x : Wait) (event : Nat) : State :=
  let ls := vs.map (·.lane)
  if done then s.writeRegs e.c.wid (statusWrites e.o.d ls 0)
  else if e.o.tmo == 0 then s.writeRegs e.c.wid (statusWrites e.o.d ls 1)
  else s.suspend e { lanes := ls, wait := x, ls := e.o.ls, tmo := e.o.tmo, event := event
                     vals := vs }

/-- `bcp.wait` (R292, R296): lanes of one handle form a group. -/
def execBcpWait (o : Operands) (s : State) :=
  issue (.bcpWait o) s (fun e s =>
    let groups := groupBy (fun v => v.b0.toNat) (e.p.map (e.valsOf s 0 1 0 0))
    let fault (h : Nat) : Option EngineOp := (s.copyOf e.w.die e.w.core h).filter (fun op => op.fault.isSome && op.wid == e.c.wid)
    let faulted := groups.filterMap (fun g => (fault g.1).map (fun op => (op, g.2.map (·.lane))))
    ((groups.filter (fun g => (fault g.1).isNone)).foldl (fun s g =>
      match s.copyOf e.w.die e.w.core g.1 with
      | none => (s.foldHandle e.w g.1).waitGroup e g.2 true .nothing g.1
      | some _ => s.waitGroup e g.2 false (.copy g.1 false) g.1) s).reportFaults e faulted [])

/-- `bcp.st` (R297). -/
def execBcpSt (o : Operands) (s : State) :=
  issue (.bcpSt o) s (fun e s => s.perWord e (fun l =>
    match s.copyOf e.w.die e.w.core (e.b s l).toNat with
    | none => 0
    | some op => (match op.fault with
      | none => 1
      | some f => BitVec.ofNat 32 (f.1 * 2 ^ 8 + 2))))

/-- One byte-barrier instruction of a lane on its 16 bytes (R294): what it writes to D and to the barrier. -/
def bbarStep (opc : Nat) (a rem gen flt : Word) : List Word × Option (Word × Word × Word) :=
  if opc == 0x2C4 then ([gen], some (a, gen, 0))
  else if opc == 0x2C6 then
    ([gen], some (rem + a, if rem + a == 0 && a != 0 then gen + 1 else gen, flt))
  else ([rem, gen, BitVec.ofNat 32 (flt.toNat % 64)], none)

/-- bbar.init, bbar.add and bbar.rd in given lanes, ascending (R294): under DET a .sp form folds the 16 bytes as it leaves
them. bbar.init clears the reserved bits above FLT. -/
def bbarTry (i : Instr) (s : State) (w : Warp) (vs : List LaneVals) : Try :=
  let o := i.operands
  let shared := !o.modBit 0
  let ks := s.blockers w shared 16 (vs.map (fun v => v.b0.toNat))
  if !ks.isEmpty then { s := s, wait := some (.lines ks) }
  else
    vs.foldl (fun t v =>
      let sp := w.space shared
      let addr := t.s.spaceAddr w shared v.b0.toNat
      let word (k : Nat) : Word := t.s.spaceWord sp (addr + k)
      let r := bbarStep i.opcode v.a0 (word 0) (word 4) (word 8)
      let s1 :=
        match r.2 with
        | none => t.s
        | some n =>
          t.s.spaceWrite sp addr (natToBytes 4 n.1.toNat ++ natToBytes 4 n.2.1.toNat ++ natToBytes 4 n.2.2.toNat ++
            t.s.spaceBytes sp (addr + 12) 4) none
      { s := if shared then s1 else s1.foldStore w.wid v.b0.toNat (s1.spaceBytes sp addr 16), ws := t.ws ++ dstWrites v.lane o.d r.1 }) { s := s }

/-- A byte-barrier instruction other than a wait. -/
def State.bbarInstr (s : State) (e : Env) : State :=
  let g := s.checkLanes e (!e.o.modBit 0) 16 (fun l => (e.b s l).toNat)
  if g.1.isEmpty then s.raise e g.2
  else
    let vs := g.1.map (e.valsOf s 1 1 0 0)
    (s.complete e { lanes := g.1, wait := .nothing, vals := vs } (bbarTry e.i s e.w vs)).raise e g.2

/-- `bbar.init` (R294). -/
def execBbarInit (o : Operands) (s : State) := issue (.bbarInit o) s (fun e s => s.bbarInstr e)
/-- `bbar.add` (R294). -/
def execBbarAdd (o : Operands) (s : State) := issue (.bbarAdd o) s (fun e s => s.bbarInstr e)
/-- `bbar.rd` (R294). -/
def execBbarRd (o : Operands) (s : State) := issue (.bbarRd o) s (fun e s => s.bbarInstr e)

/-- Phase tok has passed at generation gen (R180, R295). -/
def phasePassed (gen tok : Word) : Bool := !(gen - tok - 1).msb

/-- The read of bbar.wait by lanes of one barrier and token (R295). -/
def bbarWaitTry (i : Instr) (s : State) (w : Warp) (vs : List LaneVals) : Try :=
  let o := i.operands
  let shared := !o.modBit 0
  let off := ((vs.map (fun v => v.b0.toNat)).headD 0)
  let tok := ((vs.map (·.a0)).headD 0)
  let ks := s.ownedLines w shared off 16
  let addr := s.spaceAddr w shared off
  if !ks.isEmpty then { s := s, wait := some (.lines ks) }
  else if phasePassed (s.spaceWord (w.space shared) (addr + 4)) tok then
    { s := s, ws := statusWrites o.d (vs.map (·.lane)) 0 }
  else if o.tmo == 0 then { s := s, ws := statusWrites o.d (vs.map (·.lane)) 1 }
  else { s := s, wait := some (.byteBarrier (!shared) addr tok) }

/-- The earliest-issued faulted copy of a warp that satisfies a test (R292). -/
def State.pendingFault (s : State) (wid : Nat) (f : EngineOp → CopyOp → Bool) : Option EngineOp :=
  s.ops.find? (fun o => match o.kind with
    | .copy c => o.wid == wid && o.fault.isSome && f o c
    | _ => false)

/-- The fault that a bbar.wait on a barrier of its warp's block reports (R292): the phase has not passed, and no engine
owns the barrier's line, so that it has read it. -/
def State.barrierFault (s : State) (w : Warp) (shared : Bool) (off : Nat) (tok : Word) : Option EngineOp :=
  if shared && (s.ownedLines w shared off 16).isEmpty && !phasePassed (s.spaceWord (w.space shared) (off + 4)) tok then
    s.pendingFault w.wid (fun _ c => cpBb c.desc && cpBbOff c.desc == off)
  else none

/-- `bbar.wait` (R292, R295): lanes of one barrier and token form a group. -/
def execBbarWait (o : Operands) (s : State) :=
  issue (.bbarWait o) s (fun e s =>
    let shared := !e.o.modBit 0
    let g := s.checkLanes e shared 16 (fun l => (e.b s l).toNat)
    let groups := groupBy (fun v => (v.b0.toNat, v.a0)) (g.1.map (e.valsOf s 1 1 0 0))
    let faulted := groups.filterMap (fun x => (s.barrierFault e.w shared x.1.1 x.1.2).map (fun op => (op, x.2.map (·.lane))))
    let rest := groups.filter (fun x => (s.barrierFault e.w shared x.1.1 x.1.2).isNone)
    ((rest.foldl (fun s x =>
      s.complete e { lanes := x.2.map (·.lane), wait := .nothing, ls := e.o.ls, tmo := e.o.tmo
                     event := x.1.1, vals := x.2 } (bbarWaitTry e.i s e.w x.2)) s).reportFaults e faulted g.2))

/-- Operations of a warp with a colour in a mask (R241). -/
def State.coloured (s : State) (wid mask : Nat) : List EngineOp :=
  s.ops.filter (fun o => o.wid == wid && bitOf mask o.colour)

/-- `fence.c` (R272): lanes of one mask form a group; a copy's fault is raised in every lane whose mask covers it (R292). -/
def execFenceC (o : Operands) (s : State) :=
  issue (.fenceC o) s (fun e s =>
    let groups := groupBy (fun v => v.b0.toNat % 256) (e.p.map (e.valsOf s 0 1 0 0))
    let fault (m : Nat) : Option EngineOp := (s.coloured e.c.wid m).find? (fun o => o.fault.isSome)
    let faulted := groups.filterMap (fun g => (fault g.1).map (fun op => (op, g.2.map (·.lane))))
    ((groups.filter (fun g => (fault g.1).isNone)).foldl (fun s g =>
      let ops := s.coloured e.c.wid g.1
      if ops.all (·.complete) then (s.foldOps (ops.map (·.oid))).waitGroup e g.2 true .nothing 0
      else s.waitGroup e g.2 false (.fence (ops.map (·.oid))) g.1) s).reportFaults e faulted [])

/-- Arrive at a block barrier (R179): the new state and the token. -/
def Barrier.arrive (b : Barrier) (lanes : Nat) (c : Word) : Barrier × Word :=
  let b := if b.opened then b else { b with opened := true, exp := BitVec.ofNat 11 (min c.toNat 1024) }
  let tok := b.gen
  let n := b.cnt + 1
  let full := if b.exp == 0 then n.toNat == lanes else n == b.exp
  (if full then { b with gen := b.gen + 1, cnt := 0, opened := false } else { b with cnt := n }, tok)

/-- Barrier k of a warp's block. -/
def State.barrierOf (s : State) (w : Warp) (k : Nat) : Barrier :=
  ((s.blockOf w).map (fun b => b.barriers.getD k {})).getD {}

/-- Change a barrier of a warp's block. -/
def State.setBarrier (s : State) (w : Warp) (k : Nat) (b : Barrier) : State :=
  s.modBlock (w.block.getD 0) (fun x => { x with barriers := x.barriers.set k b })

/-- Arrivals of lanes, ascending: the barrier after them and the lanes' tokens (R179). -/
def arriveAll (b : Barrier) (lanes : Nat) (cs : List (Nat × Word)) : Barrier × List (Nat × Word) :=
  cs.foldl (fun acc c =>
    let r := acc.1.arrive lanes c.2
    (r.1, acc.2 ++ [(c.1, r.2)])) (b, [])

/-- Without room for a record, only a lane whose own arrival completes its phase arrives (R222). -/
def arriveRoomless (b : Barrier) (lanes : Nat) (cs : List (Nat × Word)) : Barrier × List (Nat × Word) :=
  cs.foldl (fun acc c =>
    let r := acc.1.arrive lanes c.2
    if r.1.opened then acc else (r.1, acc.2 ++ [(c.1, r.2)])) (b, [])

/-- `bar.arv` (R182). -/
def execBarArv (o : Operands) (s : State) :=
  issue (.barArv o) s (fun e s =>
    let k := e.o.mods 0 4
    let r := arriveAll (s.barrierOf e.w k) (s.blockLanes (e.w.block.getD 0)) (e.p.map (fun l => (l, e.b s l)))
    if e.p.isEmpty then s
    else (s.setBarrier e.w k r.1).writeRegs e.c.wid (r.2.flatMap (fun x => dstWrites x.1 e.o.d [x.2])))

/-- `bar.wait` (R182): lanes of one token form a group. -/
def execBarWait (o : Operands) (s : State) :=
  issue (.barWait o) s (fun e s =>
    let k := e.o.mods 0 4
    (groupBy (fun v => v.b0) (e.p.map (e.valsOf s 0 1 0 0))).foldl (fun s g =>
      s.waitGroup e g.2 (phasePassed (s.barrierOf e.w k).gen g.1) (.barrier k g.1.toNat) k) s)

/-- `bar.sync` (R182, R222): arrive, then wait. -/
def execBarSync (o : Operands) (s : State) :=
  issue (.barSync o) s (fun e s =>
    let k := e.o.mods 0 4
    let n := s.blockLanes (e.w.block.getD 0)
    let b := s.barrierOf e.w k
    let cs := e.p.map (fun l => (l, e.b s l))
    let r := arriveAll b n cs
    let waiting := (r.2.filter (fun x => !phasePassed r.1.gen x.2)).map (·.1)
    let x : Suspension :=
      { lanes := waiting, wait := .barrier k ((r.2.getLastD (0, 0)).2.toNat), ls := e.o.ls, tmo := e.o.tmo
        event := k, vals := waiting.map (e.valsOf s 0 1 0 0) }
    let write (s : State) (ls : List (Nat × Word)) (st : Word) : State :=
      s.writeRegs e.c.wid (ls.flatMap (fun y => dstWrites y.1 e.o.d [st, y.2]))
    let passed := r.2.filter (fun y => !waiting.contains y.1)
    let late := r.2.filter (fun y => waiting.contains y.1)
    if e.p.isEmpty then s
    else if waiting.isEmpty || e.o.tmo == 0 then write (write (s.setBarrier e.w k r.1) passed 0) late 1
    else if (s.suspend? e x).isNone then
      let q := arriveRoomless b n cs
      let left := e.p.filter (fun l => !(q.2.map (·.1)).contains l)
      (write (s.setBarrier e.w k q.1) q.2 0).raiseAll e left 0x20 0 0
    else
      let tok := late.flatMap (fun y => (dstWrites y.1 e.o.d [0, y.2]).drop 1)
      (write (s.setBarrier e.w k r.1) passed 0).suspend e { x with results := tok })

end Sys2Proof.Machine
end

