-- ==== Sys2Proof/Machine/Convert.lean ====
section
/-! DEFINITION. Conversions (spec/04_sequential_instructions.md R118 to R125; spec/02_number_formats.md R44 to R55). -/

namespace Sys2Proof.Machine

/-- What a conversion of several elements has done so far: generator, flags, results. -/
structure CvtAcc where
  gen : Word
  fl : BitVec 6 := 0
  outs : List Nat := []
  deriving DecidableEq, Repr

/-- The rounding mode of a conversion (Table 4.9). -/
def Env.cvtMode (e : Env) : Nat := if e.o.mods 0 3 == 0 then e.w.rnd.toNat else e.o.mods 0 3 - 1

/-- Convert one element: the generator advances first under .sr (R52). -/
def CvtAcc.step {α : Type} (sr : Bool) (f : Nat → α → FRes) (c : CvtAcc) (x : α) : CvtAcc :=
  let g := if sr then advance c.gen else c.gen
  let r := f g.toNat x
  { gen := g, fl := c.fl ||| r.fl, outs := c.outs ++ [r.bits] }

/-- Convert elements in order. -/
def cvtAll {α : Type} (sr : Bool) (f : Nat → α → FRes) (g : Word) (xs : List α) : CvtAcc :=
  xs.foldl (CvtAcc.step sr f) { gen := g }

/-- Format of a floating source type S (Table 4.9). -/
def cvtFmt (s : Nat) : Fmt :=
  match s with
  | 0 => fmtF32
  | 1 => fmtF16
  | 2 => fmtBf16
  | 3 => fmtE4m3
  | 4 => fmtE5m2
  | _ => fmtE2m1

/-- Type in which an operand of source type S is read (R18). -/
def cvtTy (s : Nat) : OpTy :=
  match s with
  | 0 => .f32
  | 1 => .f16
  | 2 => .bf16
  | _ => .int

/-- Element k of a word whose elements have n bits (R40). -/
def subField (w : Word) (n k : Nat) : Nat := w.toNat / 2 ^ (n * k) % 2 ^ n

/-- Element k of a word of source type S as a number. -/
def cvtVal (s : Nat) (w : Word) (k : Nat) : FVal :=
  if s == 6 then intVal w.toInt
  else if s == 7 then intVal w.toNat
  else (cvtFmt s).decode (subField w (1 + (cvtFmt s).eb + (cvtFmt s).mb) k)

/-- The elements a narrow conversion takes, in the order of Table 4.10: A then B for 32-bit sources, else elements of B;
four says that 8-bit and 4-bit sources give four elements. -/
def Env.cvtElems (e : Env) (s : State) (four : Bool) (l : Nat) : List FVal :=
  let src := cvtS e.o
  let el := cvtEl e.o
  let a := e.word s (cvtTy src) e.o.a l
  let b := e.word s (cvtTy src) e.o.b l
  if src == 0 || src == 6 || src == 7 then [cvtVal src a 0, cvtVal src b 0]
  else if src == 1 || src == 2 then [cvtVal src b 0, cvtVal src b 1]
  else if four then
    (if src == 5 then (List.range 4).map (fun k => cvtVal src b (4 * el + k)) else (List.range 4).map (cvtVal src b))
  else [cvtVal src b (2 * el), cvtVal src b (2 * el + 1)]

/-- One number to a format (Table 2.5, R121). -/
def Fmt.convert (f : Fmt) (mode : Nat) (sat : Bool) (rnd : Nat) (x : FVal) : FRes :=
  match x with
  | .nan sig =>
    (match f.sp with
     | .none => ⟨0, fNV⟩
     | _ => f.nanRes (if sig then fNV else 0))
  | .inf n =>
    let sg := if n then f.signBit else 0
    if sat then ⟨sg + f.maxBits, fST⟩
    else (match f.sp with
     | .ieee => f.inf n
     | .e4m3 => ⟨f.nan, fNV⟩
     | .none => ⟨sg + f.maxBits, fOF⟩)
  | .fin n m e => f.round mode sat rnd ⟨n, m, e, false⟩

/-- A conversion that R49 makes exact: to FP32 from a floating-point format, to FP16 or BF16 from an 8-bit or 4-bit
one. -/
def isWidening (src : Nat) (f : Fmt) : Bool :=
  (f.mb == 23 && src != 6 && src != 7) || ((f == fmtF16 || f == fmtBf16) && decide (3 ≤ src) && decide (src ≤ 5))

/-- Write the words of a conversion, its flags and the generator of each lane. -/
def State.perCvt (s : State) (e : Env) (f : Nat → Word → List Word × CvtAcc) : State :=
  s.modWarp e.c.wid (fun w => e.p.foldl (fun w l =>
    let r := f l (e.w.lane l).gen
    w.modLane l (fun x => { x.writeDst e.o.d r.1 with fpx := x.fpx ||| r.2.fl, gen := r.2.gen })) w)

/-- Convert given elements to a format under the instruction's mode and form. -/
def Env.cvtTo (e : Env) (f : Fmt) (g : Word) (xs : List FVal) : CvtAcc :=
  let sr := e.cvtMode == rmSr && !isWidening (cvtS e.o) f
  cvtAll sr (f.convert (if isWidening (cvtS e.o) f then rmRn else e.cvtMode) (e.o.modBit 3)) g xs

/-- Replace elements of n bits from element k on in a word (R119). -/
def putFields (w : Word) (n k : Nat) (xs : List Nat) : Word :=
  (List.range xs.length).foldl (fun w j =>
    (w &&& ~~~(BitVec.ofNat 32 ((2 ^ n - 1) * 2 ^ (n * (k + j))))) ||| BitVec.ofNat 32 (xs.getD j 0 * 2 ^ (n * (k + j)))) w

/-- cvt.f16 and cvt.bf16 (Table 4.10). -/
def State.cvtHalves (s : State) (e : Env) (f : Fmt) : State :=
  s.perCvt e (fun l g =>
    let r := e.cvtTo f g (e.cvtElems s false l)
    ([putFields 0 16 0 r.outs], r))

/-- cvt.e4m3 and cvt.e5m2 (Table 4.10): two bytes at 2·EL, or four. -/
def State.cvtBytes (s : State) (e : Env) (f : Fmt) : State :=
  s.perCvt e (fun l g =>
    let r := e.cvtTo f g (e.cvtElems s true l)
    if r.outs.length == 4 then ([putFields 0 8 0 r.outs], r)
    else ([putFields (e.d s l) 8 (2 * cvtEl e.o) r.outs], r))

/-- Range of ITYPE (R55, R122). -/
def intRange (it : Nat) : Int × Int :=
  match it with
  | 0 => (-(2 ^ 31), 2 ^ 31 - 1)
  | 1 => (0, 2 ^ 32 - 1)
  | 2 => (-(2 ^ 15), 2 ^ 15 - 1)
  | 3 => (0, 2 ^ 16 - 1)
  | 4 => (-128, 127)
  | _ => (0, 255)

/-- Conversion to an integer (R55); the result is extended to 32 bits (R122). -/
def toIntType (it mode rnd : Nat) (x : FVal) : FRes :=
  let r := intRange it
  let word (v : Int) : Nat := (BitVec.ofInt 32 v).toNat
  match x with
  | .nan _ => ⟨0, fNV⟩
  | .inf n => ⟨word (if n then r.1 else r.2), fNV⟩
  | .fin n m e =>
    let v := roundToInt mode rnd ⟨n, m, e, false⟩
    if v.1 < r.1 then ⟨word r.1, fNV ||| fNX⟩
    else if r.2 < v.1 then ⟨word r.2, fNV ||| fNX⟩
    else ⟨word v.1, if v.2 then fNX else 0⟩

/-- One channel of packed colour (R47). A negative infinity becomes +0 with FPX.NX, and in the saturating form with FPX.ST
as well: it is an infinity encoded as a finite value (Table 2.6). -/
def colourChannel (f : Fmt) (mode : Nat) (sat : Bool) (rnd : Nat) (x : FVal) : FRes :=
  match x with
  | .nan sig => f.nanRes (if sig then fNV else 0)
  | .inf n => if n then ⟨0, if sat then fNX ||| fST else fNX⟩ else f.convert mode sat rnd x
  | .fin n m _ => if n then ⟨0, if m == 0 then 0 else fNX⟩ else f.convert mode sat rnd x

/-- Largest of finite magnitudes as m · 2^e (R44). DESIGN CHOICE (assumption log 24): 0 where no finite input remains, in the
saturating form with 32 infinities. -/
def maxMag (xs : List FVal) : Nat × Int :=
  xs.foldl (fun a x => match x with
    | .fin _ m e => if magLt a.1 a.2 m e then (m, e) else a
    | _ => a) (0, 0)

/-- The exponent s of an E2M1 block (R44 step 2). -/
def mxScale (a : Nat × Int) : Int :=
  if a.1 == 0 then -127
  else
    let s0 : Int := Nat.log2 a.1 + a.2 - 2
    max (-127) (min 127 (if magLt 6 s0 a.1 a.2 then s0 + 1 else s0))

/-- Element of an E2M1 block (R44 step 3). -/
def mxElem (s : Int) (mode : Nat) (sat : Bool) (rnd : Nat) (x : FVal) : FRes :=
  match x with
  | .nan _ => ⟨0, 0⟩
  | .inf n => ⟨(if n then 8 else 0) + 7, fST⟩
  | .fin n m e => fmtE2m1.round mode sat rnd ⟨n, m, e - s, false⟩

/-- An E2M1 block from 32 numbers: scale byte, and elements with generator and flags (R44, R123). -/
def mxBlock (mode : Nat) (sat : Bool) (g : Word) (xs : List FVal) : Nat × CvtAcc :=
  let sr := mode == rmSr
  let dead (fl : BitVec 6) : Nat × CvtAcc :=
    let r := cvtAll sr (fun _ (_ : FVal) => ⟨0, 0⟩) g xs
    (0xFF, { r with fl := fl })
  if xs.any FVal.isNan then dead fNV
  else if !sat && xs.any FVal.isInf then dead fOF
  else
    let s := mxScale (maxMag xs)
    ((s + 127).toNat, cvtAll sr (mxElem s mode sat) g xs)

/-- Element of an integer block of bound L with scale value m · 2^e (R45 step 3). m = 0 stands for a scale of 0. -/
def mxiElem (bound : Nat) (sm : Nat) (se : Int) (infScale : Bool) (mode rnd : Nat) (x : FVal) : FRes :=
  let code (v : Int) : Nat := (v % (2 * (bound + 1) : Nat)).toNat
  match x with
  | .nan _ => ⟨0, 0⟩
  | .inf n => ⟨code (if n then -(bound : Int) else bound), fST⟩
  | .fin n m e =>
    if sm == 0 || infScale then ⟨0, 0⟩
    else
      let v := roundToInt mode rnd (if m == 0 then ⟨n, 0, 0, false⟩ else divExact n m e sm se)
      if v.1 < -(bound : Int) then ⟨code (-(bound : Int)), fST ||| fNX⟩
      else if (bound : Int) < v.1 then ⟨code bound, fST ||| fNX⟩
      else ⟨code v.1, if v.2 then fNX else 0⟩

/-- An integer block from 32 numbers (R45, R123): scale half, and elements with generator and flags. -/
def mxiBlock (bound mode : Nat) (sat : Bool) (g : Word) (xs : List FVal) : Nat × CvtAcc :=
  let sr := mode == rmSr
  let dead (sc : Nat) (fl : BitVec 6) : Nat × CvtAcc :=
    let r := cvtAll sr (fun _ (_ : FVal) => ⟨0, 0⟩) g xs
    (sc, { r with fl := fl })
  if xs.any FVal.isNan then dead 0x7E00 fNV
  else if !sat && xs.any FVal.isInf then dead 0x7C00 fOF
  else
    let a := maxMag xs
    let scale := if a.1 == 0 then ⟨0, 0⟩ else fmtF16.round rmRup sat 0 (divExact false a.1 a.2 bound 0)
    let fl := scale.fl &&& (fOF ||| fST)
    let r :=
      match fmtF16.decode scale.bits with
      | .fin _ m e => cvtAll sr (mxiElem bound m e false mode) g xs
      | _ => cvtAll sr (mxiElem bound 1 0 true mode) g xs
    (scale.bits, { r with fl := r.fl ||| fl })

/-- The 32 numbers of a window at A (R123). -/
def Env.window32 (e : Env) (s : State) (l : Nat) : List FVal :=
  (e.words s 32 false e.o.a l).map (fun w => fmtF32.decode w.toNat)

/-- Registers of packed elements of n bits. -/
def packWords (n : Nat) (xs : List Nat) : Nat → List Word
  | 0 => []
  | k + 1 => putFields 0 n 0 (xs.take (32 / n)) :: packWords n (xs.drop (32 / n)) k

/-- A signed element of a block. -/
def blockInt (w : Word) (n k : Nat) : Int :=
  let v := subField w n k
  if v < 2 ^ (n - 1) then (v : Int) else (v : Int) - 2 ^ n

/-- cvt.unmx of an integer block (R124): S · qi, exact where S is finite; an infinite one sets no flag. -/
def unmxInt (scale : Nat) (q : Int) : FRes :=
  match fmtF16.decode scale with
  | .nan sig => fmtF32.nanRes (if sig then fNV else 0)
  | .inf n => if q == 0 then fmtF32.nanRes fNV else fmtF32.inf (n != decide (q < 0))
  | .fin n m e => fmtF32.round rmRn false 0 ⟨n != decide (q < 0), m * q.natAbs, e, false⟩

/-- cvt.unmx (R124) on the words of a block: kind, element, mode, form, generator word. -/
def unmxWord (kind k mode : Nat) (sat : Bool) (rnd : Nat) (ws : List Word) : FRes :=
  if kind == 0 then
    let x := (ws.getD 4 0).toNat % 256
    if x == 255 then fmtF32.nanRes 0
    else
      match fmtE2m1.decode (subField (ws.getD (k / 8) 0) 4 (k % 8)) with
      | .fin n m e => fmtF32.round mode sat rnd ⟨n, m, e + x - 127, false⟩
      | _ => fmtF32.nanRes 0
  else if kind == 1 then unmxInt ((ws.getD 8 0).toNat % 2 ^ 16) (blockInt (ws.getD (k / 4) 0) 8 (k % 4))
  else unmxInt ((ws.getD 4 0).toNat % 2 ^ 16) (blockInt (ws.getD (k / 8) 0) 4 (k % 8))

/-- `cvt.f32` (Table 4.10). -/
def execCvtF32 (o : Operands) (s : State) :=
  issue (.cvtF32 o) s (fun e s => s.perCvt e (fun l g =>
    let r := e.cvtTo fmtF32 g [cvtVal (cvtS e.o) (e.word s (cvtTy (cvtS e.o)) e.o.b l) (cvtEl e.o)]
    ([putFields 0 32 0 r.outs], r)))
/-- `cvt.f16` (Table 4.10). -/
def execCvtF16 (o : Operands) (s : State) := issue (.cvtF16 o) s (fun e s => s.cvtHalves e fmtF16)
/-- `cvt.bf16` (Table 4.10). -/
def execCvtBf16 (o : Operands) (s : State) := issue (.cvtBf16 o) s (fun e s => s.cvtHalves e fmtBf16)
/-- `cvt.e4m3` (Table 4.10). -/
def execCvtE4m3 (o : Operands) (s : State) := issue (.cvtE4m3 o) s (fun e s => s.cvtBytes e fmtE4m3)
/-- `cvt.e5m2` (Table 4.10). -/
def execCvtE5m2 (o : Operands) (s : State) := issue (.cvtE5m2 o) s (fun e s => s.cvtBytes e fmtE5m2)
/-- `cvt.e2m1` (R121): nibbles 2·EL or 4·EL on. -/
def execCvtE2m1 (o : Operands) (s : State) :=
  issue (.cvtE2m1 o) s (fun e s => s.perCvt e (fun l g =>
    let r := e.cvtTo fmtE2m1 g (e.cvtElems s true l)
    ([putFields (e.d s l) 4 (r.outs.length * cvtEl e.o) r.outs], r)))
/-- `cvt.int` (R122). -/
def execCvtInt (o : Operands) (s : State) :=
  issue (.cvtInt o) s (fun e s => s.perCvt e (fun l g =>
    let r := cvtAll (e.cvtMode == rmSr) (toIntType (cvtIt e.o) e.cvtMode) g
      [cvtVal (cvtS e.o) (e.word s (cvtTy (cvtS e.o)) e.o.b l) (cvtEl e.o)]
    ([putFields 0 32 0 r.outs], r)))
/-- `cvt.rgb` (R125). -/
def execCvtRgb (o : Operands) (s : State) :=
  issue (.cvtRgb o) s (fun e s => s.perCvt e (fun l g =>
    let x (y : Operand) : FVal := fmtF32.decode (e.word s .f32 y l).toNat
    let r := cvtAll (e.cvtMode == rmSr)
      (fun rnd (p : Fmt × FVal) => colourChannel p.1 e.cvtMode (e.o.modBit 3) rnd p.2) g
      [(fmtColour6, x e.o.a), (fmtColour6, x e.o.b), (fmtColour5, x e.o.c)]
    ([BitVec.ofNat 32 (r.outs.getD 0 0 + r.outs.getD 1 0 * 2 ^ 11 + r.outs.getD 2 0 * 2 ^ 22)], r)))
/-- `cvt.mxf4` (R123). -/
def execCvtMxf4 (o : Operands) (s : State) :=
  issue (.cvtMxf4 o) s (fun e s => s.perCvt e (fun l g =>
    let r := mxBlock e.cvtMode (e.o.modBit 3) g (e.window32 s l)
    (packWords 4 r.2.outs 4 ++ [BitVec.ofNat 32 r.1], r.2)))
/-- `cvt.mxi8` (R123). -/
def execCvtMxi8 (o : Operands) (s : State) :=
  issue (.cvtMxi8 o) s (fun e s => s.perCvt e (fun l g =>
    let r := mxiBlock 127 e.cvtMode (e.o.modBit 3) g (e.window32 s l)
    (packWords 8 r.2.outs 8 ++ [BitVec.ofNat 32 r.1], r.2)))
/-- `cvt.mxi4` (R123). -/
def execCvtMxi4 (o : Operands) (s : State) :=
  issue (.cvtMxi4 o) s (fun e s => s.perCvt e (fun l g =>
    let r := mxiBlock 7 e.cvtMode (e.o.modBit 3) g (e.window32 s l)
    (packWords 4 r.2.outs 4 ++ [BitVec.ofNat 32 r.1], r.2)))
/-- A channel of packed colour as FP32 (Table 4.10): exact, but for an infinity under .sat, which Table 2.5 turns into the
largest finite value with FPX.ST (assumption log 24). -/
def unrgbChannel (f : Fmt) (v : Nat) (sat : Bool) : FRes :=
  match f.decode v with
  | .inf n => fmtF32.convert rmRn sat 0 (.inf n)
  | _ => ⟨f.widen v, 0⟩

/-- `cvt.unrgb` (Table 4.10). -/
def execCvtUnrgb (o : Operands) (s : State) :=
  issue (.cvtUnrgb o) s (fun e s => s.perCvt e (fun l g =>
    let b := (e.b s l).toNat
    let x : Fmt × Nat := match cvtEl e.o with
      | 0 => (fmtColour6, b % 2 ^ 11)
      | 1 => (fmtColour6, b / 2 ^ 11 % 2 ^ 11)
      | _ => (fmtColour5, b / 2 ^ 22)
    let r := cvtAll false (fun _ (x : Fmt × Nat) => unrgbChannel x.1 x.2 (e.o.modBit 3)) g [x]
    ([putFields 0 32 0 r.outs], r)))
/-- `cvt.unmx` (R124): an element of an E2M1 block is rounded by the mode, with one step under .sr (R52); one of an
integer block is exact and takes none. Assumption log 30. -/
def execCvtUnmx (o : Operands) (s : State) :=
  issue (.cvtUnmx o) s (fun e s => s.perCvt e (fun l g =>
    let ws := e.words s 9 false e.o.a l
    let r := cvtAll (e.cvtMode == rmSr && cvtS e.o == 0)
      (fun rnd k => unmxWord (cvtS e.o) k e.cvtMode (e.o.modBit 3) rnd ws) g [(e.b s l).toNat % 32]
    ([putFields 0 32 0 r.outs], r)))

end Sys2Proof.Machine
end

