-- ==== Sys2Proof/Machine/MatrixEngine.lean ====
section
/-! DEFINITION. The Matrix Engine, the weight buffer and the matrix-to-vector queues (spec/14_matrix_engine.md R299 to
R320; spec/02_number_formats.md R58, R59). -/

namespace Sys2Proof.Machine

/-- Fields of a matrix parameter block (Table 14.1). -/
def mmCtl (p : List Byte) : Nat := fieldOf p 0 4
def mmAfmt (p : List Byte) : Nat := mmCtl p % 16
def mmBfmt (p : List Byte) : Nat := mmCtl p / 2 ^ 4 % 16
def mmWf (p : List Byte) : Nat := mmCtl p / 2 ^ 8 % 4
def mmAtr (p : List Byte) : Bool := bitOf (mmCtl p) 10
def mmInit (p : List Byte) : Bool := bitOf (mmCtl p) 11
def mmDrain (p : List Byte) : Bool := bitOf (mmCtl p) 12
def mmQueue (p : List Byte) : Nat := mmCtl p / 2 ^ 13 % 4
def mmM (p : List Byte) : Nat := fieldOf p 4 2
def mmN (p : List Byte) : Nat := fieldOf p 6 2
def mmK (p : List Byte) : Nat := fieldOf p 8 2
def mmAcc (p : List Byte) : Nat := fieldOf p 10 2
def mmAoff (p : List Byte) : Nat := fieldOf p 16 4
def mmAstr (p : List Byte) : Nat := fieldOf p 20 4
def mmAscl (p : List Byte) : Nat := fieldOf p 24 4
def mmBoff (p : List Byte) : Nat := fieldOf p 32 4
def mmBstr (p : List Byte) : Nat := fieldOf p 36 4
def mmBscl (p : List Byte) : Nat := fieldOf p 40 4

/-- Bits of an element and bytes of a scale (Table 14.2). -/
def mmBits (fmt : Nat) : Nat := if fmt ≤ 1 then 16 else if fmt == 4 || fmt == 6 then 4 else 8
def mmScaleBytes (fmt : Nat) : Nat := if fmt == 4 then 1 else if fmt == 5 || fmt == 6 then 2 else 0
/-- The wide class (Table 14.2). -/
def mmWide (fmt : Nat) : Bool := decide (fmt ≤ 1)

/-- Registers of a register-mode tile (R304). -/
def mmRegs (p : List Byte) : Nat := mmM p * mmN p / 32

/-- Row 3 of Table 14.5. -/
def mmIllFormed (p : List Byte) : Bool :=
  let size (x : Nat) : Bool := x == 16 || x == 32 || x == 48 || x == 64
  decide (2 ^ 16 ≤ mmCtl p) || fieldOf p 12 4 != 0 || fieldOf p 28 4 != 0 || fieldOf p 44 20 != 0 ||
    (!mmDrain p && mmQueue p != 0) || (mmDrain p && mmAcc p != 0) ||
    (mmScaleBytes (mmAfmt p) == 0 && mmAscl p != 0) || (mmScaleBytes (mmBfmt p) == 0 && mmBscl p != 0) ||
    decide (7 ≤ mmAfmt p) || decide (7 ≤ mmBfmt p) || !size (mmM p) || !size (mmN p) ||
    decide (mmK p < 16) || decide (512 < mmK p) || mmK p % 16 != 0

/-- Row 4 of Table 14.5. -/
def mmBadClass (p : List Byte) : Bool :=
  (mmWide (mmAfmt p) != mmWide (mmBfmt p)) || (!mmWide (mmAfmt p) && mmK p % 32 != 0) ||
    (mmWide (mmAfmt p) && decide (2 ^ 20 < mmM p * mmN p * mmK p))

/-- Row 5 of Table 14.5. -/
def mmBadForm (p : List Byte) : Bool :=
  mmWf p == 3 || (mmWf p == 2 && ((mmBfmt p != 2 && mmBfmt p != 3) || mmK p % 64 != 0))

/-- Row 6 of Table 14.5. -/
def mmBadMode (p : List Byte) (footprint : Nat) (holds : Bool) : Bool :=
  if mmDrain p then !holds || decide (32 < mmM p) || mmInit p
  else decide (640 < mmAcc p + mmRegs p) || decide (footprint < mmAcc p + mmRegs p)

/-- Row 7 of Table 14.5. -/
def mmMisaligned (p : List Byte) : Bool :=
  mmAoff p % 16 != 0 || mmAstr p % 16 != 0 || mmBoff p % 16 != 0 || mmBstr p % 16 != 0 ||
    (mmScaleBytes (mmAfmt p) != 0 && mmAscl p % 16 != 0) || (mmScaleBytes (mmBfmt p) != 0 && mmBscl p % 16 != 0)

/-- Stored rows of A: how many, and bytes of each (R303). -/
def mmARows (p : List Byte) : Nat × Nat :=
  if mmAtr p then (mmK p, mmM p * mmBits (mmAfmt p) / 8) else (mmM p, mmK p * mmBits (mmAfmt p) / 8)

/-- Bytes of a column record (Table 14.3). -/
def mmRecordBytes (p : List Byte) : Nat :=
  match mmWf p with
  | 0 => mmK p * mmBits (mmBfmt p) / 8
  | 1 => mmK p * mmBits (mmBfmt p) / 16 + mmK p / 8
  | _ => 3 * mmK p / 4

/-- Extents an operation reads of shared memory (R303) and of the weight buffer (R306, R307): first byte and length. -/
def mmAExtents (p : List Byte) : List (Nat × Nat) :=
  ((List.range (mmARows p).1).map (fun r => (mmAoff p + r * mmAstr p, (mmARows p).2))) ++
  [(mmAscl p, mmM p * (mmK p / 32) * mmScaleBytes (mmAfmt p))]
def mmBExtents (p : List Byte) : List (Nat × Nat) :=
  ((List.range (mmN p)).map (fun j => (mmBoff p + j * mmBstr p, mmRecordBytes p))) ++
  [(mmBscl p, mmN p * (mmK p / 32) * mmScaleBytes (mmBfmt p))]

/-- Bytes of extents at or beyond a limit: the lowest offset of each extent that has one. -/
def beyond (xs : List (Nat × Nat)) (limit : Nat) : List Nat :=
  (xs.filter (fun x => x.2 != 0 && decide (limit < x.1 + x.2))).map (fun x => max x.1 limit)

/-- The trap of mm.go from its block at offset o, with its FADDR (R309, Table 14.5); code 0 for none. -/
def mmTrap (p : List Byte) (footprint shared weight : Nat) (holds : Bool) (o : Nat) : Nat × Nat :=
  let bad28 := mmIllFormed p || mmBadClass p || mmBadMode p footprint holds
  let legal := !bad28 && !mmBadForm p
  let past := beyond (mmAExtents p) shared
  let code := lowestTrap [
    (legal && !past.isEmpty, 0x11), (mmMisaligned p, 0x12),
    (bad28 || (legal && !(beyond (mmBExtents p) weight).isEmpty), 0x28), (mmBadForm p, 0x29)]
  (code, if code == 0x11 then leastOf past else o)

/-- Accepted matrix operations of a core in acceptance order (R299). -/
def State.matrixOps (s : State) (d c : Nat) : List (EngineOp × MatrixOp) :=
  s.ops.filterMap (fun o => match o.kind with
    | .matrix m => if o.die == d && o.core == c then some (o, m) else none
    | _ => none)

/-- A matrix queue of a block. -/
def Block.mxq (b : Block) (q : Nat) : Mxq := b.mxqs.getD q {}
/-- Change a matrix queue of a block. -/
def State.modMxq (s : State) (bid q : Nat) (f : Mxq → Mxq) : State :=
  s.modBlock bid (fun b => { b with mxqs := (List.range 4).map (fun k => if k == q then f (b.mxq k) else b.mxq k) })

/-- A matrix queue of a warp's block. -/
def State.mxqOf (s : State) (w : Warp) (q : Nat) : Mxq :=
  match s.blockOf w with
  | some b => b.mxq q
  | none => {}

/-- The core's engine holds as many operations as it can (R299). -/
def State.mmFull (s : State) (w : Warp) : Bool := decide (Config.matrixSlots ≤ (s.matrixOps w.die w.core).length)

/-- A drain-mode operation finds no room in its queue (R316). -/
def State.mmBusy (s : State) (w : Warp) (p : List Byte) : Bool :=
  let q := s.mxqOf w (mmQueue p)
  mmDrain p && decide (32 < q.entries.length + q.reserved + mmM p)

/-- Accept an operation (R300, R309, R310, R316). -/
def State.acceptMatrix (s : State) (e : Env) (p : List Byte) : State :=
  let t := e.w.matL + 1
  let m : MatrixOp := { params := p, ticket := t }
  let b := e.w.block.getD 0
  let from_ (sp : Space) (x : Nat × Nat) : Source := { space := some sp, first := x.1, len := x.2 }
  let o : EngineOp :=
    { oid := s.nextId, die := e.w.die, core := e.w.core, ctx := e.w.ctx, wid := e.c.wid, block := e.w.block
      colour := e.o.col, kind := .matrix m
      sources := (mmAExtents p).map (from_ (.shared b)) ++ (mmBExtents p).map (from_ (.weight b)) }
  let held := regRange m.regRange.1 m.regRange.2
  let s1 := { s with nextId := s.nextId + 1, ops := s.ops ++ [o] }
  let s2 := s1.modWarp e.c.wid (fun w =>
    { w with matL := t, records := w.records.map (fun r => { r with exempt := (r.exempt ++ held).eraseDups }) })
  let s3 := if mmDrain p then
      s2.modMxq (e.w.block.getD 0) (mmQueue p) (fun q => { q with reserved := q.reserved + mmM p })
    else s2
  s3.answer e [t]

/-- `mm.go` (R309): while the engine holds four operations it is not ready to issue (R299). -/
def execMmGo (o : Operands) (s : State) :=
  issue (.mmGo o) s (fun e s =>
    let off := (e.b s e.elected).toNat
    let early := lowestTrap [(decide (s.sharedLimit e.w < off + 64), 0x11), (off % 64 != 0, 0x12)]
    let ks := s.ownedLines e.w true off 64
    if s.mmFull e.w then s.holdBack e
    else if e.p.isEmpty then s
    else if early != 0 then s.raiseAll e e.p early off 0
    else if !ks.isEmpty then s.suspendBefore e ks []
    else
      let p := s.spaceBytes (e.w.space true) off 64
      let t := mmTrap p e.w.footprint (s.sharedLimit e.w) (s.weightLimit e.w)
        (((s.blockOf e.w).map (·.holdsMxq)).getD false) off
      if t.1 != 0 then s.raiseAll e e.p t.1 t.2 0
      else if s.mmBusy e.w p then s.holdBack e
      else s.acceptMatrix e p)

/-- Ticket t is complete (R300). -/
def Warp.ticketDone (w : Warp) (t : Word) : Bool := !(w.matC - t).msb

/-- `mm.wait` (R313): lanes of one ticket form a group. -/
def execMmWait (o : Operands) (s : State) :=
  issue (.mmWait o) s (fun e s =>
    (groupBy (fun v => v.b0) (e.p.map (e.valsOf s 0 1 0 0))).foldl (fun s g =>
      s.waitGroup e g.2 (e.w.ticketDone g.1) (.ticket g.1) g.1.toNat) s)

/-- The state word of a ticket (Table 14.6). -/
def State.ticketState (s : State) (w : Warp) (t : Word) : Nat :=
  if w.ticketDone t then 0
  else if (w.matL - t).msb then 3
  else if (s.matrixOps w.die w.core).any (fun x => x.1.wid == w.wid && x.2.ticket == t && x.2.started) then 2
  else 1

/-- `mm.st` (R314). -/
def execMmSt (o : Operands) (s : State) :=
  issue (.mmSt o) s (fun e s => s.perWord e (fun l => BitVec.ofNat 32 (s.ticketState e.w (e.b s l))))

/-- The register writes of a popped entry in lanes (R317). -/
def mxqWrites (d : Operand) (ls : List Nat) (x : List Word) : List RegWrite :=
  ls.flatMap (fun l => dstWrites l d [x.getD (2 * l) 0, x.getD (2 * l + 1) 0, 0])

/-- Write a status as the third word of a destination. -/
def statusThird (d : Operand) (ls : List Nat) (st : Nat) : List RegWrite :=
  ls.flatMap (fun l => (dstWrites l d [0, 0, BitVec.ofNat 32 st]).drop 2)

/-- `mxq.pop` (R317). -/
def execMxqPop (o : Operands) (s : State) :=
  issue (.mxqPop o) s (fun e s =>
    let k := e.o.mods 0 2
    let q := s.mxqOf e.w k
    if e.p.isEmpty then s
    else
      match q.entries with
      | x :: xs =>
        (s.modMxq (e.w.block.getD 0) k (fun q => { q with entries := xs })).writeRegs e.c.wid (mxqWrites e.o.d e.p x)
      | [] =>
        if e.o.tmo == 0 then s.writeRegs e.c.wid (statusThird e.o.d e.p 4)
        else s.suspend e { lanes := e.p, wait := .mxq k, ls := e.o.ls, tmo := e.o.tmo, event := k })

/-- The word of mxq.len (Table 14.7). -/
def Mxq.countWord (q : Mxq) : Word := BitVec.ofNat 32 (q.reserved * 2 ^ 8 + q.entries.length)

/-- `mxq.len` (R318). -/
def execMxqLen (o : Operands) (s : State) :=
  issue (.mxqLen o) s (fun e s =>
    s.perWord e (fun _ => (s.mxqOf e.w (e.o.mods 0 2)).countWord))

/-- Waiting records of a test over every warp, the earliest suspended first, then the lower SEQ (R317, R226). -/
def State.waiters (s : State) (f : Warp → Record → Bool) : List (Warp × Record) :=
  sortBy (fun x y => recordLt [x.2.suspendedAt] [y.2.suspendedAt] x.2.seq y.2.seq)
    (s.warps.flatMap (fun w => (w.records.filter (fun r => r.state == .waiting && f w r)).map (fun r => (w, r))))

/-- A waiting record becomes ready with a status in its status register (R224, R225). -/
def State.readyStatus (s : State) (wid : Nat) (r : Record) (st : Nat) : State :=
  s.ready wid r.seq (if r.sdst < 640 then r.lanes.map (fun l => ⟨l, r.sdst, BitVec.ofNat 32 st⟩) else [])

/-- A waiting record is cancelled (R225): status 3, and 0 as the word of wait.addr (R271). -/
def State.cancel (s : State) (wid : Nat) (r : Record) : State :=
  match r.instr with
  | some (.waitAddr o) => s.ready wid r.seq (waitWrites o r.vals 3 0)
  | _ => s.readyStatus wid r 3

/-- Waiting records of an object that is reset are cancelled (R225). -/
def State.cancelWaiters (s : State) (f : Warp → Record → Bool) : State :=
  (s.waiters f).foldl (fun s x => s.cancel x.1.wid x.2) s

/-- A record waits on queue q of a block. -/
def waitsMxq (bid q : Nat) (w : Warp) (r : Record) : Bool := w.block == some bid && r.wait == .mxq q

/-- `mxq.rst` (R318). -/
def execMxqRst (o : Operands) (s : State) :=
  issue (.mxqRst o) s (fun e s =>
    let k := e.o.mods 0 2
    let b := e.w.block.getD 0
    if e.p.isEmpty then s
    else if 0 < (s.mxqOf e.w k).reserved then s.holdBack e
    else (s.modMxq b k (fun q => { q with entries := [] })).cancelWaiters (waitsMxq b k))

/-- `wb.load` (R319). -/
def execWbLoad (o : Operands) (s : State) := issue (.wbLoad o) s (fun e s => s.copyInstr e true)

/-- `wb.clr` (R320). -/
def execWbClr (o : Operands) (s : State) :=
  issue (.wbClr o) s (fun e s =>
    let off := (e.b s e.elected).toNat
    let n := (e.a s e.elected).toNat
    let code := lowestTrap [(off % 128 != 0 || n % 128 != 0, 0x12), (decide (s.weightLimit e.w < off + n), 0x28)]
    if e.p.isEmpty then s
    else if code != 0 then s.raiseAll e e.p code off 0
    else
      let op : EngineOp :=
        { oid := s.nextId, die := e.w.die, core := e.w.core, ctx := e.w.ctx, wid := e.c.wid, block := e.w.block
          colour := e.o.col, kind := .clear off n [], payload := (List.range n).map (fun k => (k, 0)) }
      let s1 := { s with nextId := s.nextId + 1, ops := s.ops ++ [op] }
      if n == 0 then s1.retire op
      else s1.own (.op op.oid) ((linesOf off n).map (fun k => .weight (e.w.block.getD 0) k)))

/-- ENGINE_LINE_RELEASE of wb.clr (R320): the line is cleared and given up; the last one completes the operation. -/
def State.clearRelease (s : State) (o : EngineOp) (off len : Nat) (released : List LineKey) (key : LineKey) : State :=
  if s.owns (.op o.oid) key then
    let s1 := s.spaceWrite (keyPlace key).1 (128 * (keyPlace key).2) (List.replicate 128 0) none
    let s2 := (s1.releaseLines (.op o.oid) [key]).modOp o.oid (fun x => { x with kind := .clear off len (key :: released) })
    if (s2.linesOfOwner (.op o.oid)).isEmpty then s2.retire o else s2
  else s

/-- Element k of packed elements of z bits (R303, R40). -/
def packedAt (bs : List Byte) (z k : Nat) : Nat :=
  if z == 4 then fieldOf bs (k / 2) 1 / 16 ^ (k % 2) % 16 else fieldOf bs (k * z / 8) (z / 8)

/-- The value of an element code (Table 14.2, R36, R42, R43). -/
def mmValue (fmt bits : Nat) : FVal :=
  match fmt with
  | 0 => fmtF16.decode bits
  | 1 => fmtBf16.decode bits
  | 2 => fmtE4m3.decode bits
  | 3 => fmtE5m2.decode bits
  | 4 => fmtE2m1.decode bits
  | 5 => intVal (toSigned bits 8)
  | _ => intVal (toSigned bits 4)

/-- The scale at index n of scale bytes; a format without a scale has the factor 1 (R302, R41). -/
def mmScale (fmt : Nat) (bs : List Byte) (n : Nat) : FVal :=
  if mmScaleBytes fmt == 0 then .fin false 1 0
  else if fmt == 4 then (if fieldOf bs n 1 == 255 then .nan false else .fin false 1 ((fieldOf bs n 1 : Int) - 127))
  else fmtF16.decode (fieldOf bs (2 * n) 2)

/-- The code of element k of a column record (R306). -/
def columnCode (p : List Byte) (rec_ : List Byte) (k : Nat) : Nat :=
  let z := mmBits (mmBfmt p)
  match mmWf p with
  | 0 => packedAt rec_ z k
  | 1 =>
    let q := k / 4
    let nib := fieldOf rec_ (mmK p * z / 16 + q / 2) 1 / 16 ^ (q % 2) % 16
    if k % 4 == nib / 4 then packedAt rec_ z (2 * q + 1)
    else if k % 4 == nib % 4 then packedAt rec_ z (2 * q)
    else 0
  | _ =>
    let g := rec_.drop (48 * (k / 64))
    fieldOf g (fieldOf g (16 + k % 64 / 2) 1 / 16 ^ (k % 2) % 16) 1

/-- An element with its scale; none is a NaN (R42, R43). -/
def scaled (v sc : FVal) : FVal := (v.mul sc).getD (.nan false)

/-- Element (i, k) of A and (k, j) of B of a started operation, scaled (R303, R306, R307). -/
def MatrixOp.aElem (m : MatrixOp) (i k : Nat) : FVal :=
  let f := mmAfmt m.params
  let bits := if mmAtr m.params then packedAt (m.aRows.getD k []) (mmBits f) i else packedAt (m.aRows.getD i []) (mmBits f) k
  scaled (mmValue f bits) (mmScale f m.aScales (i * (mmK m.params / 32) + k / 32))
def MatrixOp.bElem (m : MatrixOp) (k j : Nat) : FVal :=
  let f := mmBfmt m.params
  scaled (mmValue f (columnCode m.params (m.bCols.getD j []) k)) (mmScale f m.bScales (j * (mmK m.params / 32) + k / 32))

/-- The exact sum of two values (R59). -/
def FVal.plus : FVal → FVal → FVal
  | .nan x, _ => .nan x
  | _, .nan x => .nan x
  | .inf x, .inf y => if x == y then .inf x else .nan false
  | .inf x, .fin _ _ _ => .inf x
  | .fin _ _ _, .inf y => .inf y
  | .fin n1 m1 e1, .fin n2 m2 e2 =>
    let r := addFin rmRn n1 m1 e1 n2 m2 e2
    .fin r.neg r.m r.e

/-- A chunk sum (R58, R59): exact; a zero sum is negative only when every product is. -/
def chunkSum : List FVal → FVal
  | [] => .fin false 0 0
  | x :: xs => xs.foldl FVal.plus x

/-- Result element (i, j) from a starting word (R58). -/
def MatrixOp.element (m : MatrixOp) (i j : Nat) (c : Nat) : Nat :=
  let w := if mmWide (mmAfmt m.params) then 8 else 32
  (List.range (mmK m.params / w)).foldl (fun c q =>
    let s := chunkSum ((List.range w).map (fun r => scaled (m.aElem i (q * w + r)) (m.bElem (q * w + r) j)))
    (fmtF32.addVals rmRn (fmtF32.decode c) s).bits) c

/-- MATRIX_START (R299, R303, R306, R307, R312): the earlier operations have started and no source line is owned. -/
def State.startMatrix (s : State) (o : EngineOp) (m : MatrixOp) : State :=
  let p := m.params
  let b := o.block.getD 0
  let earlier := (s.matrixOps o.die o.core).takeWhile (fun x => x.1.oid != o.oid)
  let keys := (mmAExtents p).flatMap (fun x => spaceLines (.shared b) x.1 x.2) ++
    (mmBExtents p).flatMap (fun x => spaceLines (.weight b) x.1 x.2)
  if !m.started && earlier.all (fun x => x.2.started) && keys.all (fun k => !s.isOwned k) then
    s.modOp o.oid (fun o => { o with kind := .matrix { m with started := true } })
  else s

/-- The sources of an operation as it reads them for result row i, or for all of them at once (R239): what was read for an
earlier row stays as it was read. -/
def State.readMatrix (s : State) (o : EngineOp) (m : MatrixOp) (i : Nat) : MatrixOp :=
  let p := m.params
  let b := o.block.getD 0
  let bytes (sp : Space) (x : Nat × Nat) : List Byte := s.sourceBytes o sp x.1 x.2
  let a := (mmAExtents p).map (bytes (.shared b))
  let c := (mmBExtents p).map (bytes (.weight b))
  if m.bCols.isEmpty then
    { m with aRows := a.dropLast, aScales := a.getLastD [], bCols := c.dropLast, bScales := c.getLastD [] }
  else if mmAtr p then m
  else { m with aRows := m.aRows.take i ++ a.dropLast.drop i }

/-- MXQ_ROW_PUSH (R316, R317): the next row enters the queue, or goes to the oldest record that waits on it. -/
def State.pushRow (s : State) (o : EngineOp) (m : MatrixOp) : State :=
  let p := m.params
  let b := o.block.getD 0
  let earlier := (s.matrixOps o.die o.core).takeWhile (fun x => x.1.oid != o.oid)
  let before := earlier.any (fun x => mmDrain x.2.params && mmQueue x.2.params == mmQueue p && decide (x.2.rows < mmM x.2.params))
  if m.started && mmDrain p && decide (m.rows < mmM p) && !before then
    let m := s.readMatrix o m m.rows
    let row := (List.range 64).map (fun j => if j < mmN p then BitVec.ofNat 32 (m.element m.rows j 0) else 0)
    let s1 := s.modOp o.oid (fun o => { o with kind := .matrix { m with rows := m.rows + 1 } })
    let s2 := s1.modMxq b (mmQueue p) (fun q => { q with reserved := q.reserved - 1 })
    match s2.waiters (waitsMxq b (mmQueue p)) with
    | x :: _ =>
      s2.ready x.1.wid x.2.seq (mxqWrites ((x.2.instr.map (·.operands.d)).getD (.spc .zero)) x.2.lanes row)
    | [] => s2.modMxq b (mmQueue p) (fun q => { q with entries := q.entries ++ [row] })
  else s

/-- The results of a register-mode operation (R304, R310): ended lanes read as +0 and keep nothing. -/
def MatrixOp.writes (m : MatrixOp) (w : Warp) : List RegWrite :=
  let n := mmN m.params
  (List.range (mmM m.params * n)).filterMap (fun x =>
    let l := x % 32
    let r := mmAcc m.params + x / 32
    if (w.lane l).st == .ended then none
    else
      let c := if mmInit m.params then ((w.lane l).reg r).toNat else 0
      some ⟨l, r, BitVec.ofNat 32 (m.element (x / n) (x % n) c)⟩)

/-- A record captures its live registers whose hold ends (R218): the words its lanes have now. -/
def Warp.captureHeld (w : Warp) (regs : List Nat) (r : Record) : Record :=
  let ns := regs.filter (fun n => r.exempt.contains n && r.live.contains n)
  { r with saved := r.saved.map (fun x => { x with regs := ns.foldl (fun m n => m.set n ((w.lane x.lane).reg n)) x.regs }) }

/-- The holds of registers end: every record of the warp that was to capture them does, where it lies too (R218, R310). -/
def State.endHold (s : State) (wid : Nat) (regs : List Nat) : State :=
  let s1 := s.modWarp wid (fun w => { w with records := w.records.map (w.captureHeld regs) })
  match s1.warp? wid with
  | none => s1
  | some w => w.records.foldl (fun s r => match r.place with
    | .spill _ _ => s.putRecord w r
    | _ => s) s1

/-- MATRIX_COMPLETE (R299, R300, R312): in acceptance order, once its rows are pushed; its registers are held no more. -/
def State.completeMatrix (s : State) (o : EngineOp) (m : MatrixOp) : State :=
  let first := ((s.matrixOps o.die o.core).head?.map (fun x => x.1.oid)) == some o.oid
  if m.started && first && (!mmDrain m.params || m.rows == mmM m.params) then
    let m := if mmDrain m.params then m else s.readMatrix o m 0
    let s1 := if mmDrain m.params then s
      else s.modWarp o.wid (fun w => (m.writes w).foldl (fun w r => w.modLane r.lane (fun x => x.setReg r.reg r.val)) w)
    let s2 := s1.modWarp o.wid (fun w => { w with matC := m.ticket })
    ({ s2 with ops := s2.ops.filter (fun x => x.oid != o.oid) }).endHold o.wid (regRange m.regRange.1 m.regRange.2)
  else s

end Sys2Proof.Machine
end

