-- ==== Sys2Proof/Machine/Tasks.lean ====
section
/-! DEFINITION. Task control blocks, deques and the task instructions (spec/15_tasks_queues_rings.md R322 to R340). -/

namespace Sys2Proof.Machine

/-- A TCB named by a lane fails R324: 0, or the trap. It lies outside the spill area at either level. -/
def State.tcbTrap (s : State) (w : Warp) (t : Nat) : Nat :=
  lowestTrap [(!((s.ctx? w.ctx).map (fun c => c.windowOk w.die t 64 false)).getD false, 0x10), (t % 64 != 0, 0x12)]

/-- Bytes lo to lo+n-1 of the TCB at an offset (Table 15.1). -/
def State.tcbField (s : State) (w : Warp) (t lo n : Nat) : Nat :=
  bytesToNat (s.spaceBytes (.spad w.die) (s.spaceAddr w false (t + lo)) n)

/-- Replace n bytes of a list by a number. -/
def putField (bs : List Byte) (lo n v : Nat) : List Byte := bs.take lo ++ natToBytes n v ++ bs.drop (lo + n)

/-- Change a TCB as one event. DESIGN CHOICE (assumption log 33): it does not wait for a line that an engine owns. -/
def State.modTcb (s : State) (w : Warp) (t : Nat) (f : List Byte → List Byte) : State :=
  s.spaceWrite (.spad w.die) (s.spaceAddr w false t) (f (s.spaceBytes (.spad w.die) (s.spaceAddr w false t) 64)) none

/-- STATE and DEPTH of a TCB (Table 15.2). -/
def State.tcbState (s : State) (w : Warp) (t : Nat) : Nat := s.tcbField w t 45 1 / 16
def State.tcbDepth (s : State) (w : Warp) (t : Nat) : Nat := s.tcbField w t 45 1 % 16
/-- DEP, NSUCC and KIDS of a TCB. -/
def State.tcbDep (s : State) (w : Warp) (t : Nat) : Word := BitVec.ofNat 32 (s.tcbField w t 36 4)
def State.tcbNsucc (s : State) (w : Warp) (t : Nat) : Nat := s.tcbField w t 44 1
def State.tcbKids (s : State) (w : Warp) (t : Nat) : Nat := s.tcbField w t 62 2

/-- TCB bytes with another STATE. -/
def withTaskState (st : Nat) (bs : List Byte) : List Byte := putField bs 45 1 (fieldOf bs 45 1 % 16 + 16 * st)

/-- DQB and DQL of a core: window offset and units of 64 bytes of its deque region (R325). -/
def Context.dequeRegion (c : Context) (d core : Nat) : Nat × Nat :=
  ((c.dequeRegs d core).dqb.toNat / 64 * 64, (c.dequeRegs d core).dql.toNat / 64)

/-- A core has a deque region, inside the window (R325); one outside it counts as none. -/
def State.hasDeque (s : State) (w : Warp) (core : Nat) : Bool :=
  match s.ctx? w.ctx with
  | none => false
  | some c => (c.dequeRegion w.die core).2 != 0 &&
      c.windowOk w.die (c.dequeRegion w.die core).1 (64 * (c.dequeRegion w.die core).2) true

/-- A deque: the byte of the die scratchpad at which its region lies, and its capacity (R325). -/
def State.deque (s : State) (w : Warp) (core : Nat) : Nat × Nat :=
  match s.ctx? w.ctx with
  | none => (0, 0)
  | some c =>
    let r := c.dequeRegion w.die core
    ((c.window w.die).1 + r.1, if s.hasDeque w core then (r.2 - 1) * 16 else 0)

/-- Words of a deque's header (Table 15.3). -/
def State.dqHead (s : State) (w : Warp) (core : Nat) : Word := s.spaceWord (.spad w.die) (s.deque w core).1
def State.dqTail (s : State) (w : Warp) (core : Nat) : Word := s.spaceWord (.spad w.die) ((s.deque w core).1 + 4)
def State.dqRsv (s : State) (w : Warp) (core : Nat) : Word := s.spaceWord (.spad w.die) ((s.deque w core).1 + 8)
/-- Entries of a deque (R326). -/
def State.dqCount (s : State) (w : Warp) (core : Nat) : Nat := (s.dqTail w core - s.dqHead w core).toNat

/-- The deque has free room for k pushes (R326). -/
def State.dqRoom (s : State) (w : Warp) (core k : Nat) : Bool :=
  decide (k + (if s.hasDeque w core then s.dqCount w core + (s.dqRsv w core).toNat else 0) ≤ (s.deque w core).2)

/-- The byte of entry i (R325). -/
def State.dqEntryAt (s : State) (w : Warp) (core : Nat) (i : Word) : Nat :=
  (s.deque w core).1 + 64 + 4 * (i.toNat % (s.deque w core).2)

/-- Write entry i. -/
def State.dqSetEntry (s : State) (w : Warp) (core : Nat) (i : Word) (t : Nat) : State :=
  s.spaceSet (.spad w.die) (s.dqEntryAt w core i) (natToBytes 4 t)
/-- Write TAIL. -/
def State.dqSetTail (s : State) (w : Warp) (core : Nat) (i : Word) : State :=
  s.spaceSet (.spad w.die) ((s.deque w core).1 + 4) (natToBytes 4 i.toNat)

/-- Push a TCB at the owner end (R326). -/
def State.dqPush (s : State) (w : Warp) (core t : Nat) : State :=
  if (s.deque w core).2 == 0 then s
  else (s.dqSetEntry w core (s.dqTail w core) t).dqSetTail w core (s.dqTail w core + 1)

/-- Change RSV. -/
def State.dqReserve (s : State) (w : Warp) (core : Nat) (f : Word → Word) : State :=
  if (s.deque w core).2 == 0 then s
  else s.spaceSet (.spad w.die) ((s.deque w core).1 + 8) (natToBytes 4 (f (s.dqRsv w core)).toNat)

/-- The TCB offset at an end of a deque, none when it is empty (R326). -/
def State.dqPeek (s : State) (w : Warp) (core : Nat) (owner : Bool) : Option Nat :=
  if s.dqCount w core == 0 || (s.deque w core).2 == 0 then none
  else
    let i := if owner then s.dqTail w core - 1 else s.dqHead w core
    some (s.spaceWord (.spad w.die) (s.dqEntryAt w core i)).toNat

/-- Tasks of a context that a core has released in this cycle and that stand in its deque, each after the index of its
entry, the lowest index first (R332). -/
def State.releasedNow (s : State) (w : Warp) (core : Nat) : List (Nat × Nat) :=
  (((s.core w.die core).released.find? (fun x => x.1 == w.ctx)).map (·.2)).getD []

/-- Note them. -/
def State.setReleased (s : State) (w : Warp) (core : Nat) (ts : List (Nat × Nat)) : State :=
  s.modCore w.die core (fun x => { x with released := (w.ctx, ts) :: x.released.filter (fun y => y.1 != w.ctx) })

/-- Launches whose tag is in use: placing or started (R337). -/
def Launch.running (l : Launch) : Bool := l.phase == .placing || l.phase == .started

/-- A tag names a running launch (R337): the shared tags count while their register names a record, which RECL does from its
first write on (assumption log 43). -/
def State.tagRuns (s : State) (ctx die tag : Nat) : Bool :=
  let r := (s.die die).render
  s.launches.any (fun l => l.ctx == ctx && l.die == die && l.tag == tag && l.running) ||
    (r.ownedBy ctx && ((r.rayl != 0 && r.rayTag == tag) || (r.prbl != 0 && r.prbTag == tag) ||
      (r.recTag != 0 && r.recTag == tag)))

/-- The Launch Processor counts a task of a tag as live, or no longer (R336). -/
def State.addTask (s : State) (w : Warp) (tag t : Nat) : State :=
  s.modCtx w.ctx (fun c => c.modDie w.die (fun x =>
    { x with tasks := (tag, t) :: x.tasks.filter (fun y => y.2 != t) }))
def State.dropTask (s : State) (w : Warp) (t : Nat) : State :=
  s.modCtx w.ctx (fun c => c.modDie w.die (fun x => { x with tasks := x.tasks.filter (fun y => y.2 != t) }))

/-- A task of a TCB becomes ready, running or claimed: the Launch Processor counts it (R336). -/
def State.setLive (s : State) (w : Warp) (t st : Nat) : State :=
  (s.modTcb w t (withTaskState st)).addTask w (s.tcbField w t 60 2) t

/-- Take the entry at an end and set its STATE (R326). -/
def State.dqTake (s : State) (w : Warp) (core : Nat) (owner : Bool) (st : Nat) : Option (Nat × State) :=
  match s.dqPeek w core owner with
  | none => none
  | some t =>
    let i := if owner then s.dqTail w core - 1 else s.dqHead w core
    let s1 := if owner then s.dqSetTail w core i
      else s.spaceSet (.spad w.die) (s.deque w core).1 (natToBytes 4 (i + 1).toNat)
    let s2 := s1.setReleased w core ((s.releasedNow w core).filter (fun x => x.1 != i.toNat))
    some (t, if s.tcbTrap w t == 0 then s2.setLive w t st else s2)

/-- Change DEP of a TCB by a number, with the release test (R331, R336): the new DEP, and whether it was released into a
deque. -/
def State.changeDep (s : State) (w : Warp) (t : Nat) (n : Word) : State × Word × Bool :=
  let old := s.tcbDep w t
  let new := old + n
  let released := s.tcbState w t == 1 && old != 0 && new == 0
  let tag := s.tcbField w t 60 2
  let runs := s.tagRuns w.ctx w.die tag
  let s1 := s.modTcb w t (fun bs =>
    let bs := putField bs 36 4 new.toNat
    if released then withTaskState (if runs then 2 else 6) bs else bs)
  (if released && runs then s1.addTask w tag t else s1, new, released && runs)

/-- Push released tasks: all those of one core and cycle that stand in its deque lie there in ascending offset (R332). -/
def State.pushReleased (s : State) (w : Warp) (ts : List Nat) : State :=
  if ts.isEmpty || (s.deque w w.core).2 == 0 then s
  else
    let old := s.releasedNow w w.core
    let tail := s.dqTail w w.core
    let places := old.map (·.1) ++ (List.range ts.length).map (fun k => (tail + BitVec.ofNat 32 k).toNat)
    let all := places.zip (sortBy (fun a b => decide (a < b)) (old.map (·.2) ++ ts))
    ((all.foldl (fun s x => s.dqSetEntry w w.core (BitVec.ofNat 32 x.1) x.2) s).dqSetTail w w.core
      (tail + BitVec.ofNat 32 ts.length)).setReleased w w.core all

/-- Change KIDS of a TCB. -/
def State.changeKids (s : State) (w : Warp) (t : Nat) (f : Nat → Nat) : State :=
  if s.tcbTrap w t == 0 then s.modTcb w t (fun bs => putField bs 62 2 (f (fieldOf bs 62 2))) else s

/-- Ranges a spawned task's block names fail R210 or R211 (R330): the first failing offset. -/
def State.spawnRange (s : State) (w : Warp) (t : Nat) : Option Nat :=
  let bad (o n : Nat) : Option Nat := if n == 0 then none else (s.rangeTrap w false o n).map (·.2)
  let foot := s.tcbField w t 46 2
  match bad (s.tcbField w t 40 4) (4 * s.tcbNsucc w t) with
  | some o => some o
  | none => bad (t + 64) (64 * (foot / 32))

/-- What spawn does in one lane: a result, or a trap with its offset (R330). -/
inductive Spawned
  | result (s : State) (d : Nat)
  | trap (code faddr : Nat)

/-- `spawn` in one lane (R330). -/
def State.spawnLane (s : State) (w : Warp) (t : Nat) : Spawned :=
  let isTask := w.kind == .task
  let foot := s.tcbField w t 46 2
  let units := foot % 32
  if s.tcbTrap w t != 0 then .trap (s.tcbTrap w t) t
  else if 1 ≤ s.tcbState w t && s.tcbState w t ≤ 4 then .result s 2
  else if units == 0 || 20 < units || 1024 < foot / 32 || s.tcbField w t 0 4 % 8 != 0 then .result s 3
  else if isTask && s.tcbKids w w.tcb.toNat == 65535 then .result s 4
  else
    match s.spawnRange w t with
    | some o => .trap 0x10 o
    | none =>
      let now := (s.tcbDep w t).toInt ≤ 0
      let tag := w.tag
      let s1 := s.modTcb w t (fun bs =>
        let bs := putField (putField (putField bs 48 4 w.tcb.toNat) 60 2 tag) 62 2 0
        putField bs 45 1 (w.depth + 1 + 16 * (if now then 2 else 1)))
      let s2 := if now then (s1.addTask w tag t).dqPush w w.core t else s1
      let s3 := if isTask then s2.changeKids w w.tcb.toNat (· + 1) else s2
      .result s3 (if now then 0 else 1)

/-- `spawn` in ascending lanes until one traps: the state, results, and the trap (R330). -/
def State.spawnLanes (s : State) (w : Warp) (b : Nat → Nat) : List Nat → State × List (Nat × Nat) × Option (Nat × Nat)
  | [] => (s, [], none)
  | l :: ls =>
    match s.spawnLane w (b l) with
    | .trap c f => (s, [], some (c, f))
    | .result s1 d =>
      let r := s1.spawnLanes w b ls
      (r.1, (l, d) :: r.2.1, r.2.2)

/-- A task instruction that finds no room, or no depth, raises that trap in every lane but those that meet a trap of their
own, which report the lower code (R10, R326). -/
def State.raiseRoom (s : State) (e : Env) (code : Nat) (own : Nat → Option (Nat × Nat)) : State :=
  s.raise e (e.p.map (fun l => match own l with
    | some t => { lane := l, code := t.1, faddr := t.2 }
    | none => { lane := l, code := code }))

/-- The trap of a lane whose TCB fails R324. -/
def State.tcbFails (s : State) (e : Env) (l : Nat) : Option (Nat × Nat) :=
  let t := (e.b s l).toNat
  if s.tcbTrap e.w t == 0 then none else some (s.tcbTrap e.w t, t)

/-- The trap that spawn itself meets in a lane as the state stands (R330). -/
def State.spawnFails (s : State) (e : Env) (l : Nat) : Option (Nat × Nat) :=
  match s.spawnLane e.w (e.b s l).toNat with
  | .trap c f => some (c, f)
  | .result _ _ => none

/-- `spawn` (R330). -/
def execSpawn (o : Operands) (s : State) :=
  issue (.spawn o) s (fun e s =>
    let code := lowestTrap [(!s.dqRoom e.w e.w.core e.p.length, 0x21), (decide (8 ≤ e.w.depth), 0x22)]
    if e.p.isEmpty then s
    else if code != 0 then s.raiseRoom e code (s.spawnFails e)
    else
      let r := s.spawnLanes e.w (fun l => (e.b s l).toNat) e.p
      match r.2.2 with
      | some t => r.1.raiseAll e e.p t.1 t.2 0
      | none => r.1.writeRegs e.c.wid (r.2.1.flatMap (fun x => dstWrites x.1 e.o.d [BitVec.ofNat 32 x.2])))

/-- Lanes whose TCB offset passes R324, and the traps of the others. -/
def State.checkTcbs (s : State) (e : Env) : List Nat × List LaneTrap :=
  (e.p.filter (fun l => s.tcbTrap e.w (e.b s l).toNat == 0),
   (e.p.filter (fun l => s.tcbTrap e.w (e.b s l).toNat != 0)).map (fun l =>
     { lane := l, code := s.tcbTrap e.w (e.b s l).toNat, faddr := (e.b s l).toNat }))

/-- dep.arm and dep.dec (R331). -/
def State.depInstr (s : State) (e : Env) (n : Nat → Word) : State :=
  let g := s.checkTcbs e
  if e.p.isEmpty then s
  else if !s.dqRoom e.w e.w.core e.p.length then s.raiseRoom e 0x21 (s.tcbFails e)
  else
    let r := g.1.foldl (fun (acc : State × List RegWrite × List Nat) l =>
      let t := (e.b s l).toNat
      let c := acc.1.changeDep e.w t (n l)
      (c.1, acc.2.1 ++ dstWrites l e.o.d [c.2.1], if c.2.2 then acc.2.2 ++ [t] else acc.2.2)) (s, [], [])
    ((r.1.pushReleased e.w r.2.2).writeRegs e.c.wid r.2.1).raise e g.2

/-- `dep.arm` (R331). -/
def execDepArm (o : Operands) (s : State) := issue (.depArm o) s (fun e s => s.depInstr e (e.a s))
/-- `dep.dec` (R331). -/
def execDepDec (o : Operands) (s : State) := issue (.depDec o) s (fun e s => s.depInstr e (fun _ => 0xFFFFFFFF))

/-- What task.wait waits for (R338). -/
def State.taskReached (s : State) (w : Warp) (t : Nat) (kids : Bool) : Bool :=
  if kids then s.tcbKids w t == 0 else s.tcbState w t == 5 || s.tcbState w t == 6

/-- `task.wait` (R338): lanes of one TCB form a group. -/
def execTaskWait (o : Operands) (s : State) :=
  issue (.taskWait o) s (fun e s =>
    let kids := e.o.modBit 0
    let g := s.checkTcbs e
    ((groupBy (fun v => v.b0.toNat) (g.1.map (e.valsOf s 0 1 0 0))).foldl (fun s x =>
      s.waitGroup e x.2 (s.taskReached e.w x.1 kids) (.task x.1 kids) x.1) s).raise e g.2)

/-- The task state word (Table 15.5). -/
def State.taskWord (s : State) (w : Warp) (t : Nat) : Word :=
  BitVec.ofNat 32 (s.tcbKids w t * 2 ^ 16 + s.tcbDepth w t * 16 + s.tcbState w t)

/-- `task.st` (R339). -/
def execTaskSt (o : Operands) (s : State) :=
  issue (.taskSt o) s (fun e s =>
    let g := s.checkTcbs e
    (s.writeDst e.c.wid g.1 e.o.d (fun l => [s.taskWord e.w (e.b s l).toNat])).raise e g.2)

/-- Claim tasks in ascending lanes, each from the deque of a core (R340). -/
def State.claimLanes (s : State) (e : Env) (core : Nat → Nat) (owner : Bool) : State :=
  let r := e.p.foldl (fun (acc : State × List RegWrite) l =>
    match acc.1.dqTake e.w (core l) owner 4 with
    | some x => (x.2, acc.2 ++ dstWrites l e.o.d [BitVec.ofNat 32 x.1, 0])
    | none => (acc.1, acc.2 ++ dstWrites l e.o.d [0xFFFFFFFF, 4])) (s, [])
  r.1.writeRegs e.c.wid r.2

/-- `dq.pop` (R340). -/
def execDqPop (o : Operands) (s : State) := issue (.dqPop o) s (fun e s => s.claimLanes e (fun _ => e.w.core) true)
/-- `dq.steal` (R340). -/
def execDqSteal (o : Operands) (s : State) :=
  issue (.dqSteal o) s (fun e s => s.claimLanes e (fun l => (e.b s l).toNat % 32) false)
/-- `dq.push` (R340). -/
def execDqPush (o : Operands) (s : State) :=
  issue (.dqPush o) s (fun e s =>
    let g := s.checkTcbs e
    if e.p.isEmpty then s
    else if !s.dqRoom e.w e.w.core e.p.length then s.raiseRoom e 0x21 (s.tcbFails e)
    else
      let r := g.1.foldl (fun (acc : State × List RegWrite) l =>
        let t := (e.b s l).toNat
        if acc.1.tcbState e.w t == 4 then
          ((acc.1.setLive e.w t 2).dqPush e.w e.w.core t, acc.2 ++ dstWrites l e.o.d [0])
        else (acc.1, acc.2 ++ dstWrites l e.o.d [2])) (s, [])
      (r.1.writeRegs e.c.wid r.2).raise e g.2)

/-- The successors of a TCB that pass R324, in list order (R334). -/
def State.successors (s : State) (w : Warp) (t : Nat) : List Nat :=
  let succ := s.tcbField w t 40 4
  (((List.range (s.tcbNsucc w t)).filter (fun k => (s.rangeTrap w false (succ + 4 * k) 4).isNone)).map (fun k =>
    (s.spaceWord (.spad w.die) (s.spaceAddr w false (succ + 4 * k))).toNat)).filter (fun x => s.tcbTrap w x == 0)

/-- A task finishes (R334), or fails (R335); the finishing warp gives the die, core and context. DESIGN CHOICE (assumption log
35): its completion word is stored at once, also into a line that an engine operation owns. -/
def State.finishTask (s : State) (w : Warp) (t : Nat) (failed : Bool) : State :=
  let parent := s.tcbField w t 48 4
  let cw := s.tcbField w t 52 4
  let s1 := (s.modTcb w t (withTaskState (if failed then 6 else 5))).dropTask w t
  let r := if failed then (s1, [])
    else (s1.successors w t).foldl (fun (acc : State × List Nat) x =>
      let c := acc.1.changeDep w x 0xFFFFFFFF
      (c.1, if c.2.2 then acc.2 ++ [x] else acc.2)) (s1, [])
  let s2 := r.1.pushReleased w r.2
  let s3 := if failed || cw == 0xFFFFFFFF || s2.checkAccess w false cw 4 4 != 0 then s2
    else s2.spaceWriteNat (.spad w.die) (s2.spaceAddr w false cw) 4 (s2.tcbField w t 56 4) none
  if parent == 0xFFFFFFFF then s3 else s3.changeKids w parent (· - 1)

/-- A die scratchpad with the spill-stack words that the lanes of a warp have written in its segment (R205); nothing but its
own lanes, the dump, a context save and retention see them there (R207, R471). -/
def Warp.layStack (w : Warp) (m : Memory) : Memory :=
  w.spill.foldl (fun m c => m.writeBytes (w.segment + 4 * c.1) (natToBytes 4 (c.2.toNat % 2 ^ 32))) m

/-- The spill stack of a warp is left in its segment. -/
def State.leaveStack (s : State) (w : Warp) : State := s.modDie w.die (fun d => { d with spad := w.layStack d.spad })

/-- A warp leaves the machine: its registers, records and place are freed, and the block object of a task or handler
warp with it. -/
def State.dropWarp (s : State) (wid : Nat) : State :=
  let own := (s.warp? wid).bind (·.block)
  let s := ((s.warp? wid).map s.leaveStack).getD s
  { s with warps := s.warps.filter (fun w => w.wid != wid)
           blocks := s.blocks.filter (fun b => b.kind == .block || b.kind == .sample || some b.bid != own) }

/-- The end of a task warp (R334, R335): what was reserved for its finish is returned. -/
def State.endTaskWarp (s : State) (w : Warp) : State :=
  let s1 := (s.finishTask w w.tcb.toNat w.killed).dropWarp w.wid
  if w.reserved == 0 then s1 else s1.dqReserve w w.core (fun x => x - BitVec.ofNat 32 w.reserved)

/-- The lanes that end a warp, at an instruction: their end waits for the warp's engine operations (R34, R292). -/
def State.noteEnd (s : State) (wid : Nat) (lanes : List Nat) (pc half opc : Nat) : State :=
  s.modWarp wid (fun w => { w with exitWait := some { lanes := lanes, pc := pc, half := half, opc := opc } })

/-- The fence of task.done at a position ended with status 0 (R333): claimed lanes finish their tasks, self-form lanes
end. It answers the register writes of the claimed lanes. A task warp that has ended finishes its task, once every engine
operation of its has completed (R334); until then the entries reserved stay so. -/
def State.endDone (s : State) (w : Warp) (d : Operand) (vs : List LaneVals) (reserved pc half : Nat) : State × List RegWrite :=
  let own := (vs.filter (fun v => v.b0 == w.tcb)).map (·.lane)
  let r := (vs.filter (fun v => v.b0 != w.tcb)).foldl (fun (acc : State × List RegWrite) v =>
    if acc.1.tcbState w v.b0.toNat == 4 then
      (acc.1.finishTask w v.b0.toNat false, acc.2 ++ dstWrites v.lane d [0])
    else (acc.1, acc.2 ++ dstWrites v.lane d [2])) (s, [])
  let s1 : State := r.1.endLanes w.wid own
  let back (s : State) : State := s.dqReserve w w.core (fun x => x - BitVec.ofNat 32 reserved)
  match s1.warp? w.wid with
  | none => (back s1, r.2)
  | some x =>
    let ops := s1.ops.filter (fun o => o.wid == w.wid)
    if !x.allEnded || own.isEmpty then (back s1, r.2)
    else if x.kind != .task then (back (s1.noteEnd w.wid own pc half 0x2D1), r.2)
    else if ops.all (·.complete) then (back ((s1.foldOps (ops.map (·.oid))).endTaskWarp x), r.2)
    else ((s1.modWarp w.wid (fun y => { y with reserved := y.reserved + reserved })).noteEnd w.wid own pc half 0x2D1, r.2)

/-- Finish or end lanes as task.done does (R333), with the lowest code among a pending fault, 0x20 and 0x21 (R10): vs hold the lanes with the TCB each names. -/
def State.doneInstr (s : State) (e : Env) (d : Operand) (tmo ls : Nat) (vs : List LaneVals) : State :=
  let w := e.w
  let own := (vs.filter (fun v => v.b0 == w.tcb)).map (·.lane)
  let claimed := ((vs.filter (fun v => v.b0 != w.tcb)).map (fun v => v.b0.toNat)).eraseDups
  let whole := w.kind == .task && !own.isEmpty && w.liveLanes.all (fun l => own.contains l)
  let k := (claimed.map (s.tcbNsucc w)).foldl (· + ·) 0 + (if whole then s.tcbNsucc w w.tcb.toNat else 0)
  let lanes := vs.map (·.lane)
  let ops := s.ops.filter (fun o => o.wid == w.wid)
  let x : Suspension :=
    { lanes := lanes, wait := .taskDone (ops.map (·.oid)) k, ls := ls, tmo := tmo, vals := vs }
  let s1 := s.dqReserve w w.core (· + BitVec.ofNat 32 k)
  if vs.isEmpty then s
  else
    match ops.find? (fun o => o.fault.isSome) with
    | some op => s.reportFault e lanes op
    | none =>
      if !ops.all (·.complete) && tmo != 0 && (s.suspend? e x).isNone then s.raiseAll e lanes 0x20 0 0
      else if !s.dqRoom w w.core k then s.raiseAll e lanes 0x21 0 0
      else if ops.all (·.complete) then
        let r := (s1.foldOps (ops.map (·.oid))).endDone w d vs k e.c.pc e.c.half
        r.1.writeRegs w.wid r.2
      else if tmo == 0 then s.writeRegs w.wid (statusWrites d lanes 1)
      else
        match s1.suspend? e x with
        | some s2 => s2
        | none => s.raiseAll e lanes 0x20 0 0

/-- `task.done` (R333). -/
def execTaskDone (o : Operands) (s : State) :=
  issue (.taskDone o) s (fun e s =>
    let self := e.p.filter (fun l => e.b s l == e.w.tcb)
    let g := s.checkTcbs { e with p := e.p.filter (fun l => !self.contains l) }
    (s.doneInstr e e.o.d e.o.tmo e.o.ls ((e.p.filter (fun l => self.contains l || g.1.contains l)).map
      (e.valsOf s 0 1 0 0))).raise e g.2)

end Sys2Proof.Machine
end

