-- ==== Sys2Proof/Machine/Queues.lean ====
section
/-! DEFINITION. Named queues and hinge rings (spec/15_tasks_queues_rings.md R341 to R347; R244). -/

namespace Sys2Proof.Machine

/-- A queue descriptor as it stands (Table 15.7). -/
structure QueueDesc where
  at_ : Nat
  base : Nat
  cap : Nat
  esz : Nat
  head : Word
  tail : Word
  deriving DecidableEq, Repr

/-- Read the descriptor at a window offset. -/
def State.queueDesc (s : State) (w : Warp) (o : Nat) : QueueDesc :=
  let a := s.spaceAddr w false o
  let bs := s.spaceBytes (.spad w.die) a 64
  { at_ := a, base := fieldOf bs 0 4, cap := fieldOf bs 4 4, esz := fieldOf bs 8 1
    head := BitVec.ofNat 32 (fieldOf bs 16 4), tail := BitVec.ofNat 32 (fieldOf bs 20 4) }

/-- Entries in a queue. -/
def QueueDesc.count (q : QueueDesc) : Nat := (q.tail - q.head).toNat

/-- The window offset of entry i (R341). -/
def QueueDesc.entryAt (q : QueueDesc) (i : Word) : Nat := q.base + i.toNat % q.cap * q.esz

/-- A malformed descriptor (R341). -/
def State.malformed (s : State) (w : Warp) (q : QueueDesc) : Bool :=
  q.esz % 4 != 0 || q.esz == 0 || decide (64 < q.esz) || q.cap == 0 || decide (2 ^ 20 < q.cap) || q.base % 4 != 0 ||
    (s.rangeTrap w false q.base (q.cap * q.esz)).isSome

/-- The stamp of entry i has passed (R244): its producer has performed that many stores, or is no longer there. -/
def State.stampPassed (s : State) (d : Nat) (q : QueueDesc) (i : Word) : Bool :=
  match (s.die d).stamps.find? (fun x => x.desc == q.at_ && x.index == i.toNat) with
  | none => true
  | some x =>
    match s.warp? x.wid with
    | none => true
    | some p => decide (x.iss ≤ p.prf)

/-- Drop the stamps of a queue that satisfy a test. -/
def State.dropStamps (s : State) (d : Nat) (f : Stamp → Bool) : State :=
  s.modDie d (fun x => { x with stamps := x.stamps.filter (fun y => !f y) })

/-- Push one entry for each lane as one event (R343): entries, stamps, TAIL; a DET launch folds each entry. DESIGN CHOICE
(assumption log 33): like every queue, deque and TCB event it does not wait for a line that an engine owns. -/
def State.pushEntries (s : State) (w : Warp) (q : QueueDesc) (vs : List LaneVals) : State :=
  let iss := ((s.warp? w.wid).map (·.iss)).getD w.iss
  let r := vs.foldl (fun (acc : State × Word) v =>
    let o := q.entryAt acc.2
    let bs := v.a.flatMap (fun x => natToBytes 4 x.toNat)
    let st : Stamp := { desc := q.at_, index := acc.2.toNat, wid := w.wid, iss := iss }
    let s1 := (acc.1.spaceSet (.spad w.die) (acc.1.spaceAddr w false o) bs).dropStamps w.die (fun x =>
      x.desc == st.desc && x.index == st.index)
    let s2 := s1.modDie w.die (fun x => { x with stamps := st :: x.stamps })
    (s2.foldStore w.wid o bs, acc.2 + 1)) (s, q.tail)
  r.1.spaceSet (.spad w.die) (q.at_ + 20) (natToBytes 4 r.2.toNat)

/-- Pop the oldest entries for lanes as one event (R343): HEAD, and the words each lane receives. DESIGN CHOICE (assumption
log 33): it does not wait for a line that an engine owns. -/
def State.popEntries (s : State) (w : Warp) (q : QueueDesc) (d : Operand) (lanes : List Nat) : State × List RegWrite :=
  let r := lanes.foldl (fun (acc : List RegWrite × Word) l =>
    let bs := s.spaceBytes (.spad w.die) (s.spaceAddr w false (q.entryAt acc.2)) q.esz
    let ws := (List.range (q.esz / 4)).map (fun j => BitVec.ofNat 32 (fieldOf bs (4 * j) 4))
    (acc.1 ++ dstWrites l d (ws ++ [0]), acc.2 + 1)) ([], q.head)
  let s1 := s.dropStamps w.die (fun x => x.desc == q.at_ &&
    decide ((BitVec.ofNat 32 x.index - q.head).toNat < lanes.length))
  (s1.spaceSet (.spad w.die) (q.at_ + 16) (natToBytes 4 r.2.toNat), r.1)

/-- A record waits to push to, or to pop from, a queue by the byte of its descriptor. -/
def waitsQueue (die at_ : Nat) (push : Bool) (w : Warp) (r : Record) : Bool :=
  w.die == die && r.wait == (if push then .qPush at_ else .qPop at_)

/-- Room for k pushes; k entries whose stamps have all passed. -/
def QueueDesc.hasRoom (q : QueueDesc) (k : Nat) : Bool := decide (q.count + k ≤ q.cap)
def State.popsPassed (s : State) (d : Nat) (q : QueueDesc) (k : Nat) : Bool :=
  (List.range k).all (fun j => s.stampPassed d q (q.head + BitVec.ofNat 32 j))

/-- The check of q.push and q.pop on their descriptor offset: the lowest code (R342, R10). -/
def State.queueTrap (s : State) (w : Warp) (o n : Nat) : Nat :=
  if s.tcbTrap w o == 0x10 || s.malformed w (s.queueDesc w o) || (s.queueDesc w o).esz != 4 * n then 0x10
  else s.tcbTrap w o

/-- Status word of a queue instruction in lanes: the word k of the destination. -/
def statusAt (d : Operand) (k : Nat) (ls : List Nat) (st : Nat) : List RegWrite :=
  ls.flatMap (fun l => (dstWrites l d (List.replicate k 0 ++ [BitVec.ofNat 32 st])).drop k)

/-- `q.push` (R343). -/
def execQPush (o : Operands) (s : State) :=
  issue (.qPush o) s (fun e s =>
    let n := e.o.mods 0 4 + 1
    let off := (e.b s e.elected).toNat
    let k := e.p.length
    let q := s.queueDesc e.w off
    let vs := e.p.map (e.valsOf s n 0 0 0)
    if e.p.isEmpty then s
    else if s.queueTrap e.w off n != 0 then s.raiseAll e e.p (s.queueTrap e.w off n) off 0
    else if q.cap < k then s.writeRegs e.c.wid (statusAt e.o.d 0 e.p 2)
    else if q.hasRoom k && (s.waiters (waitsQueue e.w.die q.at_ true)).isEmpty then
      (s.pushEntries e.w q vs).writeRegs e.c.wid (statusAt e.o.d 0 e.p 0)
    else if e.o.tmo == 0 then s.writeRegs e.c.wid (statusAt e.o.d 0 e.p 2)
    else s.suspend e { lanes := e.p, wait := .qPush q.at_, ls := e.o.ls, tmo := e.o.tmo, event := off, vals := vs })

/-- `q.pop` (R343). -/
def execQPop (o : Operands) (s : State) :=
  issue (.qPop o) s (fun e s =>
    let n := e.o.mods 0 4 + 1
    let off := (e.b s e.elected).toNat
    let k := e.p.length
    let q := s.queueDesc e.w off
    if e.p.isEmpty then s
    else if s.queueTrap e.w off n != 0 then s.raiseAll e e.p (s.queueTrap e.w off n) off 0
    else if q.cap < k then s.writeRegs e.c.wid (statusAt e.o.d n e.p 4)
    else if decide (k ≤ q.count) && (s.waiters (waitsQueue e.w.die q.at_ false)).isEmpty && s.popsPassed e.w.die q k then
      (let r := s.popEntries e.w q e.o.d e.p
       r.1.writeRegs e.c.wid r.2)
    else if e.o.tmo == 0 then s.writeRegs e.c.wid (statusAt e.o.d n e.p 4)
    else s.suspend e { lanes := e.p, wait := .qPop q.at_, ls := e.o.ls, tmo := e.o.tmo, event := off
                       vals := e.p.map (e.valsOf s 0 1 0 0) })

/-- `q.init` (R344), lanes ascending. -/
def execQInit (o : Operands) (s : State) :=
  issue (.qInit o) s (fun e s =>
    let g := s.checkTcbs e
    let r := g.1.foldl (fun (acc : State × List RegWrite) l =>
      let q := acc.1.queueDesc e.w (e.b s l).toNat
      if acc.1.malformed e.w q then (acc.1, acc.2 ++ statusAt e.o.d 0 [l] 1)
      else
        let s1 := (acc.1.spaceSet (.spad e.w.die) (q.at_ + 16) (natToBytes 8 0)).dropStamps e.w.die (fun x => x.desc == q.at_)
        (s1.cancelWaiters (fun w r => waitsQueue e.w.die q.at_ true w r || waitsQueue e.w.die q.at_ false w r),
         acc.2 ++ statusAt e.o.d 0 [l] 0)) (s, [])
    (r.1.writeRegs e.c.wid r.2).raise e g.2)

/-- `q.len` (R344). -/
def execQLen (o : Operands) (s : State) :=
  issue (.qLen o) s (fun e s =>
    let g := s.checkTcbs e
    (s.writeDst e.c.wid g.1 e.o.d (fun l =>
      let q := s.queueDesc e.w (e.b s l).toNat
      [q.tail - q.head])).raise e g.2)

/-- A ring of a warp's block. -/
def State.ringOf (s : State) (w : Warp) (k : Nat) : Ring := ((s.blockOf w).map (fun b => b.rings.getD k {})).getD {}
/-- Change a ring of a warp's block. -/
def State.setRing (s : State) (w : Warp) (k : Nat) (r : Ring) : State :=
  s.modBlock (w.block.getD 0) (fun b => { b with rings := b.rings.set k r })

/-- The phase of a slot. -/
def Ring.slotPhase (r : Ring) (i : Nat) : Bool := r.phase.getLsbD i

/-- A record waits on a ring of a block. -/
def waitsRing (bid : Option Nat) (k : Nat) (w : Warp) (r : Record) : Bool :=
  w.block == bid && (match r.wait with
    | .ring j _ _ => j == k
    | _ => false)

/-- `hng.init` (R347). -/
def execHngInit (o : Operands) (s : State) :=
  issue (.hngInit o) s (fun e s =>
    let k := e.o.mods 0 3
    let a := (e.a s e.elected).toNat
    let b := (e.b s e.elected).toNat
    if e.p.isEmpty then s
    else if 2 ≤ a && a ≤ 16 && b ≤ 7 then
      ((s.setRing e.w k { nslot := a, link := b, phase := 0 }).cancelWaiters (waitsRing e.w.block k)).answer e [0]
    else s.answer e [1])

/-- `hng.take` (R347). -/
def execHngTake (o : Operands) (s : State) :=
  issue (.hngTake o) s (fun e s =>
    let k := e.o.mods 0 3
    let r := s.ringOf e.w k
    let i := (e.b s e.elected).toNat % r.nslot
    let want := (e.a s e.elected).getLsbD 0
    if e.p.isEmpty then s
    else if r.nslot == 0 then s.answer e [2]
    else if r.slotPhase i == want then s.answer e [0]
    else if e.o.tmo == 0 then s.answer e [1]
    else s.suspend e { lanes := e.p, wait := .ring k i want, ls := e.o.ls, tmo := e.o.tmo, event := k })

/-- `hng.give` (R347): every take that waits for the phase it produces becomes ready. -/
def execHngGive (o : Operands) (s : State) :=
  issue (.hngGive o) s (fun e s =>
    let k := e.o.mods 0 3
    let r := s.ringOf e.w k
    let i := (e.b s e.elected).toNat % r.nslot
    let new := !r.slotPhase i
    if e.p.isEmpty then s
    else if r.nslot == 0 then s.answer e [2]
    else
      let s1 := s.setRing e.w k { r with phase := r.phase ^^^ BitVec.ofNat 16 (2 ^ i) }
      ((s1.waiters (fun w x => w.block == e.w.block && x.wait == .ring k i new)).foldl (fun s x =>
        s.readyStatus x.1.wid x.2 0) s1).answer e [if new then 1 else 0])

/-- `hng.rd` (R347). -/
def execHngRd (o : Operands) (s : State) :=
  issue (.hngRd o) s (fun e s =>
    let r := s.ringOf e.w (e.o.mods 0 3)
    if e.p.isEmpty then s
    else s.answer e [BitVec.ofNat 32 (r.phase.toNat + r.nslot * 2 ^ 16 + r.link * 2 ^ 24)])

end Sys2Proof.Machine
end

