-- ==== Sys2Proof/Machine/Control.lean ====
section
/-! DEFINITION. Control instructions, control registers and handler instructions (spec/04_sequential_instructions.md R129
to R140; spec/01_lane_machine.md R25 to R31; R173, R184, R185). -/

namespace Sys2Proof.Machine

/-- A branch offset as a PC: modulo 2^32. -/
def pcOf (x : Int) : Nat := (x % 2 ^ 32).toNat

/-- The spin detector sees a taken branch (R185): to at most 56 bytes below the branch. DESIGN CHOICE (assumption log 21):
a branch to its own PC is not backward and is not watched;
a pass in which the branch is not taken, and another branch that is not such a one, keep the count; another such branch
starts it again; a set of many lanes counts once. -/
def State.noteLoop (s : State) (e : Env) (targets : List Nat) : State :=
  if targets.any (fun t => decide (t < e.c.pc) && decide (e.c.pc ≤ t + 56)) then
    s.modWarp e.c.wid (fun w =>
      { w with loopPc := e.c.pc, loopCount := if w.loopPc == e.c.pc then w.loopCount + 1 else 1 })
  else s

/-- Lanes branch (R130): half 0. -/
def State.branchLanes (s : State) (e : Env) (ls : List Nat) (f : Nat → Nat) : State :=
  s.modWarp e.c.wid (fun w => ls.foldl (fun w l => w.modLane l (fun x => { x with pc := f l, half := 0 })) w)

/-- Lanes with a target that is a multiple of 8, and the traps of the others (R130). -/
def alignTargets (ls : List Nat) (f : Nat → Nat) : List Nat × List LaneTrap :=
  (ls.filter (fun l => f l % 8 == 0),
   (ls.filter (fun l => f l % 8 != 0)).map (fun l => { lane := l, code := 0x12, faddr := f l }))

/-- The target of br and call: 8 times the immediate from the X head (R68, R129). -/
def Env.headTarget (e : Env) : Nat := pcOf ((e.c.nextPc : Int) - 16 + 8 * toSigned e.o.immNat 32)

/-- A call to given targets (R131): without room, a lane whose target is misaligned still reports the lower code (R10). -/
def State.callLanes (s : State) (e : Env) (f : Nat → Nat) : State :=
  let g := alignTargets e.p f
  if e.p.isEmpty then s
  else if !e.w.canPush 1 then s.raise e (g.2 ++ g.1.map (fun l => { lane := l, code := 0x13 }))
  else
    let s1 := if g.1.isEmpty then s
      else s.modWarp e.c.wid (fun w => w.push 1 g.1 (fun _ => [BitVec.ofNat 32 e.c.nextPc]))
    (s1.branchLanes e g.1 f).raise e g.2

/-- `nop` (R129). -/
def execNop (o : Operands) (s : State) := issue (.nop o) s (fun _ s => s)
/-- `br` (R129, R130). -/
def execBr (o : Operands) (s : State) :=
  issue (.br o) s (fun e s =>
    (s.branchLanes e e.p (fun _ => e.headTarget)).noteLoop e (if e.p.isEmpty then [] else [e.headTarget]))
/-- `brx` (R130). DESIGN CHOICE (assumption log 15): FADDR of its trap 0x12 is the target, as R131 has it for callx. -/
def execBrx (o : Operands) (s : State) :=
  issue (.brx o) s (fun e s =>
    let f (l : Nat) : Nat := (e.b s l).toNat
    let g := alignTargets e.p f
    ((s.branchLanes e g.1 f).noteLoop e (g.1.map f)).raise e g.2)
/-- `call` (R131). -/
def execCall (o : Operands) (s : State) := issue (.call o) s (fun e s => s.callLanes e (fun _ => e.headTarget))
/-- `callx` (R131). -/
def execCallx (o : Operands) (s : State) := issue (.callx o) s (fun e s => s.callLanes e (fun l => (e.b s l).toNat))
/-- `ret` (R131). -/
def execRet (o : Operands) (s : State) :=
  issue (.ret o) s (fun e s =>
    let f (l : Nat) : Nat := (e.w.spillWord e.w.sps.toNat l).toNat
    let g := alignTargets e.p f
    if e.p.isEmpty then s
    else if !e.w.canPop 1 then s.raiseAll e e.p 0x13 0 0
    else
      let s1 := if g.1.isEmpty then s else s.modWarp e.c.wid (fun w => { w with sps := w.sps + 4 })
      (s1.branchLanes e g.1 f).raise e g.2)

/-- `exit` (R34, R333): the last lanes of a task warp end as by task.done; the end of another warp's last lanes waits
for its engine operations. -/
def execExit (o : Operands) (s : State) :=
  issue (.exit o) s (fun e s =>
    let last := e.w.liveLanes.all (fun l => e.p.contains l)
    if e.p.isEmpty then s
    else if last && e.w.kind == .task then
      s.doneInstr e (.spc .zero) 31 0 (e.p.map (fun l => { lane := l, a := [], b := [e.w.tcb], c := [], d := [] }))
    else
      let s1 := s.endLanes e.c.wid e.p
      if last then s1.noteEnd e.c.wid e.p e.c.pc e.c.half 0x006 else s1)

/-- `join` (R173): lanes are held at the join. -/
def execJoin (o : Operands) (s : State) :=
  issue (.join o) s (fun e s =>
    s.modLanes e.c.wid e.p (fun x => { x with st := .held, pc := e.c.pc, half := e.c.half }))
/-- `yield` (R184). -/
def execYield (o : Operands) (s : State) :=
  issue (.yield o) s (fun e s =>
    if e.p.isEmpty then s else s.modWarp e.c.wid (fun w => { w with readySince := (s.die e.w.die).clkr + 1 }))
/-- `trap` (R133). -/
def execTrap (o : Operands) (s : State) :=
  issue (.trap o) s (fun e s => s.raise e (e.p.map (fun l =>
    { lane := l, code := 0x3F, event := (e.b s l).toNat % 2 ^ 16 })))
/-- `brk` (R133). -/
def execBrk (o : Operands) (s : State) :=
  issue (.brk o) s (fun e s => s.raise e (e.p.map (fun l => { lane := l, code := 0x3E })))

/-- FEAT on a die (Table 1.4, R13). -/
def State.feat (s : State) (die : Nat) : Word :=
  BitVec.ofNat 32 (s.rev * 2 ^ 8 + die * 2 ^ 4 + (if s.belt then 8 else 0) + 4 + (if s.t9c then 0 else 3))

/-- The value of a control register as a lane reads it (Tables 1.4, 1.5). -/
def State.csrValue (s : State) (w : Warp) (l : Nat) (n : Nat) : Word :=
  let c := (s.ctx? w.ctx).getD { id := 0, ctxId := 0 }
  let d := c.die w.die
  match n with
  | 0x00 => w.part.setWidth 32
  | 0x01 => w.rnd.setWidth 32
  | 0x02 => (w.lane l).fpx.setWidth 32
  | 0x03 => w.axc.setWidth 32
  | 0x04 => w.seed
  | 0x05 => w.sps
  | 0x06 => BitVec.ofNat 32 (w.lane l).repc
  | 0x07 => BitVec.ofNat 32 (if w.supervisor then (s.die w.die).clkr else c.clk)
  | 0x08 => w.dig.setWidth 32
  | 0x09 => w.digh
  | 0x0A => s.feat w.die
  | 0x20 => c.ctxId.setWidth 32
  | 0x21 => d.spb
  | 0x22 => d.spl
  | 0x23 => d.dqb.getD w.core 0
  | 0x24 => d.dql.getD w.core 0
  | 0x25 => d.csab
  | 0x26 => d.csal
  | 0x27 => c.ttb0
  | 0x28 => c.ttb1
  | 0x29 => c.ttb2
  | 0x2A => c.trapv
  | 0x2B => BitVec.ofNat 32 ((if c.wdgEn then 2 ^ 31 else 0) + c.wdgK.toNat)
  | 0x2C => BitVec.ofNat 32 (w.prioClass * 16 + w.prioLevel)
  | 0x2D => BitVec.ofNat 32 (s.die w.die).clkr
  | _ => 0

/-- Reseed every lane of a warp and of its records (R51, R218). -/
def Warp.reseed (w : Warp) (v : Word) : Warp :=
  { w with
    seed := v
    lanes := (List.range w.lanes.length).map (fun l => { w.lane l with gen := seedLane v l })
    records := w.records.map (fun r => { r with saved := r.saved.map (fun x => { x with gen := seedLane v x.lane }) }) }

/-- Rewrite the records of a warp where they lie in the spill area. -/
def State.putRecords (s : State) (wid : Nat) : State :=
  match s.warp? wid with
  | none => s
  | some w => w.records.foldl (fun s r => match r.place with
    | .spill _ _ => s.putRecord w r
    | _ => s) s

/-- Accesses and engine operations of a warp's context that were issued keep the window registers of its die (R31). -/
def State.keepWindows (s : State) (w : Warp) : State :=
  match s.ctx? w.ctx with
  | none => s
  | some c => s.keepOld w.ctx (·.keepWindow w.die (c.die w.die).window)

/-- They keep DQB and DQL of its core; what the core has released in this cycle lies in the region left (R31, R332). -/
def State.keepDeque (s : State) (w : Warp) : State :=
  match s.ctx? w.ctx with
  | none => s
  | some c => (s.keepOld w.ctx (·.keepDeque (c.dequeRegs w.die w.core))).modCore w.die w.core (fun x =>
      { x with released := x.released.filter (fun y => y.1 != w.ctx) })

/-- They keep the registers of translation, with the entries held (R31, R430). -/
def State.keepTables (s : State) (w : Warp) : State :=
  match s.ctx? w.ctx with
  | none => s
  | some c => s.keepOld w.ctx (·.keepTable c.table)

/-- Write a control register of warp scope or wider (R26 to R31, R134 to R136): read-only and reserved fields keep. -/
def State.csrWrite (s : State) (w : Warp) (n : Nat) (v : Word) : State :=
  let warp (f : Warp → Warp) : State := s.modWarp w.wid f
  let ctx (f : Context → Context) : State := s.modCtx w.ctx f
  let die (s : State) (f : CtxDie → CtxDie) : State := s.modCtx w.ctx (fun c => c.modDie w.die f)
  match n with
  | 0x00 => if 1 ≤ v.toNat % 8 && v.toNat % 8 ≤ 5 then warp (fun w => { w with part := v.setWidth 3 }) else s
  | 0x01 => if v.toNat % 8 ≤ 4 then warp (fun w => { w with rnd := v.setWidth 3 }) else s
  | 0x03 => warp (fun w => { w with axc := v.setWidth 2 })
  | 0x04 => (warp (fun w => w.reseed v)).putRecords w.wid
  | 0x05 => warp (fun w => { w with sps := v &&& 0xFFFFFFFC })
  | 0x20 => ctx (fun c => { c with ctxId := v.setWidth 16 })
  | 0x21 => die (s.keepWindows w) (fun d => { d with spb := v &&& 0x07FF0000 })
  | 0x22 => die (s.keepWindows w) (fun d => { d with spl := v &&& 0x0FFF0000 })
  | 0x23 => die (s.keepDeque w) (fun d => { d with dqb := d.dqb.set w.core (v &&& 0xFFFFFFC0) })
  | 0x24 => die (s.keepDeque w) (fun d => { d with dql := d.dql.set w.core (v &&& 0xFFFFFFC0) })
  | 0x25 => die (s.keepWindows w) (fun d => { d with csab := v &&& 0x07FFF000 })
  | 0x26 => die (s.keepWindows w) (fun d => { d with csal := v &&& 0x0FFFF000 })
  | 0x27 => ctx (fun c => { c with ttb0 := v &&& 0xFFFFF000 })
  | 0x28 => ctx (fun c => { c with ttb1 := v &&& 0x000FFFFF })
  | 0x29 => (s.keepTables w).modCtx w.ctx (fun c => { c with ttb2 := v &&& 1, root := c.ttb1.toNat * 2 ^ 32 + c.ttb0.toNat, tlb := [] })
  | 0x2A => ctx (fun c => { c with trapv := v &&& 0xFFFFFFF8 })
  | 0x2B => ctx (fun c => { c with wdgEn := v.msb, wdgK := BitVec.ofNat 6 (max 10 (v.toNat % 64)), wdgCount := 0 })
  | 0x2C => warp (fun w => { w with prioClass := v.toNat / 16 % 4, prioLevel := v.toNat % 16 })
  | _ => s

/-- A write, set or clear of a control register by lanes (R135): f combines the old value with the lanes' words. -/
def State.csrInstr (s : State) (e : Env) (f : Word → List Word → Word) : State :=
  let n := e.o.mods 0 6
  if e.p.isEmpty then s
  else if n == 0x02 then
    s.modWarp e.c.wid (fun w => e.p.foldl (fun w l =>
      w.modLane l (fun x => { x with fpx := (f (x.fpx.setWidth 32) [e.b s l]).setWidth 6 })) w)
  else s.csrWrite e.w n (f (s.csrValue ((s.warp? e.c.wid).getD e.w) e.elected n) (e.p.map (e.b s)))

/-- `csr.rd` (R134, R28, R29). -/
def execCsrRd (o : Operands) (s : State) :=
  issue (.csrRd o) s (fun e s =>
    let n := e.o.mods 0 6
    let s1 := s.writeDst e.c.wid e.p e.o.d (fun l => [s.csrValue e.w l n])
    if n == 0x08 && !e.p.isEmpty then s1.modWarp e.c.wid (fun w => { w with digh := (w.dig >>> 32).setWidth 32 }) else s1)
/-- `csr.wr` (R135): lanes write in ascending order, so that a legal value before a reserved one stands (R27). -/
def execCsrWr (o : Operands) (s : State) :=
  issue (.csrWr o) s (fun e s =>
    e.p.foldl (fun s l => s.csrInstr { e with p := [l] } (fun _ vs => vs.headD 0)) s)
/-- `csr.set` (R135). -/
def execCsrSet (o : Operands) (s : State) :=
  issue (.csrSet o) s (fun e s => s.csrInstr e (fun old vs => vs.foldl (· ||| ·) old))
/-- `csr.clr` (R135). -/
def execCsrClr (o : Operands) (s : State) :=
  issue (.csrClr o) s (fun e s => s.csrInstr e (fun old vs => vs.foldl (fun x v => x &&& ~~~v) old))
/-- `clk.rd` (R137). -/
def execClkRd (o : Operands) (s : State) :=
  issue (.clkRd o) s (fun e s =>
    let t := if e.w.supervisor then (s.die e.w.die).clkr else s.ctxClk e.w.ctx
    s.writeDst e.c.wid e.p e.o.d (fun _ => [BitVec.ofNat 32 t, BitVec.ofNat 32 (t / 2 ^ 32)]))
/-- `dig.fold` (R138). -/
def execDigFold (o : Operands) (s : State) :=
  issue (.digFold o) s (fun e s =>
    s.modWarp e.c.wid (fun w => e.p.foldl (fun w l => w.fold (e.b s l).toNat (e.a s l).toNat) w))
/-- `pc.rd` (R140). -/
def execPcRd (o : Operands) (s : State) :=
  issue (.pcRd o) s (fun e s => s.writeDst e.c.wid e.p e.o.d (fun _ => [BitVec.ofNat 32 e.c.pc]))

/-- What handler instructions do to a faulted record. -/
inductive HandlerAct
  | resume | kill | esc
  deriving DecidableEq, Repr

/-- The faulted record a lane names, of the issuing warp's context (R139, R427). -/
def State.faultedAt (s : State) (w : Warp) (o : Nat) : Option (Warp × Record) :=
  let a := s.spaceAddr w false o
  (s.warps.filter (fun x => x.die == w.die && x.ctx == w.ctx)).findSome? (fun x =>
    (x.records.find? (fun r => r.state == .faulted && (match r.place with
      | .slot k => x.slotAddr k == a
      | _ => false))).map (fun r => (x, r)))

/-- A handler instruction (R139, R427): the lanes act in ascending order; an escalation takes effect after them. -/
def State.handlerInstr (s : State) (e : Env) (act : HandlerAct) : State :=
  let ok (l : Nat) : Bool := ((s.ctx? e.w.ctx).map (fun c => c.windowOk e.w.die (e.b s l).toNat 1 true)).getD false
  let good := e.p.filter ok
  let bad := (e.p.filter (fun l => !ok l)).map (fun l =>
    ({ lane := l, code := 0x10, faddr := (e.b s l).toNat } : LaneTrap))
  let r := good.foldl (fun (acc : State × List RegWrite × Option (Nat × Nat)) l =>
    match acc.1.faultedAt e.w (e.b s l).toNat with
    | none => (acc.1, acc.2.1 ++ dstWrites l e.o.d [1], acc.2.2)
    | some x =>
      match act with
      | .resume => (acc.1.returnFrom x.1 x.2, acc.2.1 ++ dstWrites l e.o.d [0], acc.2.2)
      | .kill => (acc.1.killRecord x.1 x.2, acc.2.1 ++ dstWrites l e.o.d [0], acc.2.2)
      | .esc =>
        if acc.2.2 == some (x.1.wid, x.2.seq) then (acc.1, acc.2.1 ++ dstWrites l e.o.d [1], acc.2.2)
        else (acc.1, acc.2.1 ++ dstWrites l e.o.d [0], acc.2.2.or (some (x.1.wid, x.2.seq))))
    (s, [], none)
  let s1 := (r.1.writeRegs e.c.wid r.2.1).raise e bad
  match r.2.2 with
  | none => s1
  | some x => s1.escalate e.w.ctx x.1 x.2

/-- `hdl.resume` (R139, R427). -/
def execHdlResume (o : Operands) (s : State) := issue (.hdlResume o) s (fun e s => s.handlerInstr e .resume)
/-- `hdl.kill` (R139, R335). -/
def execHdlKill (o : Operands) (s : State) := issue (.hdlKill o) s (fun e s => s.handlerInstr e .kill)
/-- `hdl.esc` (R139, R443). -/
def execHdlEsc (o : Operands) (s : State) := issue (.hdlEsc o) s (fun e s => s.handlerInstr e .esc)

end Sys2Proof.Machine
end

