-- ==== Sys2Proof/Machine/Rendering.lean ====
section
/-! DEFINITION. The rendering registers and the picker, sample and row instructions (spec/16_sample_stream.md R348 to
R371). -/

namespace Sys2Proof.Machine

/-- The value of a rendering register (Tables 16.1, 16.2). -/
def Render.reg (r : Render) (n : Nat) : Word :=
  match n with
  | 0x00 => BitVec.ofNat 32 ((if r.ownerV then 2 ^ 31 else 0) + r.ownerCtx)
  | 0x01 => BitVec.ofNat 32 r.rate
  | 0x02 => r.wgt
  | 0x03 => BitVec.ofNat 32 (r.agesh * 2 ^ 8 + r.sh)
  | 0x04 => BitVec.ofNat 32 r.lead
  | 0x05 => BitVec.ofNat 32 (r.th * 2 ^ 16 + r.tw)
  | 0x06 => r.rayl
  | 0x07 => r.prbl
  | 0x08 => BitVec.ofNat 32 r.maxw
  | 0x09 => r.sbfb
  | 0x0A => BitVec.ofNat 32 r.axl
  | 0x0B => BitVec.ofNat 32 r.pt
  | 0x0C => r.picks
  | 0x0D => r.dropped
  | 0x0E => r.fdrop
  | 0x10 => BitVec.ofNat 32 ((if r.souEn then 2 ^ 31 else 0) + r.rql * 2 ^ 16)
  | 0x11 => r.recl
  | 0x12 => r.seq
  | 0x13 => r.miss
  | 0x14 => r.pxdrop
  | _ => 0

/-- A restart of the picker (R350, R360). -/
def Render.restart (r : Render) : Render :=
  { r with pass := [], picked := [], count := [], vt := 0, rayPending := none, prbPending := none, restartAt := r.pt
           widx := [], fill := [] }

/-- A field keeps its value when the written one lies outside its range (R349). -/
def inRange (lo hi v old : Nat) : Nat := if lo ≤ v && v ≤ hi then v else old

/-- A write of a rendering register; tag is the tag that a launch register takes (R349, R350, R337, R372). -/
def Render.setReg (r : Render) (n : Nat) (v : Word) (tag : Nat) : Render :=
  let x := v.toNat
  match n with
  | 0x00 => ({ r with ownerV := v.msb, ownerCtx := x % 2 ^ 16 }).restart
  | 0x01 => { r with rate := inRange 0 4096 (x % 2 ^ 13) r.rate }
  | 0x02 => { r with wgt := v }
  | 0x03 => { r with agesh := x / 2 ^ 8 % 16, sh := x % 4 }
  | 0x04 => { r with lead := x % 2 ^ 16 }
  | 0x05 => ({ r with th := inRange 1 256 (x / 2 ^ 16 % 2 ^ 9) r.th, tw := inRange 1 256 (x % 2 ^ 9) r.tw }).restart
  | 0x06 => { r with rayl := v &&& 0xFFFFFF80, rayTag := tag }
  | 0x07 => { r with prbl := v &&& 0xFFFFFF80, prbTag := tag }
  | 0x08 => { r with maxw := inRange 1 512 (x % 2 ^ 10) r.maxw }
  | 0x09 => { r with sbfb := v &&& 0xFFFFFC00 }
  | 0x0A => { r with axl := x % 4 }
  | 0x10 => { r with souEn := v.msb, rql := inRange 1 3 (x / 2 ^ 16 % 4) r.rql
                     hold := if v.msb && !r.souEn then [] else r.hold }
  | 0x11 => { r with recl := v &&& 0xFFFFFF80, recTag := tag }
  | _ => r

/-- The first tag from t on that is not 0 and names no running launch (R337). -/
def State.freeTag (s : State) (ctx die : Nat) : Nat → Nat → Nat
  | 0, t => t
  | n + 1, t => if t % 2 ^ 16 == 0 || s.tagRuns ctx die (t % 2 ^ 16) then s.freeTag ctx die n (t + 1) else t % 2 ^ 16

/-- Take the next tag of a context on a die (R337). -/
def State.takeTag (s : State) (ctx die : Nat) : Nat × State :=
  let last := ((s.ctx? ctx).map (fun c => (c.die die).nextTag)).getD 0
  let t := s.freeTag ctx die 65536 (last + 1)
  (t, s.modCtx ctx (fun c => c.modDie die (fun d => { d with nextTag := t })))

/-- Write a rendering register of a die (R349, R337); a write of a launch register takes a tag of the owner. -/
def State.setRenderReg (s : State) (die n : Nat) (v : Word) : State :=
  let r := (s.die die).render
  let t := if n == 0x06 || n == 0x07 || n == 0x11 then s.takeTag r.ownerCtx die else (0, s)
  t.2.modRender die (fun r => r.setReg n v t.1)

/-- `spk.prio` (R362, R348). DEDUCED (assumption log 45): a user-level write of OWNER, which b selects, depends on data, so
that only lanes whose predicate is true raise trap 0x05. -/
def execSpkPrio (o : Operands) (s : State) :=
  issue (.spkPrio o) s (fun e s =>
    let n := (e.b s e.elected).toNat % 32
    if e.p.isEmpty then s
    else if n == 0 && !e.w.supervisor then s.raiseAll e e.p 0x05 0 0
    else (s.setRenderReg e.w.die n (e.a s e.elected)).answer e [(s.die e.w.die).render.reg n])

/-- A tile index lies in the grid (R351). -/
def Render.inGrid (r : Render) (t : Nat) : Bool := decide (t < r.tw * r.th)

/-- A tile's age (R351): picked holds one more than the time of the last pick, 0 for none since the restart. -/
def Render.age (r : Render) (t : Nat) : Nat :=
  let p := (r.picked.get t).toNat
  min (r.pt - (if p == 0 then r.restartAt else p - 1)) (2 ^ 32 - 1)

/-- What spk.rd reads (R362). -/
def Render.read (r : Render) (src n : Nat) : Word :=
  if src == 0 then r.reg (n % 32)
  else if !r.inGrid n then 0
  else
    match src with
    | 1 => r.map.get n
    | 2 => BitVec.ofNat 32 (r.age n)
    | _ => BitVec.ofNat 32 (min ((r.pass.get n).toNat - r.vt) (2 ^ 32 - 1))

/-- `spk.rd` (R362). -/
def execSpkRd (o : Operands) (s : State) :=
  issue (.spkRd o) s (fun e s =>
    s.perWord e (fun l => (s.die e.w.die).render.read (e.o.mods 0 2) (e.b s l).toNat))

/-- The bits of a map entry that MASK selects (R363). -/
def mapMask (m : Nat) : Word :=
  let on (k : Nat) (v : Word) : Word := if m == 0 || bitOf m k then v else 0
  on 0 0xFF ||| on 1 0xFF00 ||| on 2 0xFF0000 ||| on 3 0x03000000

/-- A write of a map entry (R363, R355). -/
def Render.mapWrite (r : Render) (t : Nat) (mask v : Word) (rb : Bool) : Render :=
  let old := r.map.get t
  let new := (old &&& ~~~mask) ||| (v &&& mask)
  let p := (r.pass.get t).toNat
  let p1 := if old.getLsbD 25 && !new.getLsbD 25 then max p r.vt else p
  { r with map := r.map.set t new, pass := r.pass.set t (BitVec.ofNat 64 (if rb then r.vt else p1)) }

/-- `spk.map` (R363): lanes act in ascending order. -/
def execSpkMap (o : Operands) (s : State) :=
  issue (.spkMap o) s (fun e s =>
    let r := e.p.foldl (fun (acc : Render × List RegWrite) l =>
      let t := (e.b s l).toNat
      if acc.1.inGrid t then
        (acc.1.mapWrite t (mapMask (e.o.mods 0 4)) (e.a s l) (e.o.modBit 4), acc.2 ++ dstWrites l e.o.d [acc.1.map.get t])
      else (acc.1, acc.2 ++ dstWrites l e.o.d [0])) ((s.die e.w.die).render, [])
    (s.modRender e.w.die (fun _ => r.1)).writeRegs e.c.wid r.2)

/-- The owner's context of a die's rendering units. -/
def State.renderOwner (s : State) (die : Nat) : Option Context :=
  let r := (s.die die).render
  if r.ownerV then s.ctx? r.ownerCtx else none

/-- Window offset of a tile's ring (R360). -/
def Render.ringAt (r : Render) (t : Nat) : Nat := r.sbfb.toNat + 1024 * t

/-- A tile's ring on a die can be reached at a level (R210, R211): its first byte in the scratchpad. -/
def State.ringPlace (s : State) (die t : Nat) (sup : Bool) : Option Nat :=
  let o := (s.die die).render.ringAt t
  match s.renderOwner die with
  | none => none
  | some c => if c.windowOk die o 1024 sup then some ((c.window die).1 + o) else none

/-- Write a record into a tile's ring as one event (R360). -/
def State.writeSample (s : State) (die t a : Nat) (bs : List Byte) : State :=
  let r := (s.die die).render
  let i := (r.widx.get t).toNat
  (s.spaceWrite (.spad die) (a + 16 * i) bs none).modRender die (fun r =>
    { r with widx := r.widx.set t (BitVec.ofNat 6 (i + 1))
             fill := r.fill.set t (BitVec.ofNat 7 (min ((r.fill.get t).toNat + 1) 64)) })

/-- The bytes of an emitted record (R364, Table 16.6). -/
def sampleBytes (ws : List Word) (sid : Nat) (foreign : Bool) : List Byte :=
  let bs := ws.flatMap (fun w => natToBytes 4 w.toNat)
  bs.take 13 ++ [((bs.getD 13 0) &&& 0xF2) ||| (if foreign then 1 else 0), BitVec.ofNat 8 sid, BitVec.ofNat 8 (sid / 2 ^ 8)]

/-- `samp.emit` (R364). -/
def execSampEmit (o : Operands) (s : State) :=
  issue (.sampEmit o) s (fun e s =>
    let fwd := e.o.modBit 0
    let r := e.p.foldl (fun (acc : State × List RegWrite) l =>
      let b := (e.b s l).toNat
      let ws := e.words s 4 false e.o.a l
      let t := b / 2 ^ 16
      if fwd then
        (let op : EngineOp :=
           { oid := acc.1.nextId, die := e.w.die, core := e.w.core, ctx := e.w.ctx, wid := e.c.wid, block := e.w.block
             colour := e.o.col, kind := .forward t (sampleBytes ws b true) }
         ({ acc.1 with nextId := acc.1.nextId + 1, ops := acc.1.ops ++ [op] }, acc.2 ++ dstWrites l e.o.d [0]))
      else
        match (s.die e.w.die).render.inGrid t, s.ringPlace e.w.die t e.w.supervisor with
        | true, some a => (acc.1.writeSample e.w.die t a (sampleBytes ws b false), acc.2 ++ dstWrites l e.o.d [0])
        | _, _ => (acc.1, acc.2 ++ dstWrites l e.o.d [2])) (s, [])
    r.1.writeRegs e.c.wid r.2)

/-- The bytes of a forwarded record are kept for the fold of a DET launch (R251). -/
def State.keepForward (s : State) (o : EngineOp) (bs : List Byte) : State :=
  s.modOp o.oid (fun x => { x with payload := (List.range bs.length).map (fun k => (k, bs.getD k 0)) })

/-- A slot of a ring lies in a line that an engine owns (R238). -/
def State.slotOwned (s : State) (die a i : Nat) : Bool := (spaceLines (.spad die) (a + 16 * i) 16).any s.isOwned

/-- FORWARDED_RECORD_ARRIVAL (R365): in the issue order of the warp. It acquires the line of its slot, writes and releases it
as one event, once no other operation owns it (R236, R237). The ring is reached at the level of the warp that sent it. -/
def State.forwardArrive (s : State) (o : EngineOp) (t : Nat) (bs : List Byte) : State :=
  let die := 1 - o.die
  let first := ((s.ops.filter (fun x => x.wid == o.wid && (match x.kind with
    | .forward _ _ => !x.complete
    | _ => false))).head?.map (·.oid)) == some o.oid
  if !first then s
  else
    match (s.die die).render.inGrid t, s.ringPlace die t (s.opLevel o) with
    | true, some a =>
      if s.slotOwned die a ((s.die die).render.widx.get t).toNat then s
      else ((s.writeSample die t a bs).keepForward o bs).retire o
    | _, _ => (s.modRender die (fun r => { r with fdrop := r.fdrop + 1 })).retire o

/-- A record of a ring by slot. -/
def State.ringRecord (s : State) (die a i : Nat) : List Byte := s.spaceBytes (.spad die) (a + 16 * i) 16

/-- The slots of a tile that hold records, newest first (R360, R366). -/
def Render.ringSlots (r : Render) (t : Nat) : List Nat :=
  (List.range (r.fill.get t).toNat).map (fun j => ((r.widx.get t).toNat + 64 - 1 - j) % 64)

/-- The lines of the records of a gather that an engine owns: it waits for their release (R238). -/
def State.gatherWaits (s : State) (die t : Nat) (sup : Bool) : Bool :=
  match (s.die die).render.inGrid t, s.ringPlace die t sup with
  | true, some a => ((s.die die).render.ringSlots t).any (s.slotOwned die a)
  | _, _ => false

/-- The records of a gather, newest first (R366). -/
def State.gatherRecords (s : State) (die t limit : Nat) (sup : Bool) : List (List Byte) :=
  let r := (s.die die).render
  match r.inGrid t, s.ringPlace die t sup with
  | true, some a =>
    ((r.ringSlots t).map (s.ringRecord die a)).filter (fun x => decide (2 ^ 24 ≤ limit) ||
      decide ((r.pt + 2 ^ 24 - fieldOf x 10 3) % 2 ^ 24 ≤ limit))
  | _, _ => []

/-- The register writes of a gather in lanes (R366). -/
def gatherWrites (o : Operands) (ls : List Nat) (recs : List (List Byte)) : List RegWrite :=
  let n := if o.modBit 0 then 64 else 32
  let xs := recs.take n
  ls.flatMap (fun l => dstWrites l o.d (((List.range (n / 32)).flatMap (fun k0 =>
    let x := xs.getD (32 * k0 + l) []
    (List.range 4).map (fun w => BitVec.ofNat 32 (fieldOf x (4 * w) 4)))) ++ [BitVec.ofNat 32 xs.length]))

/-- `samp.gth` (R366, R367): the ring is read at the completion of the gather. -/
def execSampGth (o : Operands) (s : State) :=
  issue (.sampGth o) s (fun e s =>
    let t := (e.b s e.elected).toNat
    let r := (s.die e.w.die).render
    let bad : Option Nat :=
      if !r.inGrid t || (s.ringPlace e.w.die t e.w.supervisor).isSome then none
      else
        match s.renderOwner e.w.die with
        | some c => some (c.firstBad e.w.die (r.ringAt t) 1024 e.w.supervisor)
        | none => some (r.ringAt t)
    if e.p.isEmpty then s
    else
      match bad with
      | some f => s.raiseAll e e.p 0x10 f 0
      | none => s.suspend e { lanes := e.p, wait := .gather, ls := e.o.ls, event := t, vals := e.p.map (e.valsOf s 1 1 0 0) })

/-- SAMPLE_GATHER_COMPLETE (R366), once no engine owns a line that it reads (R238). -/
def State.gatherComplete (s : State) (w : Warp) (r : Record) : State :=
  match r.wait, r.instr, r.vals with
  | .gather, some i, v :: _ =>
    if s.gatherWaits w.die v.b0.toNat w.supervisor then s
    else s.ready w.wid r.seq (gatherWrites i.operands r.lanes (s.gatherRecords w.die v.b0.toNat v.a0.toNat w.supervisor))
  | _, _, _ => s

/-- A 10-bit pixel code from a channel of a packed colour (R370, R46). -/
def pixelCode (f : Fmt) (bits : Nat) : Nat :=
  match f.decode bits with
  | .nan _ => 0
  | .inf _ => 1023
  | .fin n m e =>
    if n then 0
    else if (FVal.fin false 1 0).lt (.fin false m e) then 1023
    else (roundToInt rmRn 0 ⟨false, m * 1023, e, false⟩).1.toNat

/-- The pixel code of a packed colour (R368, R370). -/
def colourCode (a : Nat) : BitVec 30 :=
  BitVec.ofNat 30 (pixelCode fmtColour6 (a % 2 ^ 11) + pixelCode fmtColour6 (a / 2 ^ 11 % 2 ^ 11) * 2 ^ 10 +
    pixelCode fmtColour5 (a / 2 ^ 22) * 2 ^ 20)

/-- The band slot whose open request has a tag with given low 12 bits, before the time of its scan (R370, R371). -/
def Render.bandOf (r : Render) (now tag : Nat) : Option Nat :=
  (List.range 4).find? (fun k =>
    let b := r.bands.getD k {}
    b.opened && b.tag.toNat % 2 ^ 12 == tag && decide (now < b.due))

/-- Change a band slot. -/
def Render.modBand (r : Render) (k : Nat) (f : BandSlot → BandSlot) : Render := { r with bands := r.bands.modify k f }

/-- One put at a time (R370). -/
def Render.put (r : Render) (now pos a : Nat) : Render :=
  let x := pos % 2 ^ 13
  match r.bandOf now (pos / 2 ^ 20) with
  | some k =>
    if pos / 2 ^ 17 % 8 != 0 || 16 * r.tw ≤ x then { r with pxdrop := r.pxdrop + 1 }
    else r.modBand k (fun b => { b with codes := b.codes.set (16 * r.tw * (pos / 2 ^ 13 % 16) + x) (colourCode a) })
  | none => { r with pxdrop := r.pxdrop + 1 }

/-- `row.put` (R370). -/
def execRowPut (o : Operands) (s : State) :=
  issue (.rowPut o) s (fun e s =>
    s.modRender e.w.die (fun r => e.p.foldl (fun r l => r.put s.realTime (e.b s l).toNat (e.a s l).toNat) r))
/-- `row.ack` (R371). -/
def execRowAck (o : Operands) (s : State) :=
  issue (.rowAck o) s (fun e s =>
    if e.p.isEmpty then s
    else
      match (s.die e.w.die).render.bandOf s.realTime ((e.b s e.elected).toNat % 2 ^ 12) with
      | some k => (s.modRender e.w.die (fun r => r.modBand k (fun b => { b with acks := b.acks + 1 }))).answer e [0]
      | none => (s.modRender e.w.die (fun r => { r with pxdrop := r.pxdrop + 1 })).answer e [1])

end Sys2Proof.Machine
end

