-- ==== Sys2Proof/Machine/Traversal.lean ====
section
/-! DEFINITION. Traversal, probe, texture and reorder instructions (spec/17_traversal_and_probes.md R374 to R393). -/

namespace Sys2Proof.Machine

/-- A traversal as a lane's window holds it (Tables 17.3, 17.4): stack holds the registers of the capacity in use. -/
structure Trav where
  o : List Nat
  dir : List Nat
  tmin : Nat
  tmax : Nat
  base : List Word
  sp : Nat
  cap : Nat
  any : Bool
  hit : Bool
  ovf : Bool
  fin : Bool
  lpos : Nat
  high : Nat
  cur : Nat
  key : List Nat
  hu : Nat
  hv : Nat
  stack : List Word
  deriving DecidableEq, Repr

/-- The capacity in use of a window at register t (R378): the field, or the registers that fit. -/
def travCap (ctl : Word) (t footprint : Nat) : Nat := min (ctl.toNat / 2 ^ 6 % 32 + 1) (min footprint 640 - (t + 18))

/-- Read a window from its words, the stack registers in use after the header (R378). -/
def Trav.ofWords (ws : List Word) : Trav :=
  let n (k : Nat) : Nat := (ws.getD k 0).toNat
  let ctl := n 11
  { o := [n 0, n 1, n 2], dir := [n 3, n 4, n 5], tmin := n 6, tmax := n 7, base := (ws.drop 8).take 3
    sp := ctl % 64, cap := ctl / 2 ^ 6 % 32, any := bitOf ctl 11, hit := bitOf ctl 12
    ovf := bitOf ctl 13, fin := bitOf ctl 14, lpos := ctl / 2 ^ 15 % 8, high := ctl / 2 ^ 18
    cur := n 12, key := [n 13, n 14, n 15]
    hu := n 16, hv := n 17, stack := ws.drop 18 }

/-- CTL of a traversal (Table 17.4); its other bits keep (**assumption log 31**). -/
def Trav.ctl (x : Trav) : Nat :=
  let b (v : Bool) (k : Nat) : Nat := if v then 2 ^ k else 0
  x.sp + x.cap * 2 ^ 6 + b x.any 11 + b x.hit 12 + b x.ovf 13 + b x.fin 14 + x.lpos * 2 ^ 15 + x.high * 2 ^ 18

/-- The entries in use and the next primitive, as a step reads the fields (R378): SP at most the capacity, LPOS at most 4. -/
def Trav.depth (x : Trav) : Nat := min x.sp x.stack.length
def Trav.next (x : Trav) : Nat := min x.lpos 4

/-- The words of a window. -/
def Trav.words (x : Trav) : List Word :=
  let w (v : Nat) : Word := BitVec.ofNat 32 v
  x.o.map w ++ x.dir.map w ++ [w x.tmin, w x.tmax] ++ x.base ++ [w x.ctl, w x.cur] ++ x.key.map w ++ [w x.hu, w x.hv] ++
    x.stack

/-- Coordinate c of a vector. -/
def coord (v : List Nat) (c : Nat) : Nat := v.getD c 0

/-- The box test (R380). -/
def Trav.box (x : Trav) (lo hi : List Nat) : Bool × Nat :=
  let r := (List.range 3).foldl (fun (acc : Nat × Nat) c =>
    let id := divRn 0x3F800000 (coord x.dir c)
    let t1 := mulRn (addRn (coord lo c) (negF (coord x.o c))) id
    let t2 := mulRn (addRn (coord hi c) (negF (coord x.o c))) id
    (maxF acc.1 (minF t1 t2), minF acc.2 (maxF t1 t2))) (x.tmin, x.tmax)
  (leF r.1 r.2, r.1)

/-- Vector helpers of R381. -/
def vecSub (a b : List Nat) : List Nat := (List.range 3).map (fun c => addRn (coord a c) (negF (coord b c)))
def cross (a b : List Nat) : List Nat :=
  let f (i j : Nat) : Nat := fmaRn (coord a i) (coord b j) (negF (mulRn (coord a j) (coord b i)))
  [f 1 2, f 2 0, f 0 1]
def dot (a b : List Nat) : Nat :=
  fmaRn (coord a 2) (coord b 2) (fmaRn (coord a 1) (coord b 1) (mulRn (coord a 0) (coord b 0)))

/-- A hit of a triangle: distance and barycentric coordinates. -/
structure TriHit where
  t : Nat
  u : Nat
  v : Nat
  deriving DecidableEq, Repr

/-- The triangle test (R381). -/
def Trav.tri (x : Trav) (p0 p1 p2 : List Nat) : Option TriHit :=
  let e1 := vecSub p1 p0
  let e2 := vecSub p2 p0
  let p := cross x.dir e2
  let det := dot e1 p
  if eqF det 0 || isNanF det then none
  else
    let s := vecSub x.o p0
    let q := cross s e1
    let r := divRn 0x3F800000 det
    let u := mulRn (dot s p) r
    let v := mulRn (dot x.dir q) r
    let t := mulRn (dot e2 q) r
    if leF 0 u && leF 0 v && leF (addRn u v) 0x3F800000 && leF x.tmin t && leF t x.tmax then some ⟨t, u, v⟩ else none

/-- A candidate improves the committed hit (R382). -/
def Trav.improves (x : Trav) (t : Nat) (key : List Nat) : Bool :=
  ltF t x.tmax || (eqF t x.tmax && (!x.hit || lexLt key x.key))

/-- Commit a candidate (R382). -/
def Trav.commit (x : Trav) (h : TriHit) (key : List Nat) : Trav :=
  let y := { x with tmax := h.t, key := key, hu := h.u, hv := h.v, hit := true }
  if x.any then { y with fin := true, sp := 0, cur := 0, lpos := 0 } else y

/-- Push a child word (R383): a full stack drops entry 0. -/
def Trav.push (x : Trav) (w : Nat) : Trav :=
  if x.depth < x.stack.length then { x with stack := x.stack.set x.depth (BitVec.ofNat 32 w), sp := x.depth + 1 }
  else { x with stack := if x.stack.isEmpty then [] else x.stack.drop 1 ++ [BitVec.ofNat 32 w], ovf := true }

/-- A texture descriptor (Table 17.7). -/
structure TexDesc where
  addr : Nat
  fmt : Nat
  wrapU : Nat
  wrapV : Nat
  bilinear : Bool
  width : Nat
  height : Nat
  last : Nat
  bad : Bool
  deriving DecidableEq, Repr

/-- Read a descriptor (R389). -/
def TexDesc.ofBytes (bs : List Byte) : TexDesc :=
  let smp := fieldOf bs 10 1
  { addr := fieldOf bs 0 9, fmt := fieldOf bs 9 1, wrapU := smp % 4, wrapV := smp / 4 % 4, bilinear := bitOf smp 4
    width := fieldOf bs 12 2 + 1, height := fieldOf bs 14 2 + 1, last := fieldOf bs 16 1
    bad := decide (3 < fieldOf bs 9 1) || smp % 4 == 3 || smp / 4 % 4 == 3 || fieldOf bs 11 1 != 0 || fieldOf bs 17 15 != 0 }

/-- Bytes of a texel, width, height and pitch of a level (R389). -/
def TexDesc.texel (d : TexDesc) : Nat := if d.fmt == 1 then 8 else 4
def TexDesc.widthAt (d : TexDesc) (l : Nat) : Nat := max 1 (d.width / 2 ^ l)
def TexDesc.heightAt (d : TexDesc) (l : Nat) : Nat := max 1 (d.height / 2 ^ l)
def TexDesc.pitch (d : TexDesc) (l : Nat) : Nat := (d.widthAt l * d.texel + 15) / 16 * 16

/-- The address at which a level starts (R389). -/
def TexDesc.levelStart (d : TexDesc) : Nat → Nat
  | 0 => d.addr
  | l + 1 => (d.levelStart l + d.heightAt l * d.pitch l + 127) / 128 * 128

/-- The address of a texel (R389). -/
def TexDesc.texelAt (d : TexDesc) (l i j : Nat) : Nat :=
  (d.levelStart l + j * d.pitch l + d.texel * i) % 2 ^ 72

/-- Channels of a texel as f32 (R389). -/
def TexDesc.channels (d : TexDesc) (bs : List Byte) : List Nat :=
  match d.fmt with
  | 0 => (List.range 4).map (fun k => divRn (fmtF32.round rmRn false 0 (intVal (fieldOf bs k 1)).exact).bits 0x437F0000)
  | 1 => (List.range 4).map (fun k => fmtF16.widen (fieldOf bs (2 * k) 2))
  | 2 => [fieldOf bs 0 4, 0, 0, 0x3F800000]
  | _ =>
    let v := fieldOf bs 0 4
    [fmtColour6.widen (v % 2 ^ 11), fmtColour6.widen (v / 2 ^ 11 % 2 ^ 11), fmtColour5.widen (v / 2 ^ 22), 0x3F800000]

/-- A wrapped texel index (R390). -/
def wrapIndex (mode w : Nat) (i : Int) : Nat :=
  match mode with
  | 0 => (i % w).toNat
  | 1 => (min (max i 0) (w - 1)).toNat
  | _ =>
    let m := (i % (2 * w)).toNat
    if m < w then m else 2 * w - 1 - m

/-- A float as an integer of a rounding mode, saturating as R55 states. -/
def floatToInt (mode x : Nat) : Int :=
  match fmtF32.decode x with
  | .nan _ => 0
  | .inf n => if n then -(2 ^ 31) else 2 ^ 31 - 1
  | .fin n m e => max (-(2 ^ 31)) (min (2 ^ 31 - 1) (roundToInt mode 0 ⟨n, m, e, false⟩).1)

/-- An integer as an f32 (R48). -/
def intToFloat (v : Int) : Nat := (fmtF32.round rmRn false 0 (intVal v).exact).bits

/-- lerp of R390. -/
def lerp (a b f : Nat) : Nat := fmaRn f (addRn b (negF a)) a

/-- A byte in a core's texture and node cache, by target and physical address: any that the cache took in and has not
invalidated since may still be there, by a free choice for each aligned 16 bytes of the read k (R240, R385). -/
def Core.cachedByte (x : Core) (ctx tgt pa k : Nat) : Option Byte :=
  let ts := x.texLines.filter (fun t => t.ctx == ctx && t.tgt == tgt && t.line == pa / 128)
  ((List.range ts.length).find? (fun j => Config.stillCached ((k - pa % 16) * 2 ^ 20 + j))).bind (fun j =>
    (ts[j]?).map (fun t => t.bytes.getD (pa % 128) 0))

/-- Read a byte of main memory through the texture and node cache of a warp's core; k numbers the access. -/
def State.texByte (s : State) (w : Warp) (c : Context) (va k : Nat) : MainByte :=
  match s.translate c (va % 2 ^ 72) .read with
  | .trap t => .trap t
  | .ok tgt pa =>
    match (s.core w.die w.core).cachedByte c.id tgt pa k with
    | some b => .ok b
    | none => s.readMain c va k .read

/-- Read n bytes so, or the lowest trap with the first byte that gives it (R10). -/
def State.readTex (s : State) (w : Warp) (c : Context) (va k n : Nat) : MainBytes :=
  let xs := (List.range n).map (fun j => (s.texByte w c (va + j) (k + j), (va + j) % 2 ^ 72))
  match firstLowest (xs.filterMap (fun x => match x.1 with
    | .trap t => some (t, x.2)
    | .ok _ => none)) with
  | some t => .trap t.1 t.2
  | none => .ok (xs.map (fun x => match x.1 with
      | .ok b => b
      | .trap _ => 0))

/-- What a sample of main memory answers: words with the lines read; a trap with the addresses of its texel and of its
first faulting byte; or that an engine owns the line of the descriptor. -/
inductive Sampled
  | ok (ws : List Nat) (lines : List Nat)
  | trap (code texel byte : Nat) (lines : List Nat)
  | owned
  deriving DecidableEq, Repr

/-- Read one texel; k numbers the access. -/
def State.readTexel (s : State) (w : Warp) (c : Context) (d : TexDesc) (k l i j : Nat) : Sampled :=
  let a := d.texelAt l i j
  match s.readTex w c a k d.texel with
  | .ok bs => .ok (d.channels bs) (linesOf a d.texel)
  | .trap t x => .trap t a x (linesOf a d.texel)

/-- A NaN or infinite coordinate is read as 0 (R390). -/
def texCoord (x : Nat) : Nat :=
  match fmtF32.decode x with
  | .fin _ _ _ => x
  | _ => 0

/-- The lines that samples read. -/
def Sampled.lines : Sampled → List Nat
  | .ok _ ls => ls
  | .trap _ _ _ ls => ls
  | .owned => []

/-- The code of a sample's trap. -/
def Sampled.code : Sampled → Option Nat
  | .trap t _ _ _ => some t
  | _ => none

/-- The words of a sample. -/
def Sampled.words : Sampled → List Nat
  | .ok ws _ => ws
  | _ => []

/-- The trap of samples taken in order (R10): the lowest code, at the first that gives it. -/
def lowestSample (xs : List Sampled) : Option Sampled :=
  xs.find? (fun x => x.code.isSome && x.code == some (leastOf (xs.filterMap (·.code))))

/-- The trap of a sample with the lines of others read beside it. -/
def Sampled.beside (x : Sampled) (ls : List Nat) : Sampled :=
  match x with
  | .trap t a b _ => .trap t a b ls
  | y => y

/-- A texture sample at (u, v, lod) (R390). -/
def State.sampleTexture (s : State) (w : Warp) (c : Context) (d : TexDesc) (k u v lod : Nat) : Sampled :=
  if d.bad then .ok [0, 0, 0, 0] []
  else
    let l := (min (max (floatToInt rmRn lod) 0) d.last).toNat
    let wl := d.widthAt l
    let hl := d.heightAt l
    let x := mulRn (texCoord u) (intToFloat wl)
    let y := mulRn (texCoord v) (intToFloat hl)
    if !d.bilinear then
      s.readTexel w c d k l (wrapIndex d.wrapU wl (floatToInt rmRdn x)) (wrapIndex d.wrapV hl (floatToInt rmRdn y))
    else
      let x1 := addRn x 0xBF000000
      let y1 := addRn y 0xBF000000
      let i := floatToInt rmRdn x1
      let j := floatToInt rmRdn y1
      let fx := addRn x1 (intToFloat (-i))
      let fy := addRn y1 (intToFloat (-j))
      let texel (n : Nat) (a b : Int) : Sampled := s.readTexel w c d (k + 8 * n) l (wrapIndex d.wrapU wl a) (wrapIndex d.wrapV hl b)
      let xs := [texel 0 i j, texel 1 (i + 1) j, texel 2 i (j + 1), texel 3 (i + 1) (j + 1)]
      match lowestSample xs with
      | some t => t.beside (xs.flatMap (·.lines))
      | none =>
        let ch (n m : Nat) : Nat := ((xs.map (·.words)).getD n []).getD m 0
        .ok ((List.range 4).map (fun m => lerp (lerp (ch 0 m) (ch 1 m) fx) (lerp (ch 2 m) (ch 3 m) fx) fy))
          (xs.flatMap (·.lines))

/-- The trap of a texture descriptor offset (R390). -/
def State.texTrap (s : State) (w : Warp) (o : Nat) : Nat := s.checkAccess w false o 32 32

/-- The descriptor at a window offset. -/
def State.texDesc (s : State) (w : Warp) (o : Nat) : TexDesc :=
  TexDesc.ofBytes (s.spaceBytes (.spad w.die) (s.spaceAddr w false o) 32)

/-- A leaf record (Table 17.2). -/
def leafCount (bs : List Byte) : Nat := min (fieldOf bs 0 4 % 8) 4
def leafKey (bs : List Byte) (i : Nat) : List Nat :=
  [fieldOf bs 4 4, fieldOf bs 8 4, (fieldOf bs 12 4 + i) % 2 ^ 32]
def leafVertex (bs : List Byte) (i j : Nat) : List Nat := (List.range 3).map (fun c => fieldOf bs (24 + 36 * i + 12 * j + 4 * c) 4)
def leafTexCoord (bs : List Byte) (i j c : Nat) : Nat := fmtF16.widen (fieldOf bs (168 + 12 * i + 4 * j + 2 * c) 2)

/-- A step in progress (R383): the traversal, commits, records read, lines read, the number of the next access. -/
structure TravRun where
  x : Trav
  k : Nat := 0
  n : Nat := 0
  lines : List Nat := []
  peer : Nat := 0
  deriving DecidableEq, Repr

/-- How a step ends: the traversal with the candidate window, a trap, or a texture descriptor whose line an engine owns. -/
inductive TravEnd
  | done (r : TravRun) (ev areq : Nat) (key : List Nat) (t u v last : Nat)
  | trap (r : TravRun) (code faddr : Nat)
  | owned
  deriving DecidableEq, Repr

/-- An event that names the committed hit (Table 17.5). -/
def TravRun.committed (r : TravRun) (ev last : Nat) : TravEnd := .done r ev 0 r.x.key r.x.tmax r.x.hu r.x.hv last

/-- The alpha test of a triangle (R384): whether it survives, or a trap. -/
def State.alphaTest (s : State) (w : Warp) (c : Context) (leaf : List Byte) (i : Nat) (h : TriHit) (peer : Nat) : Sampled :=
  let w0 := addRn (addRn 0x3F800000 (negF h.u)) (negF h.v)
  let st (k : Nat) : Nat :=
    fmaRn h.v (leafTexCoord leaf i 2 k) (fmaRn h.u (leafTexCoord leaf i 1 k) (mulRn w0 (leafTexCoord leaf i 0 k)))
  let o := fieldOf leaf 16 4
  if s.texTrap w o != 0 then .trap (s.texTrap w o) o o []
  else if !(s.ownedLines w false o 32).isEmpty then .owned
  else
    match s.sampleTexture w c (s.texDesc w o) peer (st 0) (st 1) 0 with
    | .ok ws p => .ok [if leF (fmtF16.widen (fieldOf leaf 20 2)) (ws.getD 3 0) then 1 else 0] p
    | x => x

/-- Triangles of a leaf from primitive i on (R383, case 2); none when the loop runs to its end. -/
def State.leafLoop (s : State) (w : Warp) (c : Context) (noAlpha : Bool) (leaf : List Byte) : Nat → Nat → TravRun →
    TravRun × Option TravEnd
  | 0, _, r => (r, none)
  | m + 1, i, r =>
    if leafCount leaf ≤ i then (r, none)
    else
      let lctl := fieldOf leaf 0 4
      let key := leafKey leaf i
      match r.x.tri (leafVertex leaf i 0) (leafVertex leaf i 1) (leafVertex leaf i 2) with
      | none => s.leafLoop w c noAlpha leaf m (i + 1) r
      | some h =>
        if !r.x.improves h.t key then s.leafLoop w c noAlpha leaf m (i + 1) r
        else
          let stop (r : TravRun) (areq : Nat) : TravEnd :=
            let r := { r with x := { r.x with lpos := i + 1 } }
            .done r 3 areq key h.t h.u h.v r.x.cur
          if bitOf lctl 4 && noAlpha then (r, some (stop r 1))
          else
            let alpha := if bitOf lctl 4 then s.alphaTest w c leaf i h r.peer else .ok [1] []
            match alpha with
            | .owned => (r, some .owned)
            | .trap t _ b p => (r, some (.trap { r with lines := r.lines ++ p } t b))
            | .ok ws p =>
              let r := { r with lines := r.lines ++ p, peer := r.peer + 64 }
              if ws.headD 0 == 0 then s.leafLoop w c noAlpha leaf m (i + 1) r
              else if bitOf lctl 3 then (r, some (stop r 0))
              else
                let r := { r with x := r.x.commit h key, k := r.k + 1 }
                if r.x.any then (r, some (r.committed 0 0)) else s.leafLoop w c noAlpha leaf m (i + 1) r

/-- The children of a node that the ray meets, in ascending (tn, c) (R383, case 1). -/
def Trav.children (x : Trav) (node : List Byte) : List Nat :=
  let f (o : Nat) : Nat := fieldOf node o 4
  let hits := (List.range 4).filterMap (fun c =>
    let w := f (96 + 4 * c)
    let b := x.box [f (24 * c), f (24 * c + 4), f (24 * c + 8)] [f (24 * c + 12), f (24 * c + 16), f (24 * c + 20)]
    if w / 2 ^ 30 == 0 || !b.1 then none else some (b.2, w))
  (sortBy (fun a b => ltF a.1 b.1) hits).map (·.2)

/-- The loop of R383; a BASE with any of bits 79:72 set names no page (R23). The first argument bounds it: at most 32 records are read and every other turn empties CUR. -/
def State.travLoop (s : State) (w : Warp) (c : Context) (noAlpha : Bool) : Nat → TravRun → TravEnd
  | 0, r => r.committed 1 r.k
  | m + 1, r =>
    let x := r.x
    if x.fin then r.committed 0 0
    else if x.cur == 0 && x.depth == 0 then ({ r with x := { x with fin := true } } : TravRun).committed 0 0
    else
      let x := if x.cur == 0 then { x with sp := x.depth - 1, cur := (x.stack.getD (x.depth - 1) 0).toNat, lpos := 0 } else x
      let r := { r with x := x }
      let kind := x.cur / 2 ^ 30
      if r.n == 32 then r.committed 1 r.k
      else if kind == 0 then s.travLoop w c noAlpha m { r with x := { x with cur := 0 } }
      else
        let a := (vaOf x.base + 128 * (x.cur % 2 ^ 30)) % 2 ^ 72
        let size := if kind == 1 then 128 else 256
        let unmapped := decide (2 ^ 8 ≤ (x.base.getD 2 0).toNat)
        match (if unmapped then .trap 0x18 a else s.readTex w c a r.peer size) with
        | .trap t va => .trap { r with lines := r.lines ++ if unmapped then [] else linesOf a size } t va
        | .ok bs =>
          let r := { r with n := r.n + 1, peer := r.peer + 256, lines := r.lines ++ linesOf a size }
          if kind == 1 then
            let hs := x.children bs
            let y := ((hs.drop 1).reverse).foldl Trav.push { x with cur := hs.headD 0 }
            s.travLoop w c noAlpha m { r with x := y }
          else if kind == 2 then
            match s.leafLoop w c noAlpha bs 4 x.next r with
            | (_, some e) => e
            | (r, none) => ({ r with x := { r.x with cur := 0, lpos := 0 } } : TravRun).committed 1 r.k
          else if x.next < leafCount bs then
            let y := { x with lpos := x.next + 1 }
            .done { r with x := y } 2 0 (leafKey bs x.next) y.tmax 0 0 y.cur
          else s.travLoop w c noAlpha m { r with x := { x with cur := 0, lpos := 0 } }

/-- The words of the candidate window (Table 17.5). -/
def candidateWords (r : TravRun) (ev areq : Nat) (key : List Nat) (t u v last : Nat) : List Word :=
  let w (x : Nat) : Word := BitVec.ofNat 32 x
  [w (ev + areq * 8 + (if r.x.ovf then 16 else 0))] ++ key.map w ++ [w t, w u, w v, w last]

/-- The core's Traversal Unit lacks the alpha path (R384). -/
def State.noAlpha (s : State) (w : Warp) : Bool := s.t9c && w.core == 31

/-- The first number of the accesses of a step or sample to main memory (R298, R385). -/
def State.peerBase (s : State) : Nat := 2 ^ 200 + s.fresh

/-- What a lane's access through the texture and node cache answers: register writes or a trap with the lines read, or that
it waits for the release of a descriptor's line (R238). -/
structure LaneRead where
  ws : List RegWrite := []
  trap : Option LaneTrap := none
  lines : List Nat := []
  waits : Bool := false
  deriving DecidableEq, Repr

/-- One lane's step on its captured window (R383, R385). -/
def State.travLane (s : State) (w : Warp) (i : Instr) (k : Nat) (v : LaneVals) : LaneRead :=
  match s.ctx? w.ctx with
  | none => {}
  | some c =>
    match s.travLoop w c (s.noAlpha w) 512 { x := Trav.ofWords v.b, peer := k } with
    | .owned => { waits := true }
    | .trap r code faddr => { trap := some { lane := v.lane, code := code, faddr := faddr }, lines := r.lines }
    | .done r ev areq key t u v' last =>
      { ws := dstWrites v.lane i.operands.b r.x.words ++ dstWrites v.lane i.operands.d (candidateWords r ev areq key t u v' last)
        lines := r.lines }

/-- One lane's sample on its captured operands (R390). -/
def State.texLane (s : State) (w : Warp) (i : Instr) (k : Nat) (v : LaneVals) : LaneRead :=
  let n (k : Nat) : Nat := (v.a.getD k 0).toNat
  match s.ctx? w.ctx with
  | none => {}
  | some c =>
    if !(s.ownedLines w false v.b0.toNat 32).isEmpty then { waits := true }
    else
      match s.sampleTexture w c (s.texDesc w v.b0.toNat) k (n 0) (n 1) (n 2) with
      | .owned => { waits := true }
      | .trap t a _ p => { trap := some { lane := v.lane, code := t, faddr := a }, lines := p }
      | .ok ws p => { ws := dstWrites v.lane i.operands.d (ws.map (BitVec.ofNat 32)), lines := p }

/-- The pages of lines that a warp has read are held (R429), and its core's texture and node cache takes the lines in. -/
def State.holdLines (s : State) (w : Warp) (lines : List Nat) : State :=
  let s1 := ((lines.map (· / 512)).eraseDups).foldl (fun s p => s.holdEntry w.ctx (p * 2 ^ 16)) s
  match s1.ctx? w.ctx with
  | none => s1
  | some c => s1.takeLines w.die w.core w.ctx (s1.physLines c .read (lines.map (128 * ·)))

/-- Finish a record whose lanes have each answered. In a halted context a fault is not reported: the record stays, and waits
for nothing (R443). -/
def State.finishLanes (s : State) (w : Warp) (r : Record) (rs : List LaneRead) : State :=
  let ts := rs.filterMap (·.trap)
  let s1 := s.holdLines w (rs.flatMap (·.lines))
  let s2 := if ts.isEmpty then s1 else s1.trapLanes w r ts
  if !ts.isEmpty && s.halted w then s1.rewait w.wid r.seq .nothing
  else if r.lanes.all (fun l => ts.any (fun t => t.lane == l)) then s2 else s2.ready w.wid r.seq (rs.flatMap (·.ws))

/-- TRAVERSAL_READ_COMPLETE (R383 to R385): the lanes that fault find the traversal window as it stood before the step. -/
def State.traversalComplete (s : State) (w : Warp) (r : Record) : State :=
  match r.wait, r.instr with
  | .traversal, some i =>
    let rs := r.vals.map (fun v => s.travLane w i (s.peerBase + 2 ^ 16 * v.lane) v)
    let back := (rs.zip r.vals).flatMap (fun x => if x.1.trap.isSome then dstWrites x.2.lane i.operands.b x.2.b else [])
    if rs.any (·.waits) then s
    else
      let t := (s.takeFresh (2 ^ 21)).2.finishLanes w r rs
      if s.halted w then t else t.writeRegs w.wid (back.filter (fun x => !r.exempt.contains x.reg))
  | _, _ => s

/-- TEXTURE_SAMPLE_COMPLETE (R390). -/
def State.textureComplete (s : State) (w : Warp) (r : Record) : State :=
  match r.wait, r.instr with
  | .texture, some i =>
    let rs := r.vals.map (fun v => s.texLane w i (s.peerBase + 64 * v.lane) v)
    if rs.any (·.waits) then s else (s.takeFresh (2 ^ 11)).2.finishLanes w r rs
  | _, _ => s

/-- `trv.init` (R379). -/
def execTrvInit (o : Operands) (s : State) :=
  issue (.trvInit o) s (fun e s => s.writeDst e.c.wid e.p e.o.d (fun l =>
    let ctl := e.o.mods 0 5 * 2 ^ 6 + (if e.o.modBit 5 then 2 ^ 11 else 0)
    e.words s 8 false e.o.a l ++ vaWords (vaOf (e.words s 3 true e.o.b l)) ++
      [BitVec.ofNat 32 ctl, 0x40000000, 0xFFFFFFFF, 0xFFFFFFFF, 0xFFFFFFFF, 0, 0]))

/-- A lane's traversal window as it stands, the stack registers in use included. -/
def Env.window (e : Env) (x : Operand) (l : Nat) : List Word :=
  match x with
  | .reg b =>
    (regRange b (18 + travCap ((e.w.lane l).reg (b + 11)) b e.w.footprint)).map (fun n => (e.w.lane l).reg n)
  | _ => []

/-- `trv.step` (R383, R385): lanes whose traversal has ended answer at once, the others suspend. -/
def execTrvStep (o : Operands) (s : State) :=
  issue (.trvStep o) s (fun e s =>
    let vs := e.p.map (fun l => ({ lane := l, a := [], b := e.window e.o.b l, c := [], d := [] } : LaneVals))
    let idle (v : LaneVals) : Bool :=
      let x := Trav.ofWords v.b
      x.fin || (x.cur == 0 && x.depth == 0)
    let go := vs.filter (fun v => !idle v)
    let s1 := s.writeRegs e.c.wid ((vs.filter idle).flatMap (fun v => (s.travLane e.w e.i 0 v).ws))
    if go.isEmpty then s1
    else s1.suspend e { lanes := go.map (·.lane), wait := .traversal, ls := e.o.ls, vals := go })

/-- `trv.hit` (R386). -/
def execTrvHit (o : Operands) (s : State) :=
  issue (.trvHit o) s (fun e s =>
    s.writeRegs e.c.wid (e.p.flatMap (fun l =>
      let x := Trav.ofWords (e.window e.o.d l)
      let c := (e.words s 8 false e.o.a l).map (·.toNat)
      let key := (c.drop 1).take 3
      let h : TriHit := ⟨coord c 4, coord c 5, coord c 6⟩
      if leF x.tmin h.t && leF h.t x.tmax && x.improves h.t key then
        dstWrites l e.o.d ((x.commit h key).words.take 18)
      else [])))

/-- edge of R388. -/
def probeEdge (x y : Nat) (a b : List Nat) : Nat :=
  fmaRn (addRn (coord b 0) (negF (coord a 0))) (addRn y (negF (coord a 1)))
    (negF (mulRn (addRn (coord b 1) (negF (coord a 1))) (addRn x (negF (coord a 0)))))

/-- One entry of a probe list (R387, R388) against the best words so far: depth, id, user word. -/
def probeEntry (x y : Nat) (best : List Nat) (bs : List Byte) : List Nat :=
  let v (j : Nat) : List Nat := (List.range 3).map (fun c => fieldOf bs (12 * j + 4 * c) 4)
  let w0 := probeEdge x y (v 1) (v 2)
  let w1 := probeEdge x y (v 2) (v 0)
  let w2 := probeEdge x y (v 0) (v 1)
  let ar := addRn (addRn w0 w1) w2
  if (ltF 0 ar && leF 0 w0 && leF 0 w1 && leF 0 w2) || (ltF ar 0 && leF w0 0 && leF w1 0 && leF w2 0) then
    let z := divRn (fmaRn w2 (coord (v 2) 2) (fmaRn w1 (coord (v 1) 2) (mulRn w0 (coord (v 0) 2)))) ar
    if ltF z (coord best 0) then [z, fieldOf bs 36 4, fieldOf bs 40 4] else best
  else best

/-- Entries of a probe list that a lane reads next: cursor and number (R388). -/
def State.probeRange (s : State) (w : Warp) (off k : Nat) : Nat × Nat :=
  let n := (s.spaceWord (.spad w.die) (s.spaceAddr w false off)).toNat
  (k, min (k + 4) n - k)

/-- n bytes of a probe list lie outside the window or inside the spill area, at either level (R388): the trap and the first
such byte. -/
def State.listTrap (s : State) (w : Warp) (o n : Nat) : Option (Nat × Nat) :=
  match s.ctx? w.ctx with
  | none => some (0x10, o)
  | some c => if c.windowOk w.die o n false then none else some (0x10, c.firstBad w.die o n false)

/-- The trap of a lane's list word (R388): code and byte. -/
def State.listWordTrap (s : State) (w : Warp) (off : Nat) : Option (Nat × Nat) :=
  if (s.listTrap w off 4).isSome then s.listTrap w off 4 else if off % 16 != 0 then some (0x12, off) else none

/-- The trap of the entries that a lane reads, by the list word as it has read it (R388). -/
def State.entryTrap (s : State) (w : Warp) (off k : Nat) : Option (Nat × Nat) :=
  let r := s.probeRange w off k
  (List.range r.2).findSome? (fun j => s.listTrap w (off + 16 + 48 * (r.1 + j)) 48)

/-- The traps that a test gives lanes. -/
def laneTraps (f : LaneVals → Option (Nat × Nat)) (vs : List LaneVals) : List LaneTrap :=
  vs.filterMap (fun v => (f v).map (fun t => { lane := v.lane, code := t.1, faddr := t.2 }))

/-- The probe of given lanes (R388): owned and missing lines are waited for, the list words' first. -/
def probeTry (i : Instr) (s : State) (w : Warp) (vs : List LaneVals) : Try :=
  let k (v : LaneVals) : Nat := (v.d.headD 0).toNat
  let bad0 := laneTraps (fun v => s.listWordTrap w v.b0.toNat) vs
  let lists := vs.filter (fun v => (s.listWordTrap w v.b0.toNat).isNone)
  let ks0 := s.blockers w false 4 (lists.map (fun v => v.b0.toNat))
  let ms0 := s.missing w 4 (lists.map (fun v => v.b0.toNat))
  let bad := bad0 ++ laneTraps (fun v => s.entryTrap w v.b0.toNat (k v)) lists
  let good := lists.filter (fun v => (s.entryTrap w v.b0.toNat (k v)).isNone)
  let entries (v : LaneVals) : List Nat :=
    let r := s.probeRange w v.b0.toNat (k v)
    (List.range r.2).map (fun j => v.b0.toNat + 16 + 48 * (r.1 + j))
  let ks := s.blockers w false 48 (good.flatMap entries)
  let ms := s.missing w 48 (good.flatMap entries)
  if !ks0.isEmpty then { s := s, wait := some (.lines ks0), traps := bad0 }
  else if !ms0.isEmpty then { s := s, wait := some (.fill ms0), traps := bad0 }
  else if !ks.isEmpty then { s := s, wait := some (.lines ks), traps := bad }
  else if !ms.isEmpty then { s := s, wait := some (.fill ms), traps := bad }
  else
    { s := s, traps := bad
      ws := good.flatMap (fun v =>
        let n := (s.spaceWord (.spad w.die) (s.spaceAddr w false v.b0.toNat)).toNat
        let best := (entries v).foldl (fun best o =>
          probeEntry (v.a.getD 0 0).toNat (v.a.getD 1 0).toNat best (s.spaceBytes (.spad w.die) (s.spaceAddr w false o) 48))
          ((v.d.drop 1).take 3 |>.map (·.toNat))
        let next := k v + (s.probeRange w v.b0.toNat (k v)).2
        dstWrites v.lane i.operands.d
          ([BitVec.ofNat 32 next] ++ best.map (BitVec.ofNat 32) ++ [BitVec.ofNat 32 (n - next)])) }

/-- A probe or query whose accesses were tried (R388, R391). -/
def State.completeTraps (s : State) (e : Env) (vs : List LaneVals) (t : Try) : State :=
  let lanes := (vs.map (·.lane)).filter (fun l => !t.traps.any (fun x => x.lane == l))
  let s1 := if lanes.isEmpty then s
    else s.complete e { lanes := lanes, wait := .nothing, ls := e.o.ls, vals := vs.filter (fun v => lanes.contains v.lane) } t
  s1.raise e t.traps

/-- `prb.step` (R388). -/
def execPrbStep (o : Operands) (s : State) :=
  issue (.prbStep o) s (fun e s =>
    let vs := e.p.map (e.valsOf s 2 1 0 5)
    s.completeTraps e vs (probeTry e.i s e.w vs))

/-- Lanes whose descriptor offset fails R390. -/
def State.texBad (s : State) (e : Env) : List LaneTrap :=
  (e.p.filter (fun l => s.texTrap e.w (e.b s l).toNat != 0)).map (fun l =>
    { lane := l, code := s.texTrap e.w (e.b s l).toNat, faddr := (e.b s l).toNat })

/-- `tex.smp` (R390). -/
def execTexSmp (o : Operands) (s : State) :=
  issue (.texSmp o) s (fun e s =>
    let bad := s.texBad e
    let good := e.p.filter (fun l => !bad.any (fun t => t.lane == l))
    let s1 := if good.isEmpty then s
      else s.suspend e { lanes := good, wait := .texture, ls := e.o.ls, vals := good.map (e.valsOf s 3 1 0 0) }
    s1.raise e bad)

/-- tex.qry in given lanes (R391). -/
def texQryTry (i : Instr) (s : State) (w : Warp) (vs : List LaneVals) : Try :=
  let offs := vs.map (fun v => v.b0.toNat)
  let ks := s.blockers w false 32 offs
  let ms := s.missing w 32 offs
  if !ks.isEmpty then { s := s, wait := some (.lines ks) }
  else if !ms.isEmpty then { s := s, wait := some (.fill ms) }
  else
    { s := s
      ws := vs.flatMap (fun v =>
        let d := s.texDesc w v.b0.toNat
        let l := min v.a0.toNat d.last
        dstWrites v.lane i.operands.d (if d.bad then [0, 0, 0]
          else [BitVec.ofNat 32 (d.widthAt l), BitVec.ofNat 32 (d.heightAt l), BitVec.ofNat 32 (d.last + 1)])) }

/-- `tex.qry` (R391). -/
def execTexQry (o : Operands) (s : State) :=
  issue (.texQry o) s (fun e s =>
    let bad := s.texBad e
    let vs := (e.p.filter (fun l => !bad.any (fun t => t.lane == l))).map (e.valsOf s 1 1 0 0)
    s.completeTraps e (e.p.map (e.valsOf s 1 1 0 0)) { texQryTry e.i s e.w vs with traps := bad })

/-- `tru.sort` (R392): the lanes wait as fence.c with mask 0xFF does, then at the sort phase. -/
def execTruSort (o : Operands) (s : State) :=
  issue (.truSort o) s (fun e s =>
    let ops := s.ops.filter (fun x => x.wid == e.c.wid)
    let vs := e.p.map (e.valsOf s 0 1 0 0)
    let x : Suspension := { lanes := e.p, wait := .sortPhase, ls := e.o.ls, vals := vs }
    if e.p.isEmpty then s
    else if e.w.sps != 0x400 then s.raiseAll e e.p 0x13 0 0
    else
      match ops.find? (fun x => x.fault.isSome) with
      | some op => s.reportFault e e.p op
      | none =>
        if ops.all (·.complete) then
          (match s.suspend? e x with
           | some _ => (s.foldOps (ops.map (·.oid))).suspend e x
           | none => s.raiseAll e e.p 0x20 0 0)
        else s.suspend e { x with wait := .sortFence (ops.map (·.oid)) })

/-- A lane that has arrived at the sort phase: its record, its key, its warp. -/
structure Arrival where
  key : Nat
  warp : Nat
  lane : Nat
  r : Record
  save : LaneSave
  deriving DecidableEq, Repr

/-- The arrivals of a block's sort phase in rank order (R393). -/
def State.arrivals_ (s : State) (bid : Nat) : List Arrival :=
  let ws := s.warps.filter (fun w => w.block == some bid)
  let xs := ws.flatMap (fun w => (w.records.filter (fun r => r.state == .waiting && r.wait == .sortPhase)).flatMap (fun r =>
    r.saved.map (fun v =>
      { key := ((r.vals.find? (fun x => x.lane == v.lane)).map (·.b0.toNat)).getD 0
        warp := w.index, lane := v.lane, r := r, save := v })))
  sortBy (fun a b => lexLt [a.key, a.warp, a.lane] [b.key, b.warp, b.lane]) xs

/-- Every lane of a block that has not ended has arrived (R392). -/
def State.sortReady (s : State) (bid : Nat) : Bool :=
  let n := (s.arrivals_ bid).length
  n != 0 && n == s.blockLanes bid

/-- SORT_PHASE_COMPLETE (R393): lanes move to their new warps in ready records, one for each site. DESIGN CHOICE (assumption
log 31): it waits until each of them has a place (R221). -/
def State.sortComplete (s : State) (bid : Nat) : State :=
  let xs := s.arrivals_ bid
  let hold (w : Warp) : Bool := w.block == some bid && w.records.any (fun r => r.state == .waiting && r.wait == .sortPhase)
  let targets := (sortBy (fun a b => decide (a < b)) ((s.warps.filter hold).map (·.index))).take ((xs.length + 31) / 32)
  let clear (w : Warp) : Warp :=
    if hold w then
      { w with records := w.records.filter (fun r => !(r.state == .waiting && r.wait == .sortPhase))
               lanes := w.lanes.map (fun x => { x with st := .ended }) }
    else w
  let s1 := { s with warps := s.warps.map clear }
  let place (acc : Option State) (t : Nat) : Option State :=
    let ys := (xs.drop (32 * t)).take 32
    let moved := (List.range ys.length).filterMap (fun l => (ys[l]?).map (fun y => (l, y)))
    let sites := (moved.map (fun m => (m.2.r.pc, m.2.r.half, m.2.r.opc, m.2.r.instr))).eraseDups
    match s1.warps.find? (fun w => w.block == some bid && w.index == targets.getD t 0) with
    | none => acc
    | some w =>
      sites.foldl (fun acc site => acc.bind (fun s =>
        let ms := moved.filter (fun m => (m.2.r.pc, m.2.r.half, m.2.r.opc, m.2.r.instr) == site)
        let live := (ms.head?.map (fun m => m.2.r.live)).getD []
        let size := 320 + 128 * live.length
        let d := ((site.2.2.2).map (·.operands.d)).getD (.spc .zero)
        let now := (s.die w.die).clkr
        (s.findRoom w size).map (fun room => (s.addRecord w.wid (fun n =>
          { seq := n, state := .ready, lanes := ms.map (·.1), pc := site.1, half := site.2.1, opc := site.2.2.1
            ls := (ms.head?.map (fun m => m.2.r.ls)).getD 0, who := s.whoOf w, blk := BitVec.ofNat 32 w.blockIdx, live := live
            saved := ms.map (fun m => { m.2.save with lane := m.1 })
            place := room, size := size, suspendedAt := now, readyAt := now
            results := ms.flatMap (fun m => dstWrites m.1 d [BitVec.ofNat 32 (m.2.warp * 32 + m.2.lane)]) })).modLanes
          w.wid (ms.map (·.1)) (fun x =>
            { x with st := .suspended, pc := site.1, half := site.2.1, repc := 0, passed := 0, starved := false })))) acc
  ((List.range targets.length).foldl place (some s1)).getD s

end Sys2Proof.Machine
end

