-- ==== Sys2Proof/Machine/Combine.lean ====
section
/-! DEFINITION. The Combine Unit (spec/18_combine_unit.md R394 to R409). -/

namespace Sys2Proof.Machine

/-- A slot of a die; one that was never allocated is free with sequence number 0 (R394). -/
def State.slot (s : State) (die k : Nat) : CmbSlot := ((s.die die).slots.find? (fun x => x.slot == k)).getD { slot := k }

/-- Replace a slot. -/
def State.setSlot (s : State) (die : Nat) (x : CmbSlot) : State :=
  s.modDie die (fun d => { d with slots := x :: d.slots.filter (fun y => y.slot != x.slot) })

/-- The lowest free slot from k on (Table 18.4). -/
def State.freeSlotFrom (s : State) (die : Nat) : Nat → Nat → Option Nat
  | 0, _ => none
  | n + 1, k => if (s.slot die k).state == .free then some k else s.freeSlotFrom die n (k + 1)

/-- Free slots of a die (R407). -/
def State.slotsFree (s : State) (die : Nat) : Nat :=
  Config.combineSlots - ((s.die die).slots.filter (fun x => x.state != .free)).length

/-- A handle of a slot (R394). -/
def slotHandle (die : Nat) (x : CmbSlot) : Nat := x.seq * 2 ^ 14 + die * 2 ^ 13 + x.slot

/-- The slot that a handle names, with its die, when it is live for a context (R394). -/
def State.liveSlot (s : State) (ctx h : Nat) : Option (Nat × CmbSlot) :=
  let die := h / 2 ^ 13 % 2
  let x := s.slot die (h % 2 ^ 13)
  if x.state != .free && x.seq == h / 2 ^ 14 && x.ctx == ctx then some (die, x) else none

/-- Fields of an allocation descriptor (Table 18.1). -/
def caCtl (d : List Byte) : Nat := fieldOf d 46 1
def caNexp (d : List Byte) : Nat := caCtl d % 8 + 1
def caWidth (d : List Byte) : Nat := fieldOf d 44 2
def caExperts (d : List Byte) : List Nat := (List.range (caNexp d)).map (fun k => fieldOf d (4 + k) 1)
def caOfmt (d : List Byte) : Nat := caCtl d / 2 ^ 4 % 4
def caCw (d : List Byte) : Bool := bitOf (caCtl d) 6

/-- Bytes of an output element (R395). -/
def outBytes (ofmt : Nat) : Nat := if ofmt == 0 then 4 else 2

/-- The reason for which a descriptor is rejected, 0 for none (R396). -/
def caReason (d : List Byte) : Nat :=
  let n := caNexp d
  let unused := (List.range (8 - n)).any (fun j => fieldOf d (4 + n + j) 1 != 0 || fieldOf d (12 + 4 * (n + j)) 4 != 0)
  if caOfmt d == 3 || unused then 1
  else if caWidth d == 0 || 8192 < caWidth d then 2
  else if (caExperts d).eraseDups.length != n then 3
  else 0

/-- Regions of a descriptor: window offset and length of output, staging and completion word (R395). -/
def caRegions (d : List Byte) : List (Nat × Nat) :=
  [(fieldOf d 48 4, caWidth d * outBytes (caOfmt d)), (fieldOf d 52 4, caNexp d * caWidth d * 4)] ++
    (if caCw d then [(fieldOf d 56 4, 4)] else [])

/-- Rows 4 and 5 of Table 18.4: the trap with its FADDR. -/
def State.caTrap (s : State) (w : Warp) (d : List Byte) : Option (Nat × Nat) :=
  let bad := ([(fieldOf d 48 4, 16), (fieldOf d 52 4, 16)] ++ (if caCw d then [(fieldOf d 56 4, 4)] else [])).find?
    (fun (x : Nat × Nat) => x.1 % x.2 != 0)
  match (caRegions d).findSome? (fun x => s.rangeTrap w false x.1 x.2), bad with
  | some t, _ => some t
  | none, some x => some (0x12, x.1)
  | none, none => none

/-- Lines of a slot's output and staging regions (R400). -/
def CmbSlot.lines (x : CmbSlot) (die : Nat) : List LineKey :=
  (spaceLines (.spad die) (x.base + x.out) (x.width * outBytes (x.ctl / 2 ^ 4 % 4)) ++
    spaceLines (.spad die) (x.base + x.stage) (x.experts.length * x.width * 4)).eraseDups

/-- Grant a slot (R394, R400): it becomes open and asks for its lines. It answers the handle. -/
def State.grantSlot (s : State) (w : Warp) (k : Nat) (d : List Byte) : Nat × State :=
  let old := s.slot w.die k
  let seq := (old.seq + 1) % 2 ^ 18
  let dl := fieldOf d 47 1
  let x : CmbSlot :=
    { slot := k, state := .opened, seq := if seq == 0 then 1 else seq, ctx := w.ctx, token := fieldOf d 0 4
      experts := caExperts d, gates := (List.range (caNexp d)).map (fun j => BitVec.ofNat 32 (fieldOf d (12 + 4 * j) 4))
      width := caWidth d, ctl := caCtl d, group := dl / 2 ^ 5, base := s.spaceAddr w false 0
      out := fieldOf d 48 4, stage := fieldOf d 52 4, cwoff := fieldOf d 56 4, cwval := fieldOf d 60 4
      deadline := if dl % 32 == 31 then none else some ((s.die w.die).clkr + 2 ^ (dl % 32)) }
  (slotHandle w.die x, (s.setSlot w.die x).own (.slot w.die k) (x.lines w.die))

/-- Allocations that wait on a die, in the order of their grants (R399): those of one cycle by core, warp and SEQ. -/
def State.slotWaiters (s : State) (die : Nat) : List (Warp × Record) :=
  sortBy (fun x y => recordLt [x.2.suspendedAt, x.1.core, x.1.index] [y.2.suspendedAt, y.1.core, y.1.index] x.2.seq y.2.seq)
    (s.waiters (fun w r => w.die == die && (match r.wait with
      | .slot _ => true
      | _ => false)))

/-- Grant free slots to waiting allocations (R399), each under the registers with which it was issued (R31); one whose block is switched out holds back those behind it
(R437). The first argument bounds the grants. -/
def State.grantWaiters (s : State) (die : Nat) : Nat → State
  | 0 => s
  | n + 1 =>
    match s.freeSlotFrom die Config.combineSlots 0, s.slotWaiters die with
    | some k, x :: _ =>
      if !x.1.resident then s
      else
        match x.2.wait with
        | .slot d =>
          let h := BitVec.ofNat 32 (s.grantSlot x.1 k d).1
          let dst := (x.2.instr.map (·.operands.d)).getD (.spc .zero)
          let s1 := s.under x.1.ctx x.2.old (fun s => (s.grantSlot x.1 k d).2)
          (s1.ready x.1.wid x.2.seq (x.2.lanes.flatMap (fun l => dstWrites l dst [h, 0]))).grantWaiters die n
        | _ => s
    | _, _ => s

/-- `cmb.alloc` (R398, Table 18.4). -/
def execCmbAlloc (o : Operands) (s : State) :=
  issue (.cmbAlloc o) s (fun e s =>
    let off := (e.b s e.elected).toNat
    let early := lowestTrap [((s.rangeTrap e.w false off 64).isSome, 0x10), (off % 64 != 0, 0x12)]
    let ks := s.ownedLines e.w false off 64
    if e.p.isEmpty then s
    else if early != 0 then s.raiseAll e e.p early off 0
    else if !ks.isEmpty then s.suspendBefore e ks []
    else
      let d := s.spaceBytes (.spad e.w.die) (s.spaceAddr e.w false off) 64
      if caReason d != 0 then s.answer e [BitVec.ofNat 32 (0xFFFFFF00 + caReason d), 0]
      else
        match s.caTrap e.w d with
        | some t => s.raiseAll e e.p t.1 t.2 0
        | none =>
          match s.freeSlotFrom e.w.die Config.combineSlots 0, (s.slotWaiters e.w.die).isEmpty with
          | some k, true =>
            let g := s.grantSlot e.w k d
            g.2.answer e [BitVec.ofNat 32 g.1, 0]
          | _, _ =>
            if !e.o.modBit 0 || e.o.tmo == 0 then s.answer e [0, 2]
            else s.suspend e { lanes := e.p, wait := .slot d, ls := e.o.ls, tmo := e.o.tmo, event := off
                               results := e.p.flatMap (fun l => dstWrites l e.o.d [0]) })

/-- DROP of a die is increased (Table 18.6). -/
def State.countDrop (s : State) (die : Nat) : State := s.modDie die (fun d => { d with cmbDrop := d.cmbDrop + 1 })

/-- `cmb.put` (R401). -/
def execCmbPut (o : Operands) (s : State) :=
  issue (.cmbPut o) s (fun e s =>
    let h := (e.b s e.elected).toNat
    let a := e.words s 2 true e.o.a e.elected
    let src := (a.getD 0 0).toNat
    let pw := (a.getD 1 0).toNat
    let width := pw / 2 ^ 8 % 2 ^ 14
    let f16 := e.o.modBit 0
    let range := if width == 0 then none else s.rangeTrap e.w false src (width * (if f16 then 2 else 4))
    let p : PutOp := { handle := h, source := s.spaceAddr e.w false src, expert := pw % 256, width := width, f16 := f16 }
    let op : EngineOp :=
      { oid := s.nextId, die := e.w.die, core := e.w.core, ctx := e.w.ctx, wid := e.c.wid, block := e.w.block
        colour := e.o.col, kind := .put p
        sources := [⟨some (.spad e.w.die), p.source, width * (if f16 then 2 else 4)⟩] }
    let s1 := { s with nextId := s.nextId + 1, ops := s.ops ++ [op] }
    if e.p.isEmpty then s
    else
      match range with
      | some t => s.raiseAll e e.p t.1 t.2 0
      | none =>
        if src % 16 != 0 then s.raiseAll e e.p 0x12 src 0
        else if width == 0 || 8192 < width || pw / 2 ^ 22 != 0 then (s1.countDrop e.w.die).retire op
        else s1)

/-- The status word of a slot (Table 18.5). -/
def SlotState.code : SlotState → Nat
  | .free => 0
  | .opened => 1
  | .closed => 2
  | .released => 3
def CmbSlot.word (x : CmbSlot) : Word :=
  BitVec.ofNat 32 (x.sub * 2 ^ 24 + x.arr * 2 ^ 16 + x.late * 2 ^ 8 + x.state.code)

/-- `cmb.stat` (R407). -/
def execCmbStat (o : Operands) (s : State) :=
  issue (.cmbStat o) s (fun e s =>
    if e.p.isEmpty then s
    else
      match e.o.mods 0 2 with
      | 0 =>
        (match s.liveSlot e.w.ctx (e.b s e.elected).toNat with
         | some x => s.answer e [if x.1 == e.w.die then x.2.word else 0]
         | none => s.answer e [0])
      | 1 => s.answer e [(s.die e.w.die).cmbDrop]
      | _ => s.answer e [BitVec.ofNat 32 (s.slotsFree e.w.die)])

/-- Puts that landed in a slot and have not arrived: their handle names it. -/
def State.landing (s : State) (h : Nat) : List (EngineOp × PutOp) :=
  s.ops.filterMap (fun o => match o.kind with
    | .put p => if p.handle == h && p.landing.isSome && !o.complete then some (o, p) else none
    | _ => none)

/-- Bytes of a source element of a put. -/
def PutOp.size (p : PutOp) : Nat := if p.f16 then 2 else 4

/-- The f32 words of a put, read now or already (R401, R239). -/
def State.putWords (s : State) (o : EngineOp) (p : PutOp) : List Nat :=
  let bs := s.sourceBytes o (.spad o.die) p.source (p.width * p.size)
  (List.range p.width).map (fun j => if p.f16 then fmtF16.widen (fieldOf bs (2 * j) 2) else fieldOf bs (4 * j) 4)

/-- The bytes a put had written when its slot closed or was freed: any of them that it could read (R402, R238,
Config.byteSent). -/
def State.cutPut (s0 : State) (die : Nat) (x : CmbSlot) (op : EngineOp × PutOp) : State :=
  let bs := (s0.putWords op.1 op.2).flatMap (natToBytes 4)
  let start := x.base + x.stage + 4 * x.width * (op.2.landing.getD 0)
  let complete := (x.lines die).all (fun k => s0.owns (.slot die x.slot) k)
  if !complete then s0
  else (List.range bs.length).foldl (fun s i =>
    if s0.sourceReady op.1 (.spad op.1.die) (op.2.source + i / 4 * op.2.size) op.2.size &&
        Config.byteSent (op.1.oid * 2 ^ 40 + i) then s.spaceWrite (.spad die) (start + i) [bs.getD i 0] none else s) s0

/-- A slot closes (R404): SUB names the absent positions, and puts that have landed and not arrived are late (R402). -/
def State.closeSlot (s : State) (die : Nat) (x : CmbSlot) : State :=
  let all := 2 ^ x.experts.length - 1
  let late := s.landing (slotHandle die x)
  let s1 := late.foldl (fun s op => ((s.cutPut die x op).countDrop die).retire op.1) s
  s1.setSlot die { x with state := .closed, sub := all - x.arr, late := min 255 (x.late + late.length) }

/-- Cancel or free a slot (R408, R409): its lines are released and its landing puts are dropped. -/
def State.freeSlot (s : State) (die : Nat) (x : CmbSlot) : State :=
  let late := if x.state == .opened then s.landing (slotHandle die x) else []
  let s1 := late.foldl (fun s op => ((s.cutPut die x op).countDrop die).retire op.1) s
  (s1.releaseLines (.slot die x.slot) (s1.linesOfOwner (.slot die x.slot))).setSlot die { slot := x.slot, seq := x.seq }

/-- `cmb.free` (R408): a freed slot is granted at once to a waiting allocation. -/
def execCmbFree (o : Operands) (s : State) :=
  issue (.cmbFree o) s (fun e s =>
    if e.p.isEmpty then s
    else
      match s.liveSlot e.w.ctx (e.b s e.elected).toNat with
      | some x =>
        if x.1 == e.w.die then ((s.freeSlot e.w.die x.2).answer e [0]).grantWaiters e.w.die 1 else s.answer e [1]
      | none => s.answer e [1])

/-- A slot's lines are all its own (R400). -/
def State.slotHasLines (s : State) (die : Nat) (x : CmbSlot) : Bool :=
  (x.lines die).all (fun k => s.owns (.slot die x.slot) k)

/-- Earlier puts of the same warp to the same die, that a put stays behind (R403). -/
def State.putAhead (s : State) (o : EngineOp) (p : PutOp) : List PutOp :=
  (s.ops.takeWhile (fun x => x.oid != o.oid)).filterMap (fun x => match x.kind with
    | .put q => if x.wid == o.wid && !x.complete && q.handle / 2 ^ 13 % 2 == p.handle / 2 ^ 13 % 2 then some q else none
    | _ => none)

/-- PUT_FIRST_BYTE (R402, Table 18.6): the put has read its first source element, whose line no other owns (R238). -/
def State.putFirst (s : State) (o : EngineOp) (p : PutOp) : State :=
  let die := p.handle / 2 ^ 13 % 2
  let drop : State := (s.countDrop die).retire o
  if p.landing.isSome || o.complete || (s.putAhead o p).any (fun q => q.landing.isNone) ||
      !s.sourceReady o (.spad o.die) p.source p.size then s
  else
    match s.liveSlot o.ctx p.handle with
    | none => drop
    | some (_, x) =>
      if x.state != .opened then drop.setSlot die { x with late := min 255 (x.late + 1) }
      else if p.width != x.width then drop
      else
        match x.experts.idxOf? p.expert with
        | none => drop
        | some k =>
          if bitOf x.arr k || (s.landing p.handle).any (fun y => y.2.landing == some k) then drop
          else s.modOp o.oid (fun y => { y with kind := .put { p with landing := some k } })

/-- PUT_ARRIVAL (R402, R403, R404): its words are in staging and its bit of ARR is set; a full slot closes. -/
def State.putArrive (s : State) (o : EngineOp) (p : PutOp) : State :=
  let die := p.handle / 2 ^ 13 % 2
  match p.landing, s.liveSlot o.ctx p.handle with
  | some k, some (_, x) =>
    let free := s.sourceReady o (.spad o.die) p.source (p.width * p.size)
    if x.state != .opened || o.complete || !s.slotHasLines die x || !free || !(s.putAhead o p).isEmpty then s
    else
      let bs := (s.putWords o p).flatMap (natToBytes 4)
      let s1 := s.spaceWrite (.spad die) (x.base + x.stage + 4 * x.width * k) bs none
      let y := { x with arr := x.arr ||| 2 ^ k }
      let s2 := (s1.setSlot die y).retire o
      if y.arr == 2 ^ x.experts.length - 1 then s2.closeSlot die y else s2
  | _, _ => s

/-- An open slot has reached its deadline. -/
def State.deadlineDue (s : State) (die : Nat) (x : CmbSlot) : Bool :=
  x.state == .opened && (match x.deadline with
    | some t => decide (t ≤ (s.die die).clkr)
    | none => false)

/-- COMBINE_DEADLINE (R404). -/
def State.slotDeadline (s : State) (die k : Nat) : State :=
  let x := s.slot die k
  if s.deadlineDue die x then s.closeSlot die x else s

/-- The staged word of position k, element j. -/
def State.staged (s : State) (die : Nat) (x : CmbSlot) (k j : Nat) : Nat :=
  (s.spaceWord (.spad die) (x.base + x.stage + 4 * (x.width * k + j))).toNat

/-- Positions that arrived, in ascending expert index (R405). -/
def CmbSlot.arrived (x : CmbSlot) : List Nat :=
  sortBy (fun a b => decide (x.experts.getD a 0 < x.experts.getD b 0)) ((List.range x.experts.length).filter (bitOf x.arr))

/-- Gates of the arrived positions, renormalised where the slot asks for it (R405). -/
def CmbSlot.weights (x : CmbSlot) : List (Nat × Nat) :=
  let a := x.arrived
  let g (k : Nat) : Nat := (x.gates.getD k 0).toNat
  match a with
  | [] => []
  | k :: ks =>
    if bitOf x.ctl 3 && x.sub != 0 then
      let sg := ks.foldl (fun acc k => addRn acc (g k)) (g k)
      a.map (fun k => (k, divRn (g k) sg))
    else a.map (fun k => (k, g k))

/-- An output element in OFMT (R405). -/
def CmbSlot.encode (x : CmbSlot) (v : Nat) : List Byte :=
  let f := match x.ctl / 2 ^ 4 % 4 with
    | 1 => fmtF16
    | _ => fmtBf16
  if x.ctl / 2 ^ 4 % 4 == 0 then natToBytes 4 v else natToBytes 2 (f.convert rmRn false 0 (fmtF32.decode v)).bits

/-- Output element j (R405). -/
def State.combined (s : State) (die : Nat) (x : CmbSlot) (j : Nat) : Nat :=
  match x.weights with
  | [] => 0
  | g :: gs => gs.foldl (fun acc h => fmaRn h.2 (s.staged die x h.1 j) acc) (mulRn g.2 (s.staged die x g.1 j))

/-- A closed slot may be released (R406). -/
def State.releasable (s : State) (die : Nat) (x : CmbSlot) : Bool :=
  x.state == .closed && s.slotHasLines die x &&
    (!bitOf x.ctl 7 || !(s.die die).slots.any (fun y =>
      (y.state == .opened || y.state == .closed) && y.ctx == x.ctx && y.group == x.group && decide (y.token < x.token)))

/-- A slot is the next to be released: after the deadlines of the cycle (R404), in ascending TOKEN and slot number
(R406). -/
def State.releaseTurn (s : State) (die : Nat) (x : CmbSlot) : Bool :=
  let ys := (s.die die).slots
  s.releasable die x && !ys.any (s.deadlineDue die) &&
    !ys.any (fun y => s.releasable die y && lexLt [y.token, y.slot] [x.token, x.slot])

/-- The output bytes of a slot (R405). -/
def State.slotOutput (s : State) (die : Nat) (x : CmbSlot) : List Byte :=
  (List.range x.width).flatMap (fun j => x.encode (s.combined die x j))

/-- COMBINE_RELEASE (R405, R406): output, lines, completion word. -/
def State.slotRelease (s : State) (die k : Nat) : State :=
  let x := s.slot die k
  if s.releaseTurn die x then
    let bs := s.slotOutput die x
    let s1 := s.spaceWrite (.spad die) (x.base + x.out) bs none
    let s2 := s1.releaseLines (.slot die k) (x.lines die)
    let s3 := if bitOf x.ctl 6 then s2.engineWord die (x.base + x.cwoff) x.cwval else s2
    s3.setSlot die { x with state := .released }
  else s

end Sys2Proof.Machine
end

