-- ==== Sys2Proof/Machine/Launch.lean ====
section
/-! DEFINITION. The Launch Processor: kernel images and launch records (spec/03_encoding_and_assembly.md R85, R86;
spec/23_dies_host_and_startup.md R458 to R465), placing blocks (R163, R431), completion and reports (R336, R440, R463). -/

namespace Sys2Proof.Machine

/-- Read main memory as the Launch Processor does (R428); peer accesses are numbered from 2^201 on. -/
def State.procRead (s : State) (ctx va n : Nat) : Option (List Byte) × State :=
  match s.ctx? ctx with
  | none => (none, s)
  | some c =>
    (match s.readMainBytes c va (2 ^ 201 + s.fresh) .read n with
     | .ok bs => some bs
     | .trap _ _ => none, { s with fresh := s.fresh + n })

/-- MAGIC of a kernel header (Table 3.11). -/
def kernelMagic : Nat := 0x4B574B48

/-- An image from its header and its live-set table (Table 3.11, R86). -/
def imageOf (base : Nat) (h table : List Byte) : Image :=
  let regs := fieldOf h 8 2
  let n := fieldOf h 10 2
  { base := base, entry := fieldOf h 4 4, regs := regs, nlive := n, shared := fieldOf h 12 4, spad := fieldOf h 16 4
    codesz := fieldOf h 20 4, stages := (List.range 8).map (fun k => fieldOf h (24 + k) 1), nparam := fieldOf h 32 4
    live := (List.range n).map (fun j => fieldOf table (80 * j) 80 % 2 ^ regs) }

/-- Read the image at a header address, with whether its reserved bytes are 0; none where it cannot be read or its MAGIC
is wrong. -/
def State.readImage (s : State) (ctx base : Nat) : Option (Image × Bool) × State :=
  match s.procRead ctx base 64 with
  | (none, s1) => (none, s1)
  | (some h, s1) =>
    if fieldOf h 0 4 != kernelMagic then (none, s1)
    else
      match s1.procRead ctx (base + 64) (80 * fieldOf h 10 2) with
      | (none, s2) => (none, s2)
      | (some t, s2) => (some (imageOf base h t, fieldOf h 36 28 == 0), s2)

/-- A launch record (Table 23.5). -/
def recordOf (b : List Byte) : LaunchRecord :=
  let pri := fieldOf b 9 1
  let fl := fieldOf b 10 1
  { code := fieldOf b 0 9, cls := pri / 16 % 4, level := pri % 16, det := bitOf fl 0, idempotent := bitOf fl 1
    replayable := bitOf fl 2, persistent := bitOf fl 3, list := bitOf fl 4, warps := fieldOf b 11 1
    nblk := fieldOf b 12 4 + 1, regf := fieldOf b 16 4, shmem := fieldOf b 20 4, wbf := fieldOf b 24 4
    est := fieldOf b 28 4, arg := fieldOf b 32 9, argn := fieldOf b 41 1, cscope := fieldOf b 42 1
    csv := fieldOf b 44 4, csa := fieldOf b 48 9, digest := fieldOf b 64 8, rpt := fieldOf b 72 9
    reservedZero := pri / 64 == 0 && fl / 32 == 0 && fieldOf b 43 1 == 0 && fieldOf b 57 7 == 0 && fieldOf b 81 47 == 0 }

/-- Words of an argument block. -/
def argWords (bs : List Byte) : List Word := (List.range (bs.length / 4)).map (fun k => BitVec.ofNat 32 (fieldOf bs (4 * k) 4))

/-- Bytes of STAGES up to the first stage with no warp (R165). -/
def Image.declared (m : Image) : List Nat := m.stages.takeWhile (fun b => b % 64 != 0)

/-- Number of stages (R165). -/
def Image.nstage (m : Image) : Nat := max 1 m.declared.length

/-- A stage's role (Table 3.11). -/
def roleOf (b : Nat) : Role :=
  match b / 64 with
  | 0 => .g
  | 1 => .s
  | 2 => .m
  | _ => .v

/-- Stage and role of each warp of a block (R165). -/
def Image.dealt (m : Image) (warps : Nat) : List (Nat × Role) :=
  if m.declared.isEmpty then List.replicate warps (0, .g)
  else (List.range m.declared.length).flatMap (fun k =>
    List.replicate (m.declared.getD k 0 % 64) (k, roleOf (m.declared.getD k 0)))

/-- A block holds the matrix queues: a stage of role M or V is declared (R315). -/
def Image.wantsMxq (m : Image) : Bool := m.declared.any (fun b => decide (2 ≤ b / 64))

/-- Round up to a multiple. -/
def roundUp (n k : Nat) : Nat := (n + k - 1) / k * k

/-- What a block or warp needs of a core (R163, R305, R315, R431). -/
structure Need where
  units : Nat
  warps : Nat
  shared : Nat := 0
  weights : Nat := 0
  mxq : Bool := false
  deriving DecidableEq, Repr

/-- What a block of an image needs. -/
def needOf (m : Image) (r : LaunchRecord) : Need :=
  let n := (m.dealt r.warps).length
  { units := n * (m.regs / 32), warps := n, shared := roundUp m.shared 1024, weights := roundUp r.wbf 4096, mxq := m.wantsMxq }

/-- A launch of the picker (R358). -/
def Launch.isSample (l : Launch) : Bool :=
  match l.kind with
  | .sample _ => true
  | _ => false

/-- Stage and role of each warp of a block of a launch; a sample warp is alone and of role G (R165, R358). -/
def Launch.parts (l : Launch) : List (Nat × Role) := if l.isSample then [(0, .g)] else l.image.dealt l.lrec.warps

/-- What the next block of a launch needs of a core; a sample warp has no shared memory (R358). -/
def Launch.need (l : Launch) : Need :=
  if l.isSample then { units := l.image.regs / 32, warps := 1, weights := roundUp l.lrec.wbf 4096 } else needOf l.image l.lrec

/-- The reason for which a launch is refused, 0 for none (R462); cls is the class it must have. -/
def State.launchReason (s : State) (ctx die cls : Nat) (r : LaunchRecord) (img : Option (Image × Bool)) (args : Option (List Byte)) :
    Nat :=
  match img, args with
  | some (m, zero), some _ =>
    let n := (m.dealt r.warps).length
    let area := ((s.ctx? ctx).map (fun c => c.spillUsable die)).getD 0
    if m.entry % 8 != 0 || m.entry < 64 + 80 * m.nlive then 1
    else if (m.stages.drop m.declared.length).any (· % 64 != 0) || (!m.declared.isEmpty && 32 < n) then 2
    else if m.regs % 32 != 0 || m.regs < 32 || 640 < m.regs || 63 < m.nlive || 64 < m.nparam || m.regs < m.nparam ||
        (r.regf != 0 && r.regf != m.regs) || (r.shmem != 0 && r.shmem != m.shared) || Config.weightBytes < r.wbf ||
        (if m.declared.isEmpty then r.warps == 0 || 32 < r.warps else r.warps != 0) || 64 < r.argn then 3
    else if !r.reservedZero || !zero || r.code % 64 != 0 || r.arg % 4 != 0 || r.csa % 4 != 0 || r.rpt % 32 != 0 ||
        r.cls != cls || 2 < r.cscope then 4
    else if Config.fastUnits < (needOf m r).units || Config.sharedBytes < m.shared || area / 0x9000 < n then 6
    else 0
  | _, _ => 1

/-- Units of a core's fast register file in use (R213). -/
def State.unitsUsed (s : State) (d c : Nat) : Nat :=
  (((s.warpsOn d c).filter (·.active)).map (fun w => w.footprint / 32)).foldl (· + ·) 0

/-- Warps of a core's active scheduling set. -/
def State.activeOn (s : State) (d c : Nat) : Nat := ((s.warpsOn d c).filter (·.active)).length

/-- A block stands on its core, until its flush or save has ended (R436, R437). -/
def Block.onCore (b : Block) : Bool :=
  match b.residency with
  | .saved => false
  | .restart => false
  | _ => true

/-- Blocks on a core. -/
def State.blocksOn (s : State) (d c : Nat) : List Block := s.blocks.filter (fun b => b.onCore && b.die == d && b.core == c)

/-- Shared memory, weight-buffer allocation and matrix queues that a block needs are free on a core (R431). -/
def State.memoryFits (s : State) (d c : Nat) (n : Need) : Bool :=
  let bs := s.blocksOn d c
  decide ((bs.map (fun b => roundUp b.sharedSize 1024)).foldl (· + ·) n.shared ≤ Config.sharedBytes) &&
    decide ((bs.map (·.wbSize)).foldl (· + ·) n.weights ≤ Config.weightBytes) && !(n.mxq && bs.any (·.holdsMxq))

/-- Register units and set room that warps need are free on a core (R163, R213, R327). -/
def State.warpsFit (s : State) (d c : Nat) (n : Need) : Bool :=
  decide (s.unitsUsed d c + n.units ≤ Config.fastUnits) && decide (s.activeOn d c + n.warps ≤ Config.activeWarps) &&
    decide ((s.warpsOn d c).length + n.warps ≤ Config.residentWarps)

/-- The lowest-numbered core that satisfies a test (R163). -/
def lowestCore (f : Nat → Bool) : Option Nat := (List.range Config.coresPerDie).find? f

/-- Warp segments of 36 KiB for k warps (R205): their first bytes. -/
def State.findSegments (s : State) (ctx d : Nat) : Nat → List Nat → Option (List Nat)
  | 0, acc => some acc
  | k + 1, acc =>
    match s.findSpillBeside ctx d 0x9000 (acc.map (fun a => (a, 0x9000))) with
    | none => none
    | some a => s.findSegments ctx d k (acc ++ [a])

/-- A lane at entry (R32): v0 upward hold given words. -/
def freshLane (entry : Nat) (vs : List Word) (seed : Word) (l : Nat) : Lane :=
  { pc := entry, gen := seedLane seed l
    regs := (List.range vs.length).foldl (fun m k => Cells.set m k (vs.getD k 0)) [] }

/-- The port of a new warp (R164). -/
def State.newPort (s : State) (d c : Nat) : Nat := (s.warpsOn d c).length % 4

/-- A warp at entry with the state of R32, for a core; lanes hold given words. -/
def State.freshWarp (s : State) (wid d c ctx seg : Nat) (m : Image) (entry : Nat) (args : List Word) (vs : Nat → List Word) : Warp :=
  let w : Warp := { wid := wid }
  { w with
    die := d, core := c, port := s.newPort d c, ctx := ctx, image := m, footprint := m.regs, segment := seg
    placedAt := (s.die d).clkr, readySince := (s.die d).clkr, args := args, argc := args.length
    lanes := (List.range 32).map (fun l => freshLane entry (vs l) w.seed l) }

/-- The first words of an argument block as registers (R32): words beyond it are 0. -/
def paramWords (m : Image) (args : List Word) : List Word := (List.range m.nparam).map (fun k => args.getD k 0)

/-- Blocks of a launch that were flushed and start again from entry, lowest index first (R436). -/
def State.restarts (s : State) (l : Launch) : List Block :=
  sortBy (fun a b => decide (a.index < b.index)) (s.blocks.filter (fun b => b.launch == l.lid && b.residency == .restart))

/-- A warp of a new block: the lanes of a sample warp that hold no pick have ended (R34, R358). -/
def blockWarp (l : Launch) (bid index k : Nat) (p : Nat × Role) (n : Nat) (w : Warp) : Warp :=
  let w := { w with launch := l.lid, tag := l.tag, block := some bid, index := k, blockIdx := index, nwarp := n, stage := p.1, role := p.2
                    prioClass := l.lrec.cls, prioLevel := l.lrec.level }
  if l.isSample then
    { w with kind := .sample, lastBlk := 0xFFFFFFFF
             lanes := (List.range 32).map (fun k => if k < l.entry.length then w.lane k else { w.lane k with st := .ended }) }
  else { w with lastBlk := l.lrec.nblk - 1, nstage := l.image.nstage }

/-- A new block of a launch on a core. -/
def Launch.newBlock (l : Launch) (bid core index : Nat) : Block :=
  let b : Block :=
    { bid := bid, launch := l.lid, ctx := l.ctx, die := l.die, core := core, index := index, nwarp := l.parts.length
      mxqs := List.replicate 4 {}, barriers := List.replicate 16 {}, rings := List.replicate 8 {} }
  if l.isSample then { b with kind := .sample, wbSize := roundUp l.lrec.wbf 4096 }
  else { b with sharedSize := l.image.shared, wbSize := roundUp l.lrec.wbf 4096, holdsMxq := l.image.wantsMxq
                nstage := l.image.nstage }

/-- A launch, task or handler that starts on a core reads its code anew (R80): cached words of its image are dropped. -/
def State.freshCode (s : State) (d c ctx base : Nat) : State :=
  s.modCore d c (fun x => { x with icache := x.icache.filter (fun y => !(y.ctx == ctx && y.base == base)) })

/-- A launch starts: the texture and node caches of its die drop the lines of its context (R240). -/
def State.startLaunch (s : State) (l : Launch) : State := s.dropTexLines l.die (fun t => t.ctx == l.ctx)

/-- Place the next block of a launch on a core with warp segments (R163, R32, R208, R305, R358, R436). -/
def State.startBlock (s0 : State) (l : Launch) (core : Nat) (segs : List Nat) : State :=
  let again := (s0.restarts l).head?
  let index := (again.map (·.index)).getD l.nextBlock
  let s : State := { (if again.isNone && (l.isSample || l.nextBlock == 0) then s0.startLaunch l else s0) with
    blocks := s0.blocks.filter (fun b => some b.bid != again.map (·.bid)) }
  let bid := s.nextId
  let parts := l.parts
  let s1 := { s with nextId := bid + 1, blocks := s.blocks ++ [l.newBlock bid core index] }
  let s2 := (List.range parts.length).foldl (fun s k =>
    let vs (j : Nat) : List Word := if l.isSample then l.entry.getD j [] else paramWords l.image l.args
    let w := s.freshWarp s.nextId l.die core l.ctx (segs.getD k 0) l.image l.image.entry l.args vs
    { s with nextId := s.nextId + 1
             warps := s.warps ++ [blockWarp l bid index k (parts.getD k (0, .g)) parts.length w] }) s1
  let n := if again.isSome then l.nextBlock else l.nextBlock + 1
  (s2.freshCode l.die core l.ctx l.image.base).modLaunch l.lid (fun l =>
    { l with nextBlock := n, rtCore := none, phase := if l.isSample || n == l.lrec.nblk then .started else .placing })

/-- The queue a launch came from. -/
def State.queueOf (s : State) (l : Launch) : Option Nat :=
  match l.kind with
  | .queue q _ => some q
  | .member c _ => (s.calls.find? (fun x => x.call == c)).map (·.queue)
  | _ => none

/-- Report steps of R463 that go to memory and to the host: the report's bytes at RPT, CSV at the completion address,
the vector of the queue. A write of which a byte cannot be made is skipped as a whole. -/
def State.signal (s : State) (ctx die : Nat) (r : LaunchRecord) (q : Option Nat) (report : List Byte) : State :=
  match s.ctx? ctx with
  | none => s
  | some c =>
    let s1 := if r.rpt == 0 || (s.firstWriteTrap c r.rpt report.length).isSome then s else s.writeMainBytes c r.rpt report
    let off := r.csa % 2 ^ 32
    let s2 :=
      if r.cscope == 1 then
        (if c.windowOk die off 4 false then s1.spaceWriteNat (.spad die) ((c.window die).1 + off) 4 r.csv none else s1)
      else if r.cscope == 2 then
        (if (s1.firstWriteTrap c r.csa 4).isNone then s1.writeMainBytes c r.csa (natToBytes 4 r.csv) else s1)
      else s1
    let s3 := match q with
      | some q => if (s.queue q).irq then { s2 with outbound := s2.outbound ++ [Outbound.msix q] } else s2
      | none => s2
    s3.modCtx ctx (fun c => { c with wdgCount := 0 })

/-- A launch report (Table 23.6). -/
def reportBytes (status rsn : Nat) (replayed : Bool) (dig dig2 endc : Nat) : List Byte :=
  [BitVec.ofNat 8 status, BitVec.ofNat 8 rsn, if replayed then 1 else 0] ++ List.replicate 5 0 ++ natToBytes 8 dig ++
    natToBytes 8 dig2 ++ natToBytes 8 endc

/-- A member of a list call has finished with a status; the last one ends the call (R464). -/
def State.memberDone (s : State) (call k status : Nat) : State :=
  let s1 := { s with calls := s.calls.map (fun (x : ListCall) => if x.call == call then { x with statuses := x.statuses ++ [(k, status)] } else x) }
  match s1.calls.find? (fun x => x.call == call) with
  | none => s1
  | some x =>
    if x.statuses.length < x.members then s1
    else
      let bad := (sortBy (fun a b => decide (a.1 < b.1)) x.statuses).find? (fun y => y.2 != 0)
      let s2 := s1.signal x.ctx x.die x.lrec (some x.queue) (reportBytes ((bad.map (·.2)).getD 0) 0 false 0 0 (s.die 0).clkr)
      { s2 with calls := s2.calls.filter (fun y => y.call != call) }

/-- A launch ends with a status and is reported (R463); it leaves the machine. -/
def State.reportLaunch (s : State) (l : Launch) (status rsn dig dig2 : Nat) : State :=
  let s1 := { s with launches := s.launches.filter (fun x => x.lid != l.lid) }
  let s2 := match l.kind with
    | .sample _ => s1
    | _ => s1.signal l.ctx l.die l.lrec (s.queueOf l) (reportBytes status rsn l.replayed dig dig2 (s.die 0).clkr)
  match l.kind with
  | .member c k => s2.memberDone c k status
  | _ => s2

/-- The digest of a launch from those of its blocks (R252). -/
def launchDigest (ds : List (Nat × Dword)) : Dword :=
  (sortBy (fun a b => decide (a.1 < b.1)) ds).foldl (fun d x => digestStep d x.2) 0

/-- A launch that has ended completes, or runs again one block at a time (R252, R440). -/
def State.endLaunch (s : State) (l : Launch) : State :=
  let d := (launchDigest l.digests).toNat
  if l.replayed then s.reportLaunch l 0 0 l.firstDigest d
  else if l.lrec.digest == 0 || l.lrec.digest == d then s.reportLaunch l 0 0 d 0
  else if l.lrec.replayable then
    s.modLaunch l.lid (fun l =>
      { l with replayed := true, serial := true, firstDigest := d, digests := [], nextBlock := 0, phase := .placing })
  else s.reportLaunch l 0x30 0 d 0

/-- Blocks of a launch: a task warp or a handler warp is in none (R166, R426). -/
def Block.ofLaunch (b : Block) (lid : Nat) : Bool := b.launch == lid && (b.kind == .block || b.kind == .sample)

/-- Every warp of a launch's blocks has ended and no task of it is live (R336). -/
def State.launchOver (s : State) (l : Launch) : Bool :=
  l.phase == .started && !s.blocks.any (·.ofLaunch l.lid) &&
    (match s.ctx? l.ctx with
     | none => true
     | some c => (c.die l.die).tasks.all (fun t => t.1 != l.tag)) &&
    (match l.kind with
     | .sample _ => false
     | _ => true)

/-- The launch is complete, when it is over (R336). -/
def State.checkLaunch (s : State) (lid : Nat) : State :=
  match s.launch? lid with
  | none => s
  | some l => if s.launchOver l then s.endLaunch l else s

/-- A warp of a block leaves; the last one ends the block, whose digest goes to the launch (R252). -/
def State.leaveBlock (s : State) (w : Warp) : State :=
  let s1 := s.dropWarp w.wid
  match w.block.bind s.block? with
  | none => s1
  | some b =>
    let s2 := s1.modBlock b.bid (fun b => { b with digests := b.digests ++ [(w.index, w.drain.dig)] })
    if s2.warps.any (fun x => x.block == some b.bid) then s2
    else
      let ds := sortBy (fun (a b : Nat × Dword) => decide (a.1 < b.1)) (b.digests ++ [(w.index, w.drain.dig)])
      let dig := ds.foldl (fun d x => digestStep d x.2) 0
      let s3 : State := { s2 with blocks := s2.blocks.filter (fun x => x.bid != b.bid) }
      let s4 := s3.modLaunch b.launch (fun l => { l with digests := l.digests ++ [(b.index, dig)] })
      if w.kind == .sample then { s4 with launches := s4.launches.filter (fun l => l.lid != b.launch) }
      else s4.checkLaunch b.launch

/-- Read the image and the argument block of a record. -/
def State.readLaunch (s : State) (ctx : Nat) (r : LaunchRecord) : Option (Image × Bool) × Option (List Byte) × State :=
  let a := s.readImage ctx r.code
  let b := a.2.procRead ctx r.arg (4 * r.argn)
  (a.1, b.1, b.2)

/-- A launch begins placing (R337, R459, R86): its image and arguments are read, its tag is taken; or it is refused. -/
def State.beginLaunch (s : State) (l : Launch) : State :=
  let r := s.readLaunch l.ctx l.lrec
  let reason := r.2.2.launchReason l.ctx l.die l.lrec.cls l.lrec r.1 r.2.1
  match reason, r.1, r.2.1, l.kind with
  | 0, some m, some bs, .recon _ =>
    r.2.2.modLaunch l.lid (fun l =>
      { l with image := m.1, args := l.args ++ (argWords bs).take 60, argc := min (4 + l.lrec.argn) 64, phase := .placing })
  | 0, some m, some bs, _ =>
    let t := r.2.2.takeTag l.ctx l.die
    t.2.modLaunch l.lid (fun l => { l with image := m.1, args := argWords bs, argc := l.lrec.argn, tag := t.1, phase := .placing })
  | n, _, _, _ => r.2.2.reportLaunch l 0x01 n 0 0

/-- A launch that has blocks to place. -/
def Launch.open_ (l : Launch) : Bool := l.phase == .waiting || l.phase == .placing

/-- The arrival number of the TAIL write that covers record i of a queue (R458). -/
def Queue.coverOf (q : Queue) (i : Word) : Nat :=
  ((q.covers.find? (fun x => !((BitVec.ofNat 32 x.2) - i - 1).msb)).map (·.1)).getD 0

/-- The address of record i of a queue (R458). -/
def Queue.recordAddr (x : Queue) (i : Word) : Nat :=
  x.base0.toNat + x.base1.toNat * 2 ^ 32 + x.base2.toNat * 2 ^ 64 + 128 * (i.toNat % 2 ^ x.log2n)

/-- List calls of a queue that a TAIL write covers and that have not been read, with its arrival and CODE (R465). -/
def State.unreadCalls (s : State) (x : Queue) : List (Nat × Nat) :=
  let n := (x.latched.getD x.tail - x.prog).toNat
  if 2 ^ x.log2n < n then []
  else (List.range n).filterMap (fun k =>
    let i := x.prog + BitVec.ofNat 32 k
    match (s.procRead x.ctx (x.recordAddr i) 128).1 with
    | some bs => if (recordOf bs).list then some (x.coverOf i, (recordOf bs).code) else none
    | none => none)

/-- Member k of a list call follows member k of every earlier call that names the same CODE, read or not (R465). -/
def State.memberTurn (s : State) (x : ListCall) (k : Nat) : Bool :=
  s.calls.all (fun y => y.lrec.code != x.lrec.code || x.arrival ≤ y.arrival ||
    s.launches.all (fun z => z.kind != .member y.call k || !z.open_)) &&
  s.queues.all (fun q => (s.unreadCalls q).all (fun y => y.2 != x.lrec.code || x.arrival ≤ y.1))

/-- A launch may place its next block as far as its queue, its context, its list call and its replay allow (R440, R443,
R458, R460, R465). -/
def State.mayPlace (s : State) (l : Launch) : Bool :=
  let q := s.queueOf l
  let halted := ((s.ctx? l.ctx).map (fun c => c.escalated.isSome)).getD true
  let queueOk := match q with
    | none => true
    | some q => (s.queue q).en && (s.queue q).swIn && (s.queue q).switching == .idle &&
        s.launches.all (fun x => s.queueOf x != some q || l.lid ≤ x.lid || !x.open_)
  let listOk := match l.kind with
    | .member c k =>
      (match s.calls.find? (fun x => x.call == c) with
       | none => true
       | some x => s.memberTurn x k)
    | _ => true
  (l.open_ || !(s.restarts l).isEmpty) && !halted && queueOk && listOk && !(l.serial && s.blocks.any (fun b => b.ofLaunch l.lid && b.residency != .restart))

/-- Launches of a die that wait to place, by class and then by arrival (R183, R458). -/
def State.placeOrder (s : State) (die : Nat) : List Launch :=
  sortBy (fun a b => lexLt [a.lrec.cls, a.arrival, a.lid] [b.lrec.cls, b.arrival, b.lid])
    (s.launches.filter (fun l => l.die == die && s.mayPlace l))

/-- A warp keeps its units and its place in the set when a block of class RT comes: it is of that class itself, or has
lanes parked or held in place (R431, R432). -/
def Warp.stays (w : Warp) : Bool :=
  w.active && (w.prioClass == 0 || w.lanes.any (fun x => x.st == .parked) ||
    w.records.any (fun r => r.inPlace && r.state != .resolved))

/-- A core can take a block of class RT once the warps that may leave the set have left it (R431, R433). -/
def State.rtFits (s : State) (d c : Nat) (n : Need) : Bool :=
  let ws := (s.warpsOn d c).filter (·.stays)
  s.memoryFits d c n && decide ((ws.map (fun w => w.footprint / 32)).foldl (· + ·) n.units ≤ Config.fastUnits) &&
    decide (ws.length + n.warps ≤ Config.activeWarps) && decide ((s.warpsOn d c).length + n.warps ≤ Config.residentWarps)

/-- The core on which the next block of a class RT launch is to go (R431): the one it was given while that can take it, else
the lowest that can. -/
def State.rtCoreFor (s : State) (l : Launch) : Option Nat :=
  let fits (c : Nat) : Bool := s.rtFits l.die c l.need
  if l.lrec.cls == 0 && l.phase != .waiting then
    (if (s.findSegments l.ctx l.die l.need.warps []).isNone then none
     else match l.rtCore with
       | some c => if fits c then some c else lowestCore fits
       | none => lowestCore fits)
  else none

/-- The core on which the next block of a launch is placed, none while it has no room. -/
def State.coreFor (s : State) (l : Launch) : Option Nat :=
  let n := l.need
  if l.lrec.cls == 0 then l.rtCore.bind (fun c => if s.memoryFits l.die c n && s.warpsFit l.die c n then some c else none)
  else lowestCore (fun c => s.memoryFits l.die c n && s.warpsFit l.die c n)

/-- BLOCK_PLACE (R163, R458): the first launch of its die begins, or places its next block. -/
def State.placeNext (s : State) (l : Launch) : State :=
  if ((s.placeOrder l.die).head?.map (·.lid)) != some l.lid then s
  else if l.phase == .waiting then s.beginLaunch l
  else
    match s.coreFor l, s.findSegments l.ctx l.die l.need.warps [] with
    | some c, some segs => s.startBlock l c segs
    | _, _ => s

/-- `BLOCK_PLACE` (R163). -/
def execBlockPlace (lid : Nat) (s : State) : Host.Outcome State Fault Refusal :=
  .next (match s.launch? lid with
    | none => s
    | some l => s.placeNext l)

/-- A warp with no lane runnable, held or parked, none held in place, and no register held, leaves the active
scheduling set (R213, R431, R432). -/
def State.mayLeave (s : State) (w : Warp) : Bool :=
  w.active && w.lanes.all (fun x => x.st == .suspended || x.st == .ended) && !w.allEnded &&
    w.records.all (fun r => !r.inPlace || r.state == .resolved) && (s.heldRegs w.wid).isEmpty

/-- Pre-empted warps of a core leave the active scheduling set, as far as they may, while a block of class RT waits for
room there (R431). -/
def State.leaveSet (s : State) (die core : Nat) : State :=
  { s with warps := s.warps.map (fun w =>
      if w.resident && w.die == die && w.core == core && w.prioClass != 0 && s.mayLeave w then { w with active := false }
      else w) }

/-- `RT_PREEMPT` (R431): the core is given to the next block of class RT, and every lane set of every other warp on it
becomes a pre-emption record. -/
def execRtPreempt (die core : Nat) (s : State) : Host.Outcome State Fault Refusal :=
  .next (match s.placeOrder die with
    | l :: _ =>
      if l.rtCore != some core && s.rtCoreFor l == some core then
        (((s.warpsOn die core).filter (fun w => w.prioClass != 0)).foldl (fun s w => s.preemptWarp w.wid)
          (s.modLaunch l.lid (fun l => { l with rtCore := some core }))).leaveSet die core
      else s
    | [] => s)

/-- A block of class RT waits for room on a core (R431). -/
def State.rtWaits (s : State) (die core : Nat) : Bool := (s.placeOrder die).any (fun l => l.rtCore == some core)

/-- A pre-empted warp is to leave the active scheduling set for it, once no register is held: no record of it resumes (R431). -/
def State.givesWay (s : State) (w : Warp) : Bool := w.prioClass != 0 && !w.stays && s.rtWaits w.die w.core

/-- Add a launch that waits to begin. -/
def State.addLaunch (s : State) (l : Launch) : State :=
  { s with nextId := s.nextId + 1, launches := s.launches ++ [{ l with lid := s.nextId }] }

/-- A launch record is accepted, or refused and reported (R462). -/
def State.takeRecord (s : State) (l : Launch) (cls : Nat) : State :=
  let r := s.readLaunch l.ctx l.lrec
  let reason := if l.lrec.list then 5 else r.2.2.launchReason l.ctx l.die cls l.lrec r.1 r.2.1
  if reason == 0 then r.2.2.addLaunch l else r.2.2.reportLaunch l 0x01 reason 0 0

/-- Apply the patch table to the members of a list call (R464); none when an entry is malformed. -/
def patchMembers (ms : List (List Byte)) : List (List Byte) → Option (List (List Byte))
  | [] => some ms
  | e :: es =>
    let k := fieldOf e 0 2
    if ms.length ≤ k || fieldOf e 3 5 != 0 || 16 ≤ fieldOf e 2 1 then none
    else patchMembers (ms.modify k (fun m => putField m (8 * fieldOf e 2 1) 8 (fieldOf e 8 8))) es

/-- The reason for which a list call is refused by its own record, 0 for none (R462). -/
def listReason (cls : Nat) (r : LaunchRecord) : Nat :=
  if 64 < r.argn || 4096 < r.nblk then 3
  else if !r.reservedZero || r.code % 64 != 0 || r.arg % 16 != 0 || r.csa % 4 != 0 || r.rpt % 32 != 0 || r.cls != cls || 2 < r.cscope
  then 4
  else 0

/-- A list call (R464): members and patch table are read, and the members become launches of the queue. -/
def State.takeList (s : State) (l : Launch) (q cls : Nat) : State :=
  let r := l.lrec
  if listReason cls r != 0 then s.reportLaunch l 0x01 (listReason cls r) 0 0
  else
    let a := s.procRead l.ctx r.code (128 * r.nblk)
    let b := a.2.procRead l.ctx r.arg (16 * r.argn)
    match a.1, b.1 with
    | some ms, some ps =>
      let members := (List.range r.nblk).map (fun k => (ms.drop (128 * k)).take 128)
      let patches := (List.range r.argn).map (fun k => (ps.drop (16 * k)).take 16)
      (match patchMembers members patches with
       | none => b.2.reportLaunch l 0x01 5 0 0
       | some xs =>
         let rs := xs.map recordOf
         if rs.any (·.list) then b.2.reportLaunch l 0x01 5 0 0
         else
           let call := b.2.nextId
           let c : ListCall :=
             { call := call, queue := q, ctx := l.ctx, die := l.die, lrec := r, members := r.nblk, arrival := l.arrival }
           let s1 := { b.2 with nextId := call + 1, calls := b.2.calls ++ [c] }
           (List.range rs.length).foldl (fun s k =>
             s.takeRecord { l with kind := .member call k, lrec := rs.getD k {} } cls) s1)
    | _, _ => b.2.reportLaunch l 0x01 5 0 0

/-- A queue has a record to read (R458). -/
def Queue.pending (q : Queue) : Bool := q.swIn && q.en && q.switching == .idle && !q.stopped && q.tail != q.prog

/-- A queue stops on an error (R458). -/
def State.stopQueue (s : State) (q : Nat) : State :=
  s.modQueue q (fun x => { x with err := true, stopped := true, rewritten := false })

/-- `LAUNCH_RECORD_READ` (R458, R462, R464). -/
def execLaunchRecordRead (q : Nat) (s : State) : Host.Outcome State Fault Refusal :=
  let x := s.queue q
  .next (
    if !x.pending then s
    else if 2 ^ x.log2n < (x.tail - x.prog).toNat then s.stopQueue q
    else
      match s.procRead x.ctx (x.recordAddr x.prog) 128 with
      | (none, s1) => s1.stopQueue q
      | (some bs, s1) =>
        let s2 := s1.modQueue q (fun y =>
          { y with prog := y.prog + 1, covers := y.covers.filter (fun c => !((BitVec.ofNat 32 c.2) - x.prog - 2).msb) })
        let l : Launch :=
          { lid := 0, kind := .queue q x.prog.toNat, ctx := x.ctx, die := x.die, lrec := recordOf bs, arrival := x.coverOf x.prog }
        if l.lrec.list then s2.takeList l q x.cls else s2.takeRecord l x.cls)

end Sys2Proof.Machine
end

