-- ==== Sys2Proof/Machine/Faults.lean ====
section
/-! DEFINITION. Handler warps (spec/21_faults_and_preemption.md R426, R427), device faults (R441, R442), the watchdog
(R439), and the end of an escalation with its dump (R443 to R446; spec/22_program_core_dump.md R448). -/

namespace Sys2Proof.Machine

/-- Handler warps of a context on a die (R426). -/
def State.handlersOn (s : State) (ctx die : Nat) : Nat :=
  (s.warps.filter (fun w => w.kind == .handler && w.ctx == ctx && w.die == die)).length

/-- Faulted records of user-level warps of a context on a die that have no handler warp yet, in parking order (R426). -/
def State.undispatched (s : State) (ctx die : Nat) : List (Warp × Record) :=
  sortBy (fun x y => decide (x.2.parkOrder < y.2.parkOrder))
    ((s.warps.filter (fun w => w.ctx == ctx && w.die == die && !w.supervisor)).flatMap (fun w =>
      (w.records.filter (fun r => r.state == .faulted && !r.dispatched)).map (fun r => (w, r))))

/-- Window offset of a parked record's header (R223, Table 21.1). -/
def State.recordOffset (s : State) (w : Warp) (r : Record) : Nat :=
  match r.place with
  | .slot k => w.slotAddr k - s.spaceAddr w false 0
  | _ => 0

/-- Registers of a handler warp at entry (Table 21.1). -/
def State.handlerWords (s : State) (w : Warp) (r : Record) : List Word :=
  let n (v : Nat) : Word := BitVec.ofNat 32 v
  [n (s.recordOffset w r), n r.trap, r.who, r.blk, n r.faddr, n (r.faddr / 2 ^ 32), n (r.faddr / 2 ^ 64 % 2 ^ 8),
   n (r.pc / 8 * 8 + r.half % 2), n r.event]

/-- Start a handler warp for a record on a core (R426). -/
def State.startHandler (s : State) (w : Warp) (r : Record) (m : Image) (entry core seg : Nat) : State :=
  let vs := s.handlerWords w r
  let bid := s.nextId
  let b : Block :=
    { bid := bid, kind := .handler, launch := w.launch, ctx := w.ctx, die := w.die, core := core, index := 0xFFFFFFFF }
  let h := s.freshWarp (bid + 1) w.die core w.ctx seg m entry vs (fun _ => vs)
  let h : Warp :=
    { h with kind := .handler, launch := w.launch, tag := w.tag, block := some bid, blockIdx := 0xFFFFFFFF, lastBlk := 0xFFFFFFFF
             prioClass := w.prioClass, prioLevel := 15, handlerFor := some (w.wid, r.seq) }
  (({ s with nextId := bid + 2, blocks := s.blocks ++ [b], warps := s.warps ++ [h] }).freshCode w.die core w.ctx m.base).modRecord w.wid r.seq (fun r =>
    { r with dispatched := true, handler := some (bid + 1) })

/-- HANDLER_DISPATCH (R426). -/
def State.dispatch (s : State) (w : Warp) (r : Record) (c : Context) : State :=
  let first := ((s.undispatched w.ctx w.die).head?.map (fun x => (x.1.wid, x.2.seq))) == some (w.wid, r.seq)
  if c.trapv.toNat / 8 == 0 then (if r.state == .faulted && !r.dispatched then s.escalate w.ctx w.wid r.seq else s)
  else if !first || c.escalated.isSome || Config.maxHandlers ≤ s.handlersOn w.ctx w.die then s
  else
    match s.readImage w.ctx c.suph with
    | (none, s1) => s1.escalate w.ctx w.wid r.seq
    | (some m, s1) =>
      let n : Need := { units := m.1.regs / 32, warps := 1 }
      match lowestCore (fun k => s1.warpsFit w.die k n), s1.findSegments w.ctx w.die 1 [] with
      | some core, some segs => s1.startHandler w r m.1 (c.trapv.toNat / 8 * 8) core (segs.headD 0)
      | _, _ => s

/-- `HANDLER_DISPATCH` (R426). -/
def execHandlerDispatch (wid seq : Nat) (s : State) : Host.Outcome State Fault Refusal :=
  .next (match s.warp? wid with
    | none => s
    | some w =>
      match w.record? seq, s.ctx? w.ctx with
      | some r, some c => s.dispatch w r c
      | _, _ => s)

/-- A handler warp ends; its record is escalated while it is still faulted (R427), and a resolved header is freed
(R223). -/
def State.endHandler (s : State) (h : Warp) : State :=
  let s1 := s.dropWarp h.wid
  match h.handlerFor with
  | none => s1
  | some (wid, seq) =>
    match (s1.warp? wid).bind (·.record? seq) with
    | none => s1
    | some r =>
      if r.handler != some h.wid then s1
      else if r.state == .faulted then s1.escalate h.ctx wid seq
      else s1.modWarp wid (fun w => { w with records := w.records.filter (fun x => x.seq != seq) })

/-- What an engine had written when it was cut short: any of the bytes it had not yet written (R442, Config.byteSent). -/
def State.cutOp (s : State) (o : EngineOp) : State :=
  let sent (i : Nat) : Bool := Config.byteSent (o.oid * 2 ^ 40 + i)
  match o.kind with
  | .copy c => s.under o.ctx o.old (fun s =>
    let x := (dirSides (cpDir c.desc)).2
    let pl := c.place o x
    let is := (List.range (s.copyLimit o c)).filter (fun i => sent i && !c.wroteByte o i && !o.lost.contains (cpTo c.desc i) && s.sourceFree o c [i])
    match x == .main, s.ctx? o.ctx with
    | true, some ctx =>
      is.foldl (fun s i => s.writeMain ctx (cpTo c.desc i) (s.copyByte o c i))
        (s.beforeTexWrite (s.physLines ctx .write (is.map (cpTo c.desc))))
    | true, none => s
    | false, _ => is.foldl (fun s i =>
        let a := cpTo c.desc i
        if (spaceLines pl.1 (pl.2 + a) 1).all (fun k => s.owns (.op o.oid) k) then
          s.spaceWrite pl.1 (pl.2 + a) [s.copyByte o c i] none
        else s) s)
  | .clear off len _ =>
    let sp : Space := .weight (o.block.getD 0)
    (List.range len).foldl (fun s i =>
      if sent i && (spaceLines sp (off + i) 1).all (fun k => s.owns (.op o.oid) k) then s.spaceWrite sp (off + i) [0] none
      else s) s
  | .forward t bs =>
    let die := 1 - o.die
    (match (s.die die).render.inGrid t, s.ringPlace die t (s.opLevel o) with
     | true, some a =>
       let i := ((s.die die).render.widx.get t).toNat
       if s.slotOwned die a i then s
       else (List.range bs.length).foldl (fun s k =>
         if sent k then s.spaceWrite (.spad die) (a + 16 * i + k) [bs.getD k 0] none else s) s
     | _, _ => s)
  | _ => s

/-- Operations of a context go away with the lines they own or wait for. -/
def State.dropOps (s : State) (f : EngineOp → Bool) : State :=
  let gone := s.ops.filter f
  let s1 := gone.foldl (fun s o => (s.loseHandle o).releaseLines (.op o.oid) (s.linesOfOwner (.op o.oid))) s
  { s1 with ops := s1.ops.filter (fun o => !f o) }

/-- Cancel and free every Combine Unit slot of a context (R409). -/
def State.freeSlots (s : State) (ctx : Nat) : State :=
  (List.range 2).foldl (fun s die =>
    ((s.die die).slots.filter (fun x => x.state != .free && x.ctx == ctx)).foldl (fun s x => s.freeSlot die x) s) s

/-- Freed slots go to the allocations that wait (R399). -/
def State.grantFreed (s : State) : State :=
  (List.range 2).foldl (fun s die => s.grantWaiters die (s.slotWaiters die).length) s

/-- What a Combine Unit release that a device fault interrupts has written: any bytes of the output of a closed slot that
holds its lines (R442, Config.byteSent). -/
def State.cutRelease (s0 : State) (die : Nat) (x : CmbSlot) : State :=
  if !s0.releasable die x then s0
  else
    let bs := s0.slotOutput die x
    (List.range bs.length).foldl (fun s i =>
      if Config.byteSent ((x.slot * 2 + die) * 2 ^ 40 + 2 ^ 39 + i) then
        s.spaceWrite (.spad die) (x.base + x.out + i) [bs.getD i 0] none
      else s) s0

/-- Cut the releases of a context's slots. -/
def State.cutReleases (s : State) (ctx : Nat) : State :=
  (List.range 2).foldl (fun s die =>
    ((s.die die).slots.filter (fun x => x.ctx == ctx)).foldl (fun s x => s.cutRelease die x) s) s

/-- Fault-page slots of discarded records take STATE 3 (R427). -/
def State.markDiscarded (s : State) (w : Warp) : State :=
  w.records.foldl (fun s r => match r.place with
    | .slot k => s.spacePut (.spad w.die) (w.slotAddr k) ({ r with state := .resolved }).header
    | _ => s) s

/-- Every unfinished launch of a context ends with a status (R442, R443, R457, R463). -/
def State.endLaunches (s : State) (ctx status : Nat) : State :=
  (s.launches.filter (fun l => l.ctx == ctx)).foldl (fun s l =>
    s.reportLaunch l status 0 (if l.replayed then l.firstDigest else 0) 0) s

/-- Completion words in a context's windows that wait for a line are not stored any more. -/
def State.dropWords (s : State) (ctx : Nat) : State :=
  match s.ctx? ctx with
  | none => s
  | some c => { s with words := s.words.filter (fun x =>
      !(decide ((c.window x.die).1 ≤ x.addr) && decide (x.addr < (c.window x.die).1 + (c.window x.die).2))) }

/-- The work of a context is discarded: warps, records, blocks, engine operations, slots; its launches end with a
status. Its windows keep their bytes (R457), spill stacks included (R205). -/
def State.dropWork (s : State) (ctx status : Nat) : State :=
  let s1 := (s.warps.filter (fun w => w.ctx == ctx)).foldl (fun s w => s.leaveStack w) (s.dropWords ctx)
  let s2 : State :=
    { s1 with warps := s1.warps.filter (fun w => w.ctx != ctx), blocks := s1.blocks.filter (fun b => b.ctx != ctx) }
  let s3 := (s2.dropOps (fun o => o.ctx == ctx)).freeSlots ctx
  (s3.modCtx ctx (fun c => { c with dies := c.dies.map (fun d => { d with tasks := [] }) })).endLaunches ctx status

/-- The same, and its slots go to others that wait. -/
def State.discardWork (s : State) (ctx status : Nat) : State := (s.dropWork ctx status).grantFreed

/-- What the engines of a context had written when a device fault stopped them (R442): operations, puts that had landed,
releases; fault-page slots of its records take STATE 3 (R427). -/
def State.cutWork (s : State) (ctx : Nat) : State :=
  let s1 := (s.ops.filter (fun o => o.ctx == ctx && !o.complete && o.fault.isNone)).foldl (fun s o => s.cutOp o) s
  let s2 := (s1.cutReleases ctx).freeSlots ctx
  (s2.warps.filter (fun w => w.ctx == ctx)).foldl (fun s w => s.markDiscarded w) s2

/-- Contexts with work on a die. -/
def State.workingOn (s : State) (die : Nat) : List Nat :=
  ((s.warps.filter (fun w => w.die == die)).map (·.ctx) ++ (s.blocks.filter (fun b => b.die == die)).map (·.ctx) ++
    (s.launches.filter (fun l => l.die == die)).map (·.ctx)).eraseDups

/-- A record as the dump holds it (R445): every register of the footprint, whatever its live set. -/
def dumpRecord (w : Warp) (r : Record) : Record :=
  let all := List.range w.footprint
  let fast (l : Nat) : LaneSave := { lane := l, gen := (w.lane l).gen, fpx := (w.lane l).fpx, regs := (w.lane l).regs }
  let kept (x : LaneSave) : LaneSave :=
    { x with regs := r.exempt.foldl (fun m n => m.set n ((w.lane x.lane).reg n)) x.regs }
  { r with
    inPlace := false, live := all, size := 320 + 128 * w.footprint
    saved := if r.inPlace then r.lanes.map fast else r.saved.map kept }

/-- Codes of Table 21.10 and Table 3.11. -/
def WarpKind.code : WarpKind → Nat
  | .task => 1
  | .handler => 2
  | _ => 0
def Role.code : Role → Nat
  | .g => 0
  | .s => 1
  | .m => 2
  | .v => 3

/-- A REGS item (Table 21.10). -/
def State.regsItem (s : State) (w : Warp) : List Byte :=
  let rs := sortBy (fun a b => seqLt a.seq b.seq) w.records
  natToBytes 4 (s.whoOf w).toNat ++ natToBytes 4 w.blockIdx ++ natToBytes 2 w.footprint ++ natToBytes 2 rs.length ++
    natToBytes 1 (w.kind.code + 4 * w.stage + 64 * w.role.code) ++
    [w.part.setWidth 8, w.rnd.setWidth 8, w.axc.setWidth 8] ++ natToBytes 4 (w.prioClass * 16 + w.prioLevel) ++
    natToBytes 4 w.seed.toNat ++ natToBytes 4 w.sps.toNat ++ natToBytes 8 w.dig.toNat ++ natToBytes 4 w.matL.toNat ++
    natToBytes 4 w.matC.toNat ++ natToBytes 4 w.tcb.toNat ++ natToBytes 16 0 ++
    rs.flatMap (fun r => (dumpRecord w r).header ++ (dumpRecord w r).body (List.range w.footprint))

/-- Order of the REGS items (R445). -/
def State.regsKey (s : State) (w : Warp) : List Nat :=
  match w.kind with
  | .task => [1, w.die, w.tcb.toNat, 0]
  | .handler => [2, w.die, (w.handlerFor.bind (fun x => (s.warp? x.1).bind (fun y =>
      (y.record? x.2).map (fun r => s.recordOffset y r)))).getD 0, 0]
  | _ => [0, w.die, w.blockIdx, w.index]

/-- Blocks of a context in the order of SHARED (R445). -/
def State.dumpBlocks (s : State) (ctx : Nat) : List Block :=
  sortBy (fun a b => lexLt [a.die, a.index] [b.die, b.index])
    (s.blocks.filter (fun b => b.ctx == ctx && (b.kind == .block || b.kind == .sample) && b.residency != .restart))

/-- Placement word of a block (Table 21.10). -/
def Block.placeWord (b : Block) : Nat := b.core * 2 ^ 5 + b.die * 2 ^ 10

/-- A SHARED item (Table 21.10, R445). -/
def sharedItem (b : Block) : List Byte :=
  let n := roundUp b.sharedSize 1024
  let q := if b.holdsMxq then b.mxqs.flatMap (fun q => (List.range 32).flatMap (fun k =>
    (List.range 64).flatMap (fun j => natToBytes 4 ((q.entries.getD k []).getD j 0).toNat))) else []
  natToBytes 4 b.index ++ natToBytes 4 b.placeWord ++ natToBytes 4 n ++ natToBytes 4 b.wbSize ++ natToBytes 4 q.length ++
    natToBytes 12 0 ++ b.shared.readBytes 0 n ++ b.wb.readBytes 0 b.wbSize ++ q

/-- Dies that hold work of a context. -/
def State.workDies (s : State) (ctx : Nat) : List Nat := (List.range 2).filter (fun d => (s.workingOn d).contains ctx)

/-- A die scratchpad with the spill stacks of a context's warps in their segments (R205, R207): a word that no lane has written
reads 0 (R206). -/
def State.withStacks (s : State) (ctx d : Nat) (m : Memory) : Memory :=
  (s.warps.filter (fun w => w.ctx == ctx && w.die == d)).foldl (fun m w =>
    w.layStack (m.filter (fun c => !(decide (w.segment ≤ c.1) && decide (c.1 < w.segment + 0x8000))))) m

/-- A SPAD item (Table 21.10): the whole window, the spill area with its stacks included. -/
def State.spadItem (s : State) (c : Context) (d : Nat) : List Byte :=
  let early := ((c.dumping.map (·.early)).getD []).filter (fun y => y.space == some (.spad d))
  let m := early.foldl (fun m y => m.writeBytes y.addr [y.val]) (s.die d).spad
  natToBytes 4 d ++ natToBytes 4 (c.window d).2 ++ natToBytes 8 0 ++
    (s.withStacks c.id d m).readBytes (c.window d).1 (c.window d).2

/-- A BARR item (Table 21.10). -/
def State.barrItem (s : State) (b : Block) : List Byte :=
  natToBytes 4 b.index ++ natToBytes 4 b.placeWord ++ natToBytes 4 (s.arrivals_ b.bid).length ++ natToBytes 4 0 ++
    (List.range 16).flatMap (fun k =>
      let x := b.barriers.getD k {}
      natToBytes 4 x.gen.toNat ++ natToBytes 4 (x.cnt.toNat + x.exp.toNat * 2 ^ 11 + (if x.opened then 2 ^ 22 else 0))) ++
    (List.range 8).flatMap (fun m =>
      let r := b.rings.getD m {}
      natToBytes 4 (r.phase.toNat + r.nslot * 2 ^ 16 + r.link * 2 ^ 24)) ++
    (List.range 4).flatMap (fun q => natToBytes 4 (b.mxqs.getD q {}).countWord.toNat)

/-- A COPY item (Table 21.10): completed unless its fault is still pending. -/
def State.copyItem (s : State) (o : EngineOp) (c : CopyOp) : List Byte :=
  let f := (s.op? o.oid).bind (·.fault)
  let w := (s.warp? o.wid).getD { wid := 0 }
  natToBytes 4 c.handle ++ natToBytes 4 (s.whoOf w).toNat ++ natToBytes 4 w.blockIdx ++
    natToBytes 1 (if f.isSome then 2 else 0) ++ natToBytes 1 ((f.map (·.1)).getD 0) ++
    natToBytes 1 (if c.weights then 1 else 0) ++ natToBytes 1 o.colour ++ natToBytes 9 ((f.map (·.2)).getD 0) ++
    natToBytes 7 0 ++ c.desc

/-- The sections of the dump, each as its items (R444, R445). -/
def State.dumpSections (s : State) (c : Context) : List (List (List Byte)) :=
  let ws := sortBy (fun a b => lexLt (s.regsKey a) (s.regsKey b)) (s.warps.filter (fun w => w.ctx == c.id))
  let bs := s.dumpBlocks c.id
  let cs := c.haltOps.filterMap (fun o => match o.kind with
    | .copy x => some (o, x)
    | _ => none)
  let key (y : EngineOp × CopyOp) : List Nat := [y.1.die, y.1.core, y.2.slot]
  [ws.map s.regsItem, bs.map sharedItem, (s.workDies c.id).map (s.spadItem c), bs.map s.barrItem,
   (sortBy (fun a b => lexLt (key a) (key b)) cs).map (fun y => s.copyItem y.1 y.2)]

/-- The sections with their offsets from the buffer's base, from a position on (R444). -/
def placeSections : Nat → List (List (List Byte)) → List (Nat × List (List Byte))
  | _, [] => []
  | pos, x :: xs => (roundUp pos 256, x) :: placeSections (roundUp pos 256 + (x.flatMap id).length) xs

/-- How many items lie within so many bytes. -/
def wholeItems : Nat → List (List Byte) → Nat
  | _, [] => 0
  | n, x :: xs => if x.length ≤ n then 1 + wholeItems (n - x.length) xs else 0

/-- A section entry (Table 21.9) when the dump ends at an offset; a section that was not begun has none. -/
def sectionEntry (stop : Nat) (begun : Bool) (x : Nat × List (List Byte)) : List Byte :=
  let n := (x.2.flatMap id).length
  if !begun || stop < x.1 then natToBytes 24 0
  else
    let m := min n (stop - x.1)
    natToBytes 8 x.1 ++ natToBytes 8 m ++ natToBytes 4 (wholeItems m x.2) ++ natToBytes 4 (if m == n then 1 else 0)

/-- The dump header (Table 21.8). -/
def State.dumpHeader (s : State) (c : Context) (stat scode saddr total : Nat) (entries : List Byte) : List Byte :=
  let x := c.escalated.bind (fun e => (s.warp? e.1).bind (fun w => (w.record? e.2).map (fun r => (w, r))))
  let ds := s.workDies c.id
  natToBytes 4 0x4B57444D ++ natToBytes 4 1 ++ natToBytes 4 (stat + scode * 2 ^ 8) ++
    natToBytes 4 (c.id % 2 ^ 16 + (if ds.contains 0 then 2 ^ 16 else 0) + (if ds.contains 1 then 2 ^ 17 else 0)) ++
    natToBytes 8 c.haltAt ++ natToBytes 8 total ++ natToBytes 4 ((x.map (fun y => s.recordOffset y.1 y.2)).getD 0) ++
    natToBytes 1 ((x.map (·.1.die)).getD 0) ++ natToBytes 1 ((x.map (·.2.trap)).getD 0) ++ natToBytes 2 0 ++
    natToBytes 9 ((x.map (·.2.faddr)).getD 0) ++ natToBytes 15 0 ++ natToBytes 9 saddr ++ natToBytes 55 0 ++ entries ++
    natToBytes 8 0

/-- The placed sections of a context's dump. -/
def State.placedDump (s : State) (c : Context) : List (Nat × List (List Byte)) := placeSections 256 (s.dumpSections c)

/-- The bytes of the section that a dump writes next, from its last byte on, with zeros before the section (R448). -/
def State.sectionBytes (s : State) (c : Context) (d : DumpRun) : List Byte :=
  match (s.placedDump c)[d.next]? with
  | some x => List.replicate (x.1 - d.stop) 0 ++ x.2.flatMap id
  | none => []

/-- How many of n further bytes a dump can write, and what stops it there (R446). -/
def State.dumpReach (s : State) (c : Context) (d : DumpRun) (n : Nat) : Nat × Option (Nat × Nat × Nat) :=
  let room := min n (c.dumps - d.stop)
  match s.firstWriteTrap c (c.dumpb + d.stop) room with
  | some t => (t.2 - (c.dumpb + d.stop), some (1, t.1, t.2))
  | none => (room, if room < n then some (2, 0, 0) else none)

/-- The header of a dump is written, when its bytes can be (R444, R446). -/
def State.endDump (s : State) (c : Context) (d : DumpRun) (begun stat scode saddr : Nat) : State :=
  let xs := s.placedDump c
  let entries := (List.range xs.length).flatMap (fun k => sectionEntry d.stop (decide (k < begun)) (xs.getD k (0, [])))
  if c.dumps < 256 || (s.firstWriteTrap c c.dumpb 256).isSome then s
  else s.writeMainBytes c c.dumpb (s.dumpHeader c stat scode saddr d.stop entries)

/-- A section is written, up to the first byte that cannot be (R444, R446). -/
def State.dumpSection (s : State) (c : Context) (d : DumpRun) : State :=
  let bs := s.sectionBytes c d
  let n := s.dumpReach c d bs.length
  (s.writeMainBytes c (c.dumpb + d.stop) (bs.take n.1)).modCtx c.id (fun x =>
    { x with dumping := some { d with next := d.next + 1, stop := d.stop + n.1, cut := n.2 } })

/-- A device fault strikes during a dump (R446): any first bytes of the section in progress stand, and the header has STAT
3. -/
def State.abortDump (s : State) (c : Context) : State :=
  match c.dumping with
  | none => s
  | some d =>
    if c.dumped then s
    else
      let bs := s.sectionBytes c d
      let sent := ((List.range (s.dumpReach c d bs.length).1).takeWhile (fun k =>
        Config.byteSent ((c.id * 8 + d.next) * 2 ^ 72 + 2 ^ 71 + k))).length
      let n := if d.cut.isSome then 0 else sent
      (s.writeMainBytes c (c.dumpb + d.stop) (bs.take n)).endDump c { d with stop := d.stop + n } (d.next + 1) 3 0 0

/-- DEVICE_FAULT of contexts (R442); a dump of one of them that has not been made is aborted. All stop in one cycle: a freed
slot goes to no allocation of theirs. -/
def State.deviceFault (s : State) (ctxs : List Nat) : State :=
  let cut (s : State) (k : Nat) : State := (((s.ctx? k).map s.abortDump).getD s).cutWork k
  let drop (s : State) (k : Nat) : State :=
    (s.dropWork k 0x02).modCtx k (fun x => if x.escalated.isSome then { x with dumped := true } else x)
  (ctxs.foldl drop (ctxs.foldl cut s)).grantFreed

/-- Contexts with a warp or block resident on a core. -/
def State.ctxsOnCore (s : State) (die core : Nat) : List Nat :=
  ((s.warpsOn die core).map (·.ctx) ++ (s.blocksOn die core).map (·.ctx)).eraseDups

/-- Contexts that an uncorrectable error affects (Table 21.7). -/
def State.errorCtxs (s : State) (p : ErrorPlace) : List Nat :=
  match p with
  | .core d c => s.ctxsOnCore d c
  | .slice d line =>
    let on := s.ctxs.filter (fun c => c.residentOn d)
    let hold := on.filter (fun c => decide ((c.window d).1 ≤ 128 * line) && decide (128 * line < (c.window d).1 + (c.window d).2))
    (if hold.isEmpty then on else hold).map (·.id)
  | .dram c => if (s.ctx? c).isSome then [c] else []
  | .scrub => []

/-- `UNCORRECTABLE_ERROR` (R441, R442). -/
def execUncorrectableError (p : ErrorPlace) (s : State) : Host.Outcome State Fault Refusal :=
  .next (s.deviceFault (s.errorCtxs p))

/-- A launch of a context is unfinished. -/
def State.unfinished (s : State) (ctx : Nat) : Bool := s.launches.any (fun l => l.ctx == ctx)

/-- `WATCHDOG_EXPIRY` (R439). -/
def execWatchdogExpiry (ctx : Nat) (s : State) : Host.Outcome State Fault Refusal :=
  .next (match s.ctx? ctx with
    | none => s
    | some c => if c.wdgEn && c.wdgCount == 2 ^ c.wdgK.toNat && s.unfinished ctx then s.deviceFault [ctx] else s)

/-- `DIE_BRIDGE_LINK_LOSS` (R453, R441). -/
def execDieBridgeLinkLoss (s : State) : Host.Outcome State Fault Refusal :=
  .next (s.deviceFault ((s.workingOn 0 ++ s.workingOn 1).eraseDups))

/-- The engine operations of a context have completed or faulted and its stores are performed (R443 steps 2, 3). -/
def State.quiet (s : State) (f : Nat → Bool) : Bool :=
  s.ops.all (fun o => !f o.wid || o.complete || o.fault.isSome) &&
    s.warps.all (fun w => !f w.wid || decide (w.made ≤ w.prf))

/-- A traversal step, texture sample or gather of a warp is in flight (R236). -/
def Warp.reading (w : Warp) : Bool :=
  w.resident && w.records.any (fun r => r.state == .waiting && (r.wait == .traversal || r.wait == .texture || r.wait == .gather))

/-- `CORE_DUMP` (R443 steps 4, 5; R444): once the context is quiet, its dump begins; each later event writes a section, and
the last one the header, after which the context's launches end. -/
def execCoreDump (ctx : Nat) (s : State) : Host.Outcome State Fault Refusal :=
  .next (match s.ctx? ctx with
    | none => s
    | some c =>
      let ws := s.warps.filter (fun w => w.ctx == ctx)
      if c.escalated.isNone || c.dumped then s
      else
        match c.dumping with
        | none => if s.quiet (ws.map (·.wid)).contains && !ws.any (·.reading) then s.modCtx ctx (fun c => { c with dumping := some {} }) else s
        | some d =>
          let f := d.cut.getD (0, 0, 0)
          if d.next < 5 && d.cut.isNone then s.dumpSection c d
          else ((s.endDump c d d.next f.1 f.2.1 f.2.2).discardWork ctx 0x03).modCtx ctx (fun c => { c with dumped := true }))

end Sys2Proof.Machine
end

