-- ==== Sys2Proof/Machine/Switch.lean ====
section
/-! DEFINITION. Switching blocks out and in (spec/21_faults_and_preemption.md R434 to R438; spec/23_dies_host_and_startup.md
R460). -/

namespace Sys2Proof.Machine

/-- Warps of a block. -/
def State.warpsOf (s : State) (bid : Nat) : List Warp := s.warps.filter (fun w => w.block == some bid)

/-- A record as it is written into a save image (R437): a set held in place is written out in full (R432). -/
def Warp.savedRecord (w : Warp) (r : Record) : Record :=
  match r.place, r.state with
  | .slot _, .ready =>
    let live := w.liveSet 0
    { r with inPlace := false, place := .image false, live := live, saved := w.saveLanes r.lanes live, size := 320 + 128 * live.length }
  | .slot _, _ => r
  | .spill _ _, _ => { r with place := .image true }
  | _, _ => { r with place := .image false }

/-- Size of a block's save image (R437). -/
def State.imageSize (s : State) (b : Block) : Nat :=
  4096 + roundUp b.sharedSize 1024 + b.wbSize + (if b.holdsMxq then 32768 else 0) +
    ((s.warpsOf b.bid).flatMap (fun w => w.records.map (fun r => (w.savedRecord r).size))).foldl (· + ·) 0

/-- Every runnable or held lane set of a block becomes a pre-emption record (Table 21.5 step 1). -/
def State.preemptBlock (s : State) (b : Block) : State := (s.warpsOf b.bid).foldl (fun s w => s.preemptWarp w.wid) s

/-- The spill area has room for a block's save image, beside what is in use or granted to other saves (R434). -/
def State.saveRoom (s : State) (b : Block) : Bool :=
  let s1 := s.preemptBlock b
  (s1.findSpill b.ctx b.die (s1.imageSize b)).isSome

/-- A block begins its save (R437): step 1, and the granules of its image are set aside where there is room. -/
def State.beginSave (s : State) (b : Block) : State :=
  let s1 := s.preemptBlock b
  let at_ := s1.findSpill b.ctx b.die (s1.imageSize b)
  s1.modBlock b.bid (fun x =>
    { x with residency := .saving, switchFor := none, imageBase := at_.getD 0
             imageLen := if at_.isSome then roundUp (s1.imageSize b) 4096 else 0 })

/-- Switch modes (Table 21.4). -/
inductive SwitchMode
  | drain | flush | save | none_
  deriving DecidableEq, Repr

/-- The mode of a block that is to be switched out (R434). -/
def State.switchMode (s : State) (b : Block) : SwitchMode :=
  let r := ((s.launch? b.launch).map (·.lrec)).getD {}
  let e := r.est
  let n := b.issues
  let pseudo := b.kind == .task || b.kind == .handler
  if e != 0 && 3 * e ≤ 4 * n && (e : Int) - n ≤ 4096 * b.nwarp then .drain
  else if !pseudo && r.idempotent && !r.persistent && !r.det &&
      ((e != 0 && 4 * n < e) || (e == 0 && !s.saveRoom b)) then .flush
  else if s.saveRoom b then .save
  else .none_

/-- BLOCK_SWITCH_OUT (R434): a block begins to leave its core; under mode None it keeps running and is tried again. -/
def State.switchBlock (s : State) (q : Nat) (b : Block) : State :=
  match s.switchMode b with
  | .drain => s.modBlock b.bid (fun x => { x with residency := .draining (s.die b.die).clkr, switchFor := none })
  | .flush => s.modBlock b.bid (fun x => { x with residency := .flushing, switchFor := none })
  | .save => s.beginSave b
  | .none_ => s.modBlock b.bid (fun x => { x with switchFor := some q })

/-- Blocks of a queue's launches, with the task and handler warps of those launches (R434, R460). -/
def State.queueBlocks (s : State) (q : Nat) : List Block :=
  s.blocks.filter (fun b => (((s.launch? b.launch).bind s.queueOf) == some q))

/-- FLUSH_AND_RESTART (R436): the lanes, records and memory of the block go, and it starts again from entry later. -/
def State.flushBlock (s : State) (b : Block) : State :=
  let ws := s.warpsOf b.bid
  let mine := ws.map (·.wid)
  let s1 := (ws.foldl (fun s w => (s.markDiscarded w).leaveStack w) s).dropOps (fun o => mine.contains o.wid)
  ({ s1 with warps := s1.warps.filter (fun w => w.block != some b.bid) }).modBlock b.bid (fun x =>
    { x with residency := .restart, shared := [], wb := [], mxqs := [], barriers := [], rings := [], digests := []
             issues := 0, holdsMxq := false, sharedSize := 0, wbSize := 0 })

/-- A block's warps are quiet: no engine operation of theirs is in flight and their stores are performed. -/
def State.quietBlock (s : State) (b : Block) : Bool := s.quiet ((s.warpsOf b.bid).map (·.wid)).contains

/-- Where a block's save image goes: the granules set aside, else the lowest run that holds it (R437). -/
def State.imagePlace (s : State) (b : Block) : Option Nat :=
  if s.imageSize b ≤ b.imageLen then some b.imageBase else s.findSpill b.ctx b.die (s.imageSize b)

/-- `BLOCK_SAVE` (R437, Table 21.5 steps 5 and 6): once its operations have completed or faulted and its stores are
performed. The granules of the image read 0. -/
def execBlockSave (bid : Nat) (s : State) : Host.Outcome State Fault Refusal :=
  .next (match s.block? bid with
    | none => s
    | some b =>
      match b.residency == .saving && s.quietBlock b, s.imagePlace b with
      | true, some base =>
        let len := roundUp (s.imageSize b) 4096
        let mine := (s.warpsOf bid).map (·.wid)
        let s1 := s.spacePut (.spad b.die) base (List.replicate len 0)
        let s1 := (s1.ops.filter (fun o => mine.contains o.wid)).foldl (fun s o => s.loseHandle o) s1
        let s2 := s1.modBlock bid (fun x => { x with residency := .saved, imageBase := base, imageLen := len })
        { s2 with
          warps := s2.warps.map (fun w => if w.block == some bid then
            { w with resident := false, active := false, records := w.records.map w.savedRecord } else w)
          ops := s2.ops.map (fun o => if mine.contains o.wid && o.fault.isSome then { o with core := Config.coresPerDie } else o) }
      | _, _ => s)

/-- `DRAIN_TIMEOUT` (R435). -/
def execDrainTimeout (bid : Nat) (s : State) : Host.Outcome State Fault Refusal :=
  .next (match s.block? bid with
    | none => s
    | some b =>
      match b.residency with
      | .draining t =>
        if t + 2 ^ 20 ≤ (s.die b.die).clkr then
          s.beginSave b
        else s
      | _ => s)

/-- What a saved block needs of a core. -/
def State.blockNeed (s : State) (b : Block) : Need :=
  let ws := s.warpsOf b.bid
  { units := (ws.map (fun w => w.footprint / 32)).foldl (· + ·) 0, warps := ws.length, shared := roundUp b.sharedSize 1024
    weights := b.wbSize, mxq := b.holdsMxq }

/-- Bytes of the frames of the tasks on a core (R327). -/
def State.framesOn (s : State) (d c : Nat) : Nat :=
  (((s.warpsOn d c).filter (fun w => w.kind == .task)).map (fun w => 64 * w.frame)).foldl (· + ·) 0

/-- A core fits a saved block (R438, R327). -/
def State.blockFits (s : State) (b : Block) (c : Nat) : Bool :=
  s.memoryFits b.die c (s.blockNeed b) && s.warpsFit b.die c (s.blockNeed b) &&
    decide (s.framesOn b.die c + ((s.warpsOf b.bid).map (fun w => 64 * w.frame)).foldl (· + ·) 0 ≤ 65536 ∨ b.kind ≠ .task)

/-- A traversal step that a save withdrew (R385): its lanes issue it again, with the windows that it had read. -/
def State.withdrawStep (s : State) (wid : Nat) (r : Record) : State :=
  let b := (r.instr.map (·.operands.b)).getD (.spc .zero)
  s.updateRecord wid r.seq (fun x =>
    { x with before := true, state := .ready, wait := .nothing, pc := r.ipc, half := r.ihalf, repc := r.irepc
             results := r.vals.flatMap (fun v => dstWrites v.lane b v.b), readyAt := ((s.warp? wid).map (fun w => (s.die w.die).clkr)).getD 0 })

/-- A record as it is after a restore (R437, R438): a timed wait that has not ended gets status 3, its reservation
returned (R333); a word is read afresh. -/
def State.restoreWait (s : State) (w : Warp) (r : Record) : State :=
  if r.state != .waiting then s
  else if r.wait == .traversal then s.withdrawStep w.wid r
  else
    match r.wait, r.tmo != 31 with
    | .taskDone _ k, true =>
      (s.under w.ctx r.old (fun s => s.dqReserve w w.core (fun x => x - BitVec.ofNat 32 k))).cancel w.wid r
    | _, true => s.cancel w.wid r
    | .word _ _ _ _ _, false => s.rewait w.wid r.seq (.lines [])
    | .copy h _, false => s.rewait w.wid r.seq (.copy h false)
    | _, false => s

/-- A record that lay in the save image finds a place again: in the spill area alone if it lay there before (R221). -/
def State.replaceRecord (s : State) (wid : Nat) (r : Record) : State :=
  match r.place, s.warp? wid with
  | .image spilled, some w =>
    (match if spilled then s.findSpillPlace w r.size else s.findRoom w r.size with
     | some pl => (s.modRecord wid r.seq (fun x => { x with place := pl })).putRecord w { r with place := pl }
     | none => s)
  | _, _ => s

/-- Deque entries that a restored warp still has reserved (R333). -/
def Warp.stillReserved (w : Warp) : Nat :=
  (w.records.map (fun r => match r.state, r.wait, r.tmo == 31 with
    | .waiting, .taskDone _ k, true => k
    | _, _, _ => 0)).foldl (· + ·) w.reserved

/-- The deque entries that a warp has reserved move with it to the core of its restore. -/
def State.moveReserved (s : State) (w : Warp) (core : Nat) : State :=
  let k := BitVec.ofNat 32 w.stillReserved
  if w.stillReserved == 0 || w.core == core then s else (s.dqReserve w w.core (· - k)).dqReserve w core (· + k)

/-- BLOCK_RESTORE (R438): a saved block on a core. -/
def State.restoreBlock (s : State) (b : Block) (core : Nat) : State :=
  let s1 := s.modBlock b.bid (fun x => { x with residency := .resident, core := core, imageBase := 0, imageLen := 0 })
  let ws := s1.warpsOf b.bid
  ws.foldl (fun s w =>
    let s2 := s.modWarp w.wid (fun x =>
      { x with resident := true, active := true, core := core, port := s.newPort b.die core, matC := x.matL })
    w.records.foldl (fun s r => (s.replaceRecord w.wid r).restoreWait w r) (s2.moveReserved w core)) s1

/-- Restore every saved block of a queue that some core fits; IN becomes 1 once none is left (R460). -/
def State.restoreQueue (s : State) (q : Nat) : State :=
  let s1 := ((s.queueBlocks q).filter (fun b => b.residency == .saved)).foldl (fun s b =>
    match lowestCore (s.blockFits b) with
    | some c => s.restoreBlock b c
    | none => s) s
  if (s1.queueBlocks q).any (fun b => b.residency == .saved) then s1
  else s1.modQueue q (fun x =>
    { x with swIn := true, switching := .idle, progShown := none, tail := x.latched.getD x.tail, latched := none
             stopped := x.stopped && (x.err || !(x.rewritten || x.latched.isSome))
             rewritten := x.stopped && x.err && (x.rewritten || x.latched.isSome) })

/-- A queue's switch-out goes on: when the last block is out, IN becomes 0; a switch-in goes on (R460). -/
def State.switchQueue (s : State) (q : Nat) : State :=
  let x := s.queue q
  match x.switching with
  | .idle => s
  | .inward => s.restoreQueue q
  | m =>
    if (s.queueBlocks q).any (·.onCore) then s
    else s.modQueue q (fun x => { x with swIn := false, switching := if m == .outThenIn then .inward else .idle })

/-- A write of QCTL.EN (R460). -/
def State.setEnable (s : State) (q : Nat) (en : Bool) : State :=
  let x := s.queue q
  if x.en == en then s
  else
    let s1 := s.modQueue q (fun x => { x with en := en, progShown := some x.prog })
    if !en then
      let s2 := s1.modQueue q (fun x => { x with switching := .out })
      (((s2.queueBlocks q).filter (fun b => b.residency == .resident)).foldl (fun s b => s.switchBlock q b) s2).switchQueue q
    else if x.switching == .out then s1.modQueue q (fun x => { x with switching := .outThenIn })
    else (s1.modQueue q (fun x => { x with switching := .inward })).switchQueue q

/-- `QUEUE_SWITCH_OUT` (R460). -/
def execQueueSwitchOut (q : Nat) (s : State) : Host.Outcome State Fault Refusal := .next (s.setEnable q false)
/-- `QUEUE_SWITCH_IN` (R460). -/
def execQueueSwitchIn (q : Nat) (s : State) : Host.Outcome State Fault Refusal := .next (s.setEnable q true)

/-- Switches under way go on: blocks that waited for a mode, flushes, queues. -/
def State.switchTick (s : State) : State :=
  let s1 := s.blocks.foldl (fun s b =>
    match s.block? b.bid with
    | none => s
    | some b =>
      match b.residency, b.switchFor with
      | .resident, some q =>
        if (s.queue q).switching == .out || (s.queue q).switching == .outThenIn then s.switchBlock q b
        else s.modBlock b.bid (fun x => { x with switchFor := none })
      | .flushing, _ => if s.quietBlock b then s.flushBlock b else s
      | _, _ => s) s
  (List.range 16).foldl (fun s q => s.switchQueue q) s1

end Sys2Proof.Machine
end

