-- ==== Sys2Proof/Machine/WarpEvents.lean ====
section
/-! DEFINITION. Steps of warps that no encoding names: code fills (R75), join release (R174), starvation, boost and
demotion (R171, R184, R185), timeouts, resumption and re-entry (R213, R219, R224, R227), stores performed (R231),
scratchpad lines (R212), chained requests (R249), task starts (R327, R328), deliveries of traversal, texture and gather. -/

namespace Sys2Proof.Machine

/-- Capacity of an instruction cache (R75): 170 lines of 32 internal words. -/
def icacheWords : Nat := 5440

/-- Internal words that a cached word costs (R75): a prefix none, an X head with its extension one, a P word two. -/
def CodeWord.cost (all : List CodeWord) (x : CodeWord) : Nat :=
  let v := x.word.toNat
  let extends_ (y : CodeWord) : Bool := y.ctx == x.ctx && y.base == x.base && y.pc + 8 == x.pc && isXHead y.word.toNat
  if v / 2 ^ 60 == 14 || all.any extends_ then 0 else if v / 2 ^ 62 == 2 then 2 else 1

/-- The first words of a list that so many internal words hold. -/
def wordsWithin (all : List CodeWord) : Nat → List CodeWord → List CodeWord
  | _, [] => []
  | n, x :: xs => if x.cost all ≤ n then x :: wordsWithin all (n - x.cost all) xs else []

/-- Read a code word as a fill does (R75, R428): it needs X; none where the fill does not translate. -/
def State.fillWord (s : State) (ctx base pc : Nat) : Option Dword :=
  match s.ctx? ctx with
  | none => none
  | some c =>
    match s.readMainBytes c (base + pc) (2 ^ 202 + s.fresh) .fill 8 with
    | .ok bs => some (BitVec.ofNat 64 (bytesToNat bs))
    | .trap _ _ => none

/-- `INSTRUCTION_CACHE_FILL` (R75): a code word enters a core's instruction cache. -/
def execInstructionCacheFill (die core ctx base pc : Nat) (s : State) : Host.Outcome State Fault Refusal :=
  .next (match s.fillWord ctx base pc with
    | none => s
    | some w =>
      let s1 : State := { s with fresh := s.fresh + 8 }
      (s1.holdEntry ctx (base + pc)).modCore die core (fun x =>
        let rest := x.icache.filter (fun y => !(y.ctx == ctx && y.base == base && y.pc == pc))
        let all := (⟨ctx, base, pc, w⟩ : CodeWord) :: rest
        { x with icache := wordsWithin all icacheWords all }))

/-- The lowest join address at which lanes of a warp are held (R174). -/
def Warp.lowestJoin (w : Warp) : Option Nat :=
  (sortBy (fun a b => decide (a < b)) ((w.lanes.filter (fun x => x.st == .held)).map (·.pc))).head?

/-- `JOIN_RELEASE` (R174): when no lane of the warp is runnable. -/
def execJoinRelease (wid : Nat) (s : State) : Host.Outcome State Fault Refusal :=
  .next (match s.warp? wid with
    | none => s
    | some w =>
      match w.lanes.any (fun x => x.st == .runnable), w.lowestJoin with
      | false, some j =>
        s.modWarp wid (fun w =>
          { w with lanes := w.lanes.map (fun x => if x.st == .held && x.pc == j then { x with st := .runnable, pc := j + 8, half := 0 } else x) })
      | _, _ => s)

/-- `LANE_SET_STARVED` (R171): a lane that was passed over 64 times starves its set. -/
def execLaneSetStarved (wid lane : Nat) (s : State) : Host.Outcome State Fault Refusal :=
  .next (s.modLane wid lane (fun x => if 64 ≤ x.passed then { x with starved := true } else x))

/-- `WARP_BOOST` (R184). -/
def execWarpBoost (wid : Nat) (s : State) : Host.Outcome State Fault Refusal :=
  .next (s.modWarp wid (fun w => if 2048 ≤ w.readyCycles then { w with boosted := true } else w))

/-- `SPIN_DEMOTE` (R185). -/
def execSpinDemote (wid : Nat) (s : State) : Host.Outcome State Fault Refusal :=
  .next (s.modWarp wid (fun w => if 16 ≤ w.loopCount then { w with demoted := true } else w))

/-- A wait that a timeout ends (R224): lines, fills, engine answers and chained requests are not timed. -/
def Wait.timed : Wait → Bool
  | .word _ _ _ _ _ | .copy _ _ | .byteBarrier _ _ _ | .barrier _ _ | .qPush _ | .qPop _ | .ring _ _ _ | .task _ _ | .ticket _
  | .mxq _ | .slot _ | .fence _ | .taskDone _ _ => true
  | _ => false

/-- Waiting records of a warp are served while it is on a core (R437): those of a halted context become ready too (R448). -/
def State.serves (_s : State) (w : Warp) : Bool := w.resident

/-- The deadline of a waiting record has passed (R224). -/
def State.timedOut (s : State) (w : Warp) (r : Record) : Bool :=
  s.serves w && r.state == .waiting && r.tmo != 31 && r.wait.timed && !(BitVec.ofNat 32 (s.ctxClk w.ctx) - r.deadline).msb

/-- A waiting record times out (R224): status 1; wait.addr also receives the word as it stands, without a store that has not
been performed (R271); task.done gives its reservation back (R333). -/
def State.timeOut (s : State) (w : Warp) (r : Record) : State :=
  match r.wait, r.instr with
  | .word sh a _ _ latch, some i =>
    let now := (latch.map (·.before)).getD (s.spaceWord (w.space sh) a)
    s.ready w.wid r.seq (waitWrites i.operands r.vals 1 now)
  | .taskDone _ k, _ => (s.dqReserve w w.core (fun x => x - BitVec.ofNat 32 k)).readyStatus w.wid r 1
  | .slot _, _ => (s.readyStatus w.wid r 1).grantWaiters w.die Config.combineSlots
  | _, _ => s.readyStatus w.wid r 1

/-- `WAIT_TIMEOUT` (R224). -/
def execWaitTimeout (wid seq : Nat) (s : State) : Host.Outcome State Fault Refusal :=
  .next (match s.warp? wid with
    | none => s
    | some w =>
      match w.record? seq with
      | some r => if s.timedOut w r then s.under w.ctx r.old (fun s => s.timeOut w r) else s
      | none => s)

/-- A warp's block is being flushed or saved, or is out: no record of it resumes. -/
def State.stopped (s : State) (w : Warp) : Bool :=
  match s.blockOf w with
  | none => false
  | some b => b.residency == .flushing || b.residency == .saving || !b.onCore

/-- Lanes of a warp may run: it is resident, in the active scheduling set, and neither halted nor leaving. -/
def State.mayRun (s : State) (w : Warp) : Bool := w.resident && w.active && !s.halted w && !s.stopped w

/-- The ready record of a warp that resumes first (R227). -/
def Warp.nextReady (w : Warp) : Option Record :=
  (sortBy (fun a b => recordLt [a.readyAt] [b.readyAt] a.seq b.seq) (w.records.filter (fun r => r.state == .ready))).head?

/-- `RECORD_RESUME` (R219, R227). -/
def execRecordResume (wid seq : Nat) (s : State) : Host.Outcome State Fault Refusal :=
  .next (match s.warp? wid with
    | none => s
    | some w => if !s.resumed.contains wid && s.mayRun w && !s.givesWay w &&
        (w.nextReady.map (·.seq)) == some seq then s.resumeRecord wid seq else s)

/-- Cycle in which a warp outside the set first had a ready record. -/
def Warp.readyFrom (w : Warp) : Nat := ((w.nextReady).map (·.readyAt)).getD 0

/-- Warps of a core that wait to re-enter the active scheduling set, in order (R213). -/
def State.reenterers (s : State) (die core : Nat) : List Warp :=
  sortBy (fun a b => lexLt [a.readyFrom, a.wid] [b.readyFrom, b.wid])
    ((s.warpsOn die core).filter (fun w => !w.active && w.nextReady.isSome && !s.stopped w && !s.halted w))

/-- `WARP_REENTER` (R213, R431): placement of a waiting block of class RT goes first. -/
def execWarpReenter (wid : Nat) (s : State) : Host.Outcome State Fault Refusal :=
  .next (match s.warp? wid with
    | none => s
    | some w =>
      let n : Need := { units := w.footprint / 32, warps := 0 }
      let room := decide (s.unitsUsed w.die w.core + n.units ≤ Config.fastUnits) && decide (s.activeOn w.die w.core < Config.activeWarps)
      if !s.rtWaits w.die w.core && room && ((s.reenterers w.die w.core).head?.map (·.wid)) == some wid then
        s.modWarp wid (fun w => { w with active := true })
      else s)

/-- `STORE_PERFORMED` (R231, R244): the oldest store or atomic of a warp that has been made reaches its bank or slice. -/
def execStorePerformed (wid : Nat) (s : State) : Host.Outcome State Fault Refusal :=
  .next (s.modWarp wid (fun w => if w.prf < w.made then { w with prf := w.prf + 1 } else w))

/-- A record on a core waits for a line of the scratchpad (R212). -/
def State.wantsLine (s : State) (die core line : Nat) : Bool :=
  (s.warpsOn die core).any (fun w => w.records.any (fun r => r.state == .waiting && (match r.wait with
    | .fill ls => ls.contains line
    | _ => false)))

/-- `SCRATCHPAD_LINE_FILL` (R212): the line enters the core's scratchpad cache of 1,024 lines. -/
def execScratchpadLineFill (die core line : Nat) (s : State) : Host.Outcome State Fault Refusal :=
  .next (
    if s.wantsLine die core line && !(s.core die core).spadLines.contains line then
      s.modCore die core (fun x => { x with spadLines := (line :: x.spadLines).take 1024 })
    else s)

/-- A warp of a DET launch has applied execution k of a site, or can no longer make it (R249). -/
def pastRequest (pc idx k : Nat) (w : Warp) : Bool :=
  w.allEnded || (decide (k ≤ w.executions pc idx) &&
    !w.records.any (fun r => r.state == .waiting && (match r.wait with
      | .det p i n => p == pc && i == idx && n == k
      | _ => false)))

/-- Every lower warp of the launch has passed a request (R249). DESIGN CHOICE (assumption log 49): a request of a task
warp, which has no block index of its own, waits for every block warp of the launch, and no request waits for a task's;
handler warps make none. -/
def State.requestTurn (s : State) (w : Warp) (pc idx k : Nat) : Bool :=
  s.warps.all (fun x => x.launch != w.launch || x.kind != .block ||
    !lexLt [x.blockIdx, x.index] [w.blockIdx, w.index] || pastRequest pc idx k x)

/-- `DET_REQUEST_APPLY` (R248, R249): an owned line is waited for; the lanes become ready with their results. -/
def execDetRequestApply (wid seq : Nat) (s : State) : Host.Outcome State Fault Refusal :=
  .next (match s.warp? wid with
    | none => s
    | some w =>
      match w.record? seq with
      | none => s
      | some r =>
        match r.wait, r.instr with
        | .det pc idx k, some i => s.under w.ctx r.old (fun s =>
          let ks := s.blockers w (atmShared i) 4 (r.vals.map (fun v => atmOffset i v.b0))
          if !s.serves w || r.state != .waiting || !s.requestTurn w pc idx k || !ks.isEmpty then s
          else
            (s.foldInPlace wid seq (fun s =>
              let t := atomicApply i (w.made + 1) s w r.vals
              some (t.s.ready wid seq t.ws))).getD s)
        | _, _ => s)

/-- A record of a warp, for an event that names one. -/
def State.withRecord (s : State) (wid seq : Nat) (f : State → Warp → Record → State) : State :=
  match s.warp? wid with
  | none => s
  | some w =>
    match w.record? seq with
    | some r => if s.serves w && r.state == .waiting then s.under w.ctx r.old (fun s => f s w r) else s
    | none => s

/-- `TRAVERSAL_READ_COMPLETE` (R385). -/
def execTraversalReadComplete (wid seq : Nat) (s : State) : Host.Outcome State Fault Refusal :=
  .next (s.withRecord wid seq State.traversalComplete)
/-- `TEXTURE_SAMPLE_COMPLETE` (R390). -/
def execTextureSampleComplete (wid seq : Nat) (s : State) : Host.Outcome State Fault Refusal :=
  .next (s.withRecord wid seq State.textureComplete)
/-- `SAMPLE_GATHER_COMPLETE` (R366). -/
def execSampleGatherComplete (wid seq : Nat) (s : State) : Host.Outcome State Fault Refusal :=
  .next (s.withRecord wid seq State.gatherComplete)

/-- The launch that a tag of a context on a die names (R337): one that runs, or the launch of a kind of sample warp or of
the reconstruction, which is of class RT (R369), read from the record that its register names. -/
def State.tagLaunch (s : State) (ctx die tag : Nat) : Option Launch × State :=
  match s.launches.find? (fun l => l.ctx == ctx && l.die == die && l.tag == tag && l.running) with
  | some l => (some l, s)
  | none =>
    let r := (s.die die).render
    let named : Option (Word × Bool) := if r.rayl != 0 && r.rayTag == tag then some (r.rayl, false)
      else if r.prbl != 0 && r.prbTag == tag then some (r.prbl, false)
      else if r.recTag != 0 && r.recTag == tag then some (r.recl, true) else none
    match s.ctx? ctx, named with
    | none, _ => (none, s)
    | _, none => (none, s)
    | some c, some (reg, recon) =>
      if !r.ownedBy ctx || !c.windowOk die reg.toNat 128 false then (none, s)
      else
        let named := recordOf (s.spaceBytes (.spad die) ((c.window die).1 + reg.toNat) 128)
        let lr := if recon then { named with cls := 0 } else named
        match s.readImage ctx lr.code with
        | (some m, s1) => (some { lid := 0, kind := .sample false, ctx := ctx, die := die, lrec := lr, image := m.1, tag := tag }, s1)
        | (none, s1) => (none, s1)

/-- The core as a task's events see it. -/
def coreWarp (die core ctx : Nat) : Warp := { wid := 0, die := die, core := core, ctx := ctx }

/-- A core fits the task of a TCB (R327), and its launch may run. -/
def State.taskFits (s : State) (die core ctx t : Nat) : Bool :=
  let w := coreWarp die core ctx
  let foot := s.tcbField w t 46 2
  let l := (s.tagLaunch ctx die (s.tcbField w t 60 2)).1
  let queueOk := match l.bind s.queueOf with
    | some q => (s.queue q).en && (s.queue q).swIn && (s.queue q).switching == .idle
    | none => true
  s.tcbTrap w t == 0 && l.isSome && queueOk && !s.halted w &&
    s.warpsFit die core { units := foot % 32, warps := 1 } &&
    decide (s.framesOn die core + 64 * (foot / 32) ≤ 65536) && (s.findSpill ctx die 0x9000).isSome

/-- Start the task at an end of a core's deque (R326 to R328). -/
def State.startTask (s : State) (die core ctx victim : Nat) (owner : Bool) : State :=
  let v := coreWarp die core ctx
  match s.dqTake v victim owner 3, s.findSpill ctx die 0x9000 with
  | some (t, s1), some seg =>
    (match s1.tagLaunch ctx die (s1.tcbField v t 60 2) with
     | (some l, s2) =>
       let foot := s2.tcbField v t 46 2
       let args := (List.range 8).map (fun k => BitVec.ofNat 32 (s2.tcbField v t (4 + 4 * k) 4))
       let bid := s2.nextId
       let b : Block :=
         { bid := bid, kind := .task, launch := l.lid, ctx := ctx, die := die, core := core, index := 0xFFFFFFFF }
       let w := s2.freshWarp (bid + 1) die core ctx seg l.image (s2.tcbField v t 0 4) args (fun _ => args)
       let w : Warp :=
         { w with kind := .task, launch := l.lid, block := some bid, blockIdx := 0xFFFFFFFF, lastBlk := 0xFFFFFFFF
                  footprint := 32 * (foot % 32), frame := foot / 32, tcb := BitVec.ofNat 32 t, depth := s2.tcbDepth v t
                  tag := s2.tcbField v t 60 2, prioClass := l.lrec.cls, prioLevel := l.lrec.level }
       ({ s2 with nextId := bid + 2, blocks := s2.blocks ++ [b], warps := s2.warps ++ [w] }).freshCode die core ctx l.image.base
     | (none, _) => s)
  | _, _ => s

/-- The task at the owner end of a core's own deque fits it. -/
def State.ownTaskFits (s : State) (die core ctx : Nat) : Bool :=
  match s.dqPeek (coreWarp die core ctx) core true with
  | some t => s.taskFits die core ctx t
  | none => false

/-- `TASK_START` (R327). -/
def execTaskStart (die core ctx : Nat) (s : State) : Host.Outcome State Fault Refusal :=
  .next (if s.ownTaskFits die core ctx then s.startTask die core ctx core true else s)

/-- The deque a core steals from (R327): the largest count among those whose thief-end task it fits, on a tie the lower
core. -/
def State.victim (s : State) (die core ctx : Nat) : Option Nat :=
  let v := coreWarp die core ctx
  let cs := (List.range Config.coresPerDie).filter (fun c => c != core && (match s.dqPeek v c false with
    | some t => s.taskFits die core ctx t
    | none => false))
  (sortBy (fun a b => lexLt [2 ^ 32 - s.dqCount v a, a] [2 ^ 32 - s.dqCount v b, b]) cs).head?

/-- `TASK_STEAL` (R327). -/
def execTaskSteal (die core ctx : Nat) (s : State) : Host.Outcome State Fault Refusal :=
  .next (
    if s.ownTaskFits die core ctx then s
    else
      match s.victim die core ctx with
      | some c => s.startTask die core ctx c false
      | none => s)

end Sys2Proof.Machine
end

