-- ==== Sys2Proof/Machine/EngineEvents.lean ====
section
/-! DEFINITION. Steps of the engines: lines released, blocks written, copies that complete or fault (R237 to R243, R288 to
R292), matrix operations (R299 to R317), forwarded records (R365), and the Combine Unit (R402 to R406). -/

namespace Sys2Proof.Machine

/-- A copy operation that is neither complete nor faulted. -/
def State.liveCopy (s : State) (oid : Nat) : Option (EngineOp × CopyOp) :=
  match s.op? oid with
  | some o =>
    (match o.kind with
     | .copy c => if o.complete || o.fault.isSome then none else some (o, c)
     | _ => none)
  | none => none

/-- Destination lines that hold bytes below a limit. -/
def CopyOp.linesBelow (c : CopyOp) (o : EngineOp) (limit : Nat) : List LineKey :=
  let pl := c.place o (dirSides (cpDir c.desc)).2
  ((List.range limit).flatMap (fun i => spaceLines pl.1 (pl.2 + cpTo c.desc i) 1)).eraseDups

/-- Every byte of a copy below a limit is written (R289, R291). -/
def CopyOp.wrote (c : CopyOp) (o : EngineOp) (limit : Nat) : Bool :=
  if (dirSides (cpDir c.desc)).2 == .main then (c.blocks limit).all c.written.contains
  else (c.linesBelow o limit).all c.released.contains

/-- An operation issued before a write of TTB2 keeps the entries that it holds (R430). -/
def State.keepEntries (s : State) (o : EngineOp) : State :=
  match o.old.table, s.ctx? o.ctx with
  | some _, some c => s.modOp o.oid (fun x => { x with old := { x.old with table := some c.table } })
  | _, _ => s

/-- An event of an operation, under the registers with which it was issued (R31). -/
def State.opEvent (s : State) (op : Nat) (f : State → EngineOp → State) : State :=
  match s.op? op with
  | none => s
  | some o => s.under o.ctx o.old (fun s => (f s o).keepEntries o)

/-- An event of a copy that is neither complete nor faulted. -/
def State.copyEvent (s : State) (op : Nat) (f : State → EngineOp → CopyOp → State) : State :=
  s.opEvent op (fun s _ => match s.liveCopy op with
    | some x => f s x.1 x.2
    | none => s)

/-- `ENGINE_LINE_RELEASE` (R237): of a copy or weight load, or of wb.clr. -/
def execEngineLineRelease (op : Nat) (line : LineKey) (s : State) : Host.Outcome State Fault Refusal :=
  .next (s.opEvent op (fun s o => match o.kind with
    | .copy c => if o.complete || o.fault.isSome then s else s.copyRelease o c line
    | .clear off len released => if o.complete then s else s.clearRelease o off len released line
    | _ => s))

/-- `COPY_BLOCK_WRITTEN` (R289). -/
def execCopyBlockWritten (op block : Nat) (s : State) : Host.Outcome State Fault Refusal :=
  .next (s.copyEvent op (fun t o c => t.copyBlock s o c block))

/-- `REMOTE_LINE_ACQUISITION` (R237, R246): the copy asks for its destination lines on the other die. -/
def execRemoteLineAcquisition (op : Nat) (s : State) : Host.Outcome State Fault Refusal :=
  .next (s.copyEvent op (fun s o c =>
    if (dirSides (cpDir c.desc)).2 == .other && !c.remote then
      (s.own (.op op) (c.lines o)).modCopy op (fun c => { c with remote := true })
    else s))

/-- `COPY_COMPLETE` (R240, R290): every byte is written and every arrival made. -/
def execCopyComplete (op : Nat) (s : State) : Host.Outcome State Fault Refusal :=
  .next (s.copyEvent op (fun s o c =>
    if (s.firstFault o c).isNone && c.wrote o (cpTotal c.desc) then s.finishCopy o c else s))

/-- Write what a copy must write before its first faulting byte (R291), in copy order. -/
def State.writeEarlier (s outside : State) (o : EngineOp) (c : CopyOp) (limit : Nat) : State :=
  let ks := if (dirSides (cpDir c.desc)).2 == .main then [] else c.linesBelow o limit
  let s1 := ks.foldl (fun s k => if c.released.contains k then s else s.copyRelease o c k) s
  (c.blocks limit).foldl (fun s b => if c.written.contains b then s else s.copyBlock outside o c b) s1

/-- `COPY_FAULT` (R291): the bytes before the first faulting one are written, as far as the lines they need allow, and
once they are the copy faults. -/
def execCopyFault (op : Nat) (s : State) : Host.Outcome State Fault Refusal :=
  .next (s.copyEvent op (fun t o c =>
    match t.firstFault o c with
    | none => t
    | some f =>
      let s1 := t.writeEarlier s o c f.1
      match s1.liveCopy op with
      | some y => if y.2.wrote y.1 f.1 then s1.faultCopy y.1 y.2 f.2.1 f.2.2 else t
      | none => t))

/-- A matrix operation. -/
def State.matrixOp (s : State) (oid : Nat) : Option (EngineOp × MatrixOp) :=
  match s.op? oid with
  | some o =>
    (match o.kind with
     | .matrix m => some (o, m)
     | _ => none)
  | none => none

/-- An event of a matrix operation. -/
def State.matrixEvent (s : State) (op : Nat) (f : State → EngineOp → MatrixOp → State) : State :=
  s.opEvent op (fun s _ => match s.matrixOp op with
    | some x => f s x.1 x.2
    | none => s)

/-- `MATRIX_START` (R299, R312). -/
def execMatrixStart (op : Nat) (s : State) : Host.Outcome State Fault Refusal :=
  .next (s.matrixEvent op State.startMatrix)
/-- `MXQ_ROW_PUSH` (R316, R317). -/
def execMxqRowPush (op : Nat) (s : State) : Host.Outcome State Fault Refusal :=
  .next (s.matrixEvent op State.pushRow)
/-- `MATRIX_COMPLETE` (R299, R300). -/
def execMatrixComplete (op : Nat) (s : State) : Host.Outcome State Fault Refusal :=
  .next (s.matrixEvent op State.completeMatrix)

/-- `FORWARDED_RECORD_ARRIVAL` (R365). -/
def execForwardedRecordArrival (op : Nat) (s : State) : Host.Outcome State Fault Refusal :=
  .next (s.opEvent op (fun s o => match o.kind with
    | .forward t bs => if o.complete then s else s.forwardArrive o t bs
    | _ => s))

/-- A put on its way. -/
def State.putOp (s : State) (oid : Nat) : Option (EngineOp × PutOp) :=
  match s.op? oid with
  | some o =>
    (match o.kind with
     | .put p => some (o, p)
     | _ => none)
  | none => none

/-- An event of a put. -/
def State.putEvent (s : State) (op : Nat) (f : State → EngineOp → PutOp → State) : State :=
  s.opEvent op (fun s _ => match s.putOp op with
    | some x => f s x.1 x.2
    | none => s)

/-- `PUT_FIRST_BYTE` (R402). -/
def execPutFirstByte (op : Nat) (s : State) : Host.Outcome State Fault Refusal :=
  .next (s.putEvent op State.putFirst)
/-- `PUT_ARRIVAL` (R402, R403). -/
def execPutArrival (op : Nat) (s : State) : Host.Outcome State Fault Refusal :=
  .next (s.putEvent op State.putArrive)
/-- `COMBINE_DEADLINE` (R404). -/
def execCombineDeadline (die slot : Nat) (s : State) : Host.Outcome State Fault Refusal := .next (s.slotDeadline die slot)
/-- `COMBINE_RELEASE` (R405, R406). -/
def execCombineRelease (die slot : Nat) (s : State) : Host.Outcome State Fault Refusal := .next (s.slotRelease die slot)

end Sys2Proof.Machine
end

