-- ==== Sys2Proof/Machine/Crypto.lean ====
section
/-! DEFINITION. The digest and the signature that R472 names (spec/23_dies_host_and_startup.md): SHAKE256, and pure Ed448
with an empty context. The spec names the two functions and RFC 8032; their arithmetic is PRESUMED from the published
standards (assumption log 57). -/

namespace Sys2Proof.Machine

/-- Rotation offsets of Keccak by lane x + 5y. -/
def keccakOffsets : List Nat :=
  [0, 1, 62, 28, 27, 36, 44, 6, 55, 20, 3, 10, 43, 25, 39, 41, 45, 15, 21, 8, 18, 2, 61, 56, 14]

/-- Round constants of Keccak. -/
def keccakConstants : List Nat :=
  [0x0000000000000001, 0x0000000000008082, 0x800000000000808A, 0x8000000080008000, 0x000000000000808B, 0x0000000080000001,
   0x8000000080008081, 0x8000000000008009, 0x000000000000008A, 0x0000000000000088, 0x0000000080008009, 0x000000008000000A] ++
  [0x000000008000808B, 0x800000000000008B, 0x8000000000008089, 0x8000000000008003, 0x8000000000008002, 0x8000000000000080,
   0x000000000000800A, 0x800000008000000A, 0x8000000080008081, 0x8000000000008080, 0x0000000080000001, 0x8000000080008008]

/-- One round of Keccak over 25 lanes of 64 bits. -/
def keccakRound (a : List Dword) (rc : Nat) : List Dword :=
  let at_ (m : List Dword) (k : Nat) : Dword := m.getD k 0
  let c := (List.range 5).map (fun x => at_ a x ^^^ at_ a (x + 5) ^^^ at_ a (x + 10) ^^^ at_ a (x + 15) ^^^ at_ a (x + 20))
  let t := (List.range 25).map (fun k => at_ a k ^^^ at_ c ((k + 4) % 5) ^^^ (at_ c ((k + 1) % 5)).rotateLeft 1)
  let b := (List.range 25).map (fun k =>
    let j := (3 * (k / 5) + k % 5) % 5 + 5 * (k % 5)
    (at_ t j).rotateLeft (keccakOffsets.getD j 0))
  let n := (List.range 25).map (fun k =>
    let y := k / 5 * 5
    at_ b k ^^^ (~~~(at_ b (y + (k + 1) % 5)) &&& at_ b (y + (k + 2) % 5)))
  (at_ n 0 ^^^ BitVec.ofNat 64 rc) :: n.drop 1

/-- The permutation of Keccak. -/
def keccak (a : List Dword) : List Dword := keccakConstants.foldl keccakRound a

/-- The first n bytes, at most 136, of SHAKE256 of a message. -/
def shake256 (n : Nat) (m : List Byte) : List Byte :=
  let blocks := m.length / 136 + 1
  let fill := 136 * blocks - m.length
  let pad : List Byte := if fill == 1 then [0x9F] else 0x1F :: (List.replicate (fill - 2) 0 ++ [0x80])
  let ms := m ++ pad
  let absorb (a : List Dword) (k : Nat) : List Dword :=
    keccak ((List.range 25).map (fun j =>
      if j < 17 then a.getD j 0 ^^^ BitVec.ofNat 64 (bytesToNat ((ms.drop (136 * k + 8 * j)).take 8)) else a.getD j 0))
  (((List.range blocks).foldl absorb (List.replicate 25 0)).flatMap (fun x => natToBytes 8 x.toNat)).take n

/-- The 64-byte digest (R472). -/
def digest64 (m : List Byte) : List Byte := shake256 64 m

/-- The prime of Ed448. -/
def ed448Prime : Nat := 2 ^ 448 - 2 ^ 224 - 1
/-- The order of its base point. -/
def ed448Order : Nat := 2 ^ 446 - 13818066809895115352007386748515426880336692474882178609894547503885

/-- A point in projective coordinates. -/
structure EdPoint where
  x : Nat
  y : Nat
  z : Nat
  deriving DecidableEq, Repr

/-- The base point of Ed448. -/
def ed448Base : EdPoint :=
  { x := 224580040295924300187604334099896036246789641632564134246125461686950415467406032909029192869357953282578032075146446173674602635247710
    y := 298819210078481492676017930443930673437544040154080242095928241372331506189835876003536878655418784733982303233503462500531545062832660
    z := 1 }

/-- Difference modulo the prime. -/
def ed448Sub (a b : Nat) : Nat := (a % ed448Prime + ed448Prime - b % ed448Prime) % ed448Prime

/-- The constant d of the curve. -/
def ed448D : Nat := ed448Prime - 39081

/-- Addition of points. -/
def EdPoint.add (p q : EdPoint) : EdPoint :=
  let m := ed448Prime
  let a := p.z * q.z % m
  let b := a * a % m
  let c := p.x * q.x % m
  let d := p.y * q.y % m
  let e := ed448D * c % m * d % m
  let f := ed448Sub b e
  let g := (b + e) % m
  let h := (p.x + p.y) % m * ((q.x + q.y) % m) % m
  { x := a * f % m * ed448Sub h (c + d) % m, y := a * g % m * ed448Sub d c % m, z := f * g % m }

/-- Multiplication of a point by a number below 2^460. -/
def EdPoint.mul (k : Nat) (p : EdPoint) : EdPoint :=
  (List.range 460).foldl (fun acc i =>
    let acc2 := acc.add acc
    if k / 2 ^ (459 - i) % 2 == 1 then acc2.add p else acc2) { x := 0, y := 1, z := 1 }

/-- A power modulo the prime, for exponents below 2^460. -/
def ed448Pow (a e : Nat) : Nat :=
  (List.range 460).foldl (fun acc i =>
    let acc2 := acc * acc % ed448Prime
    if e / 2 ^ (459 - i) % 2 == 1 then acc2 * a % ed448Prime else acc2) 1

/-- The 57 bytes of a point. -/
def EdPoint.encode (p : EdPoint) : List Byte :=
  let i := ed448Pow p.z (ed448Prime - 2)
  natToBytes 57 (p.y * i % ed448Prime + p.x * i % ed448Prime % 2 * 2 ^ 455)

/-- The point that 57 bytes encode. -/
def ed448Decode (bs : List Byte) : Option EdPoint :=
  let m := ed448Prime
  let n := bytesToNat bs
  let y := n % 2 ^ 455
  let sign := n / 2 ^ 455
  let u := ed448Sub (y * y) 1
  let v := ed448Sub (ed448D * y % m * y) 1
  let u3v := u * u % m * u % m * v % m
  let w := u3v * u % m * u % m * v % m * v % m
  let x := u3v * ed448Pow w ((m - 3) / 4) % m
  if bs.length != 57 || m ≤ y || v * x % m * x % m != u || (x == 0 && sign == 1) then none
  else some { x := if x % 2 == sign then x else m - x, y := y, z := 1 }

/-- Two points are the same. -/
def EdPoint.same (p q : EdPoint) : Bool :=
  p.x * q.z % ed448Prime == q.x * p.z % ed448Prime && p.y * q.z % ed448Prime == q.y * p.z % ed448Prime

/-- The prefix of the hashed text for an empty context: "SigEd448", 0, 0. -/
def ed448Dom : List Byte := [0x53, 0x69, 0x67, 0x45, 0x64, 0x34, 0x34, 0x38, 0, 0]

/-- The number that a hash of text gives, modulo the order. -/
def ed448Hash (m : List Byte) : Nat := bytesToNat (shake256 114 (ed448Dom ++ m)) % ed448Order

/-- Verification of a pure Ed448 signature: a 57-byte key, a message, a 114-byte signature. -/
def ed448Verify (key m sig : List Byte) : Bool :=
  let r := sig.take 57
  let s := bytesToNat (sig.drop 57)
  match ed448Decode key, ed448Decode r with
  | some a, some p =>
    sig.length == 114 && decide (s < ed448Order) &&
      (EdPoint.mul (4 * s) ed448Base).same ((EdPoint.mul 4 p).add (EdPoint.mul (4 * ed448Hash (r ++ key ++ m)) a))
  | _, _ => false

/-- The scalar of a secret: its two low bits are 0, its top byte 0, bit 447 is 1. -/
def ed448Secret (secret : List Byte) : Nat :=
  let n := bytesToNat ((shake256 114 secret).take 56)
  n % 2 ^ 447 / 4 * 4 + 2 ^ 447

/-- A pure Ed448 signature of 114 bytes with a 57-byte secret. -/
def ed448Sign (secret m : List Byte) : List Byte :=
  let a := ed448Secret secret
  let key := (EdPoint.mul a ed448Base).encode
  let r := ed448Hash ((shake256 114 secret).drop 57 ++ m)
  let p := (EdPoint.mul r ed448Base).encode
  p ++ natToBytes 57 ((r + ed448Hash (p ++ key ++ m) * a) % ed448Order)

/-- The device identity key (R472): 57 bytes of Config.identityKey. -/
def identitySecret : List Byte := (List.range 57).map Config.identityKey

end Sys2Proof.Machine
end

