-- ==== Sys2Proof/Machine/HostPort.lean ====
section
/-! DEFINITION. What the host, the sensors and the management core do (spec/23_dies_host_and_startup.md R454 to R460, R468
to R473; R233, R234). -/

namespace Sys2Proof.Machine

/-- Bytes of a context descriptor that hold a die's window and spill area (Table 23.3). -/
def descWindow (d : List Byte) (die : Nat) : Nat × Nat :=
  (fieldOf d (4 + 8 * die) 4 / 2 ^ 16 % 2 ^ 11 * 2 ^ 16, fieldOf d (8 + 8 * die) 4 / 2 ^ 16 % 2 ^ 12 * 2 ^ 16)
def descSpill (d : List Byte) (die : Nat) : Nat × Nat :=
  (fieldOf d (20 + 8 * die) 4 / 2 ^ 12 % 2 ^ 15 * 2 ^ 12, fieldOf d (24 + 8 * die) 4 / 2 ^ 12 % 2 ^ 16 * 2 ^ 12)

/-- Two byte ranges, first byte and length, have a byte in common. -/
def rangesMeet (x y : Nat × Nat) : Bool := decide (x.1 < y.1 + y.2) && decide (y.1 < x.1 + x.2) && x.2 != 0 && y.2 != 0

/-- A byte range lies inside another, or is empty. -/
def rangeInside (x y : Nat × Nat) : Bool := x.2 == 0 || (decide (y.1 ≤ x.1) && decide (x.1 + x.2 ≤ y.1 + y.2))

/-- A context descriptor is accepted for an identifier (R456). -/
def State.descOk (s : State) (id : Nat) (d : List Byte) : Bool :=
  let b := fieldOf d 36 4 / 64
  let n := fieldOf d 40 4 / 64
  fieldOf d 0 2 == id && (s.ctx? id).isNone && decide (s.ctxs.length < Config.maxContexts) &&
    (List.range 2).all (fun die =>
      let w := descWindow d die
      w.2 == 0 ||
        (decide (w.1 + w.2 ≤ Config.spadBytes) && s.ctxs.all (fun c => !rangesMeet w (c.window die)) &&
          rangeInside (descSpill d die) w && (n == 0 || decide (64 * (b + 32 * n) ≤ w.2))))

/-- The context of a descriptor (Table 23.3, R325). -/
def contextOf (id : Nat) (d : List Byte) : Context :=
  let f (k n : Nat) : Nat := fieldOf d k n
  let word (k : Nat) : Word := BitVec.ofNat 32 (f k 4)
  let b := f 36 4 / 64
  let n := f 40 4 / 64
  let die (k : Nat) : CtxDie :=
    if (descWindow d k).2 == 0 then { dqb := List.replicate 32 0, dql := List.replicate 32 0 }
    else
      { spb := word (4 + 8 * k) &&& 0x07FF0000, spl := word (8 + 8 * k) &&& 0x0FFF0000
        csab := word (20 + 8 * k) &&& 0x07FFF000, csal := word (24 + 8 * k) &&& 0x0FFFF000
        dqb := (List.range 32).map (fun c => BitVec.ofNat 32 (64 * (b + c * n)))
        dql := List.replicate 32 (BitVec.ofNat 32 (64 * n)) }
  { id := id, ctxId := BitVec.ofNat 16 (f 0 2), retain := bitOf (f 2 1) 0, dies := [die 0, die 1]
    ttb0 := word 44 &&& 0xFFFFF000, ttb1 := word 48 &&& 0x000FFFFF, ttb2 := word 52 &&& 1
    root := (word 48 &&& 0x000FFFFF).toNat * 2 ^ 32 + (word 44 &&& 0xFFFFF000).toNat
    trapv := word 56 &&& 0xFFFFFFF8, wdgEn := (word 60).msb, wdgK := BitVec.ofNat 6 (max 10 (f 60 4 % 64))
    suph := f 64 9, dumpb := f 80 9, dumps := f 92 4 }

/-- `CONTEXT_CREATE` (R456): the descriptor lies in device DRAM at CTXA. -/
def execContextCreate (id : Nat) (s : State) : Host.Outcome State Fault Refusal :=
  let a := s.ctxa1.toNat % 2 ^ 20 * 2 ^ 32 + s.ctxa0.toNat / 128 * 128
  let d := Memory.readBytes s.dram a 128
  .next (if decide (a + 128 ≤ Config.dramEnd) && s.descOk id d then
      { s with ctxs := s.ctxs ++ [contextOf id d], ctxst := 2 }
    else { s with ctxst := 3 })

/-- A retiring context gives up a die's rendering units (R457). -/
def Render.disown (r : Render) (ctx : Nat) : Render :=
  if r.ownedBy ctx then ({ r with ownerV := false, ownerCtx := 0, rate := 0, souEn := false }).restart else r

/-- `CONTEXT_RETIRE` (R457). -/
def execContextRetire (id : Nat) (s : State) : Host.Outcome State Fault Refusal :=
  let busy := s.queues.any (fun q => q.ctx == id && (q.en || q.swIn))
  .next (if (s.ctx? id).isNone || busy then { s with ctxst := 3 }
    else
      let s1 := s.discardWork id 0x04
      { s1 with
        ctxs := s1.ctxs.filter (fun c => c.id != id), ctxst := 2
        dies := s1.dies.map (fun d => { d with render := d.render.disown id }) })

/-- A host write of 1 to QCTL.ERR: ignored while EN or IN is 1 (R454, R458). -/
def Queue.clearErr (x : Queue) : Queue :=
  if x.en || x.swIn then x else { x with err := false, stopped := x.stopped && !x.rewritten, rewritten := false }

/-- `QCTL_ERR_CLEAR` (R458). -/
def execQctlErrClear (q : Nat) (s : State) : Host.Outcome State Fault Refusal := .next (s.modQueue q Queue.clearErr)

/-- A write of TAIL (R458, R460): latched while the queue is out or being switched. -/
def State.writeTail (s : State) (q : Nat) (v : Word) : State :=
  ({ s with arrivals := s.arrivals + 1 }).modQueue q (fun x =>
    let x := { x with covers := x.covers ++ [(s.arrivals, v.toNat)] }
    if x.en && x.swIn && x.switching == Switching.idle then { x with tail := v, stopped := x.stopped && x.err, rewritten := x.stopped && x.err }
    else { x with latched := some v })

/-- `TAIL_WRITE` (R458). -/
def execTailWrite (q : Nat) (v : Word) (s : State) : Host.Outcome State Fault Refusal := .next (s.writeTail q v)

/-- `PWR_MODE_WRITE` (R473): the point change follows. -/
def execPwrModeWrite (belt : Bool) (s : State) : Host.Outcome State Fault Refusal :=
  .next { s with modeDue := if belt == s.belt then none else some belt }

/-- `DVFS_POINT_CHANGE` (R473): to the point of the same index in the new mode. -/
def execDvfsPointChange (s : State) : Host.Outcome State Fault Refusal :=
  .next (match s.modeDue with
    | some b => { s with belt := b, modeDue := none }
    | none => s)

/-- One millisecond of real time. -/
def millisecond : Nat := 36000000

/-- The thermal trip at 110 °C (R473): a device fault of every context; the clocks stop and the next start is cold. -/
def State.trip (s : State) (temp : Nat) : State :=
  let s1 := s.deviceFault (s.ctxs.map (·.id))
  { s1 with temp := temp, clocksStopped := true, trainingValid := false, retentionValid := false }

/-- `THERMAL_DROP` (R473): a junction at or above 100 °C drops a point at once and again for each further 1 ms; one at 110 °C
trips. hotTicks is the time of the last drop. -/
def execThermalDrop (temp : Nat) (s : State) : Host.Outcome State Fault Refusal :=
  .next (
    if temp < 100 then s
    else if 110 ≤ temp then s.trip temp
    else if s.temp < 100 || s.hotTicks + millisecond ≤ s.realTime then
      { s with temp := temp, point := min 2 (s.point + 1), hotTicks := s.realTime }
    else { s with temp := temp })

/-- `THERMAL_RISE` (R473): 100 ms below 90 °C raise the point by one. coolTicks is the time from which they count. -/
def execThermalRise (temp : Nat) (s : State) : Host.Outcome State Fault Refusal :=
  .next (
    if 100 ≤ temp then s
    else if 90 ≤ temp || 90 ≤ s.temp then { s with temp := temp, coolTicks := s.realTime }
    else if s.coolTicks + 100 * millisecond ≤ s.realTime then
      { s with temp := temp, point := s.point - 1, coolTicks := s.realTime }
    else { s with temp := temp })

/-- `THERMAL_TRIP` (R473). -/
def execThermalTrip (temp : Nat) (s : State) : Host.Outcome State Fault Refusal :=
  .next (if temp < 110 then s else s.trip temp)

/-- Change a sensor channel. -/
def State.modSensor (s : State) (die chan : Nat) (f : Sensor → Sensor) : State :=
  s.modDie die (fun d => { d with sensors := d.sensors.modify chan f })

/-- A write of a word of a channel descriptor: the unit count and the period start again (R468, R469). Word 7 is
reserved. -/
def State.writeChannel (s : State) (die chan k : Nat) (v : Word) : State :=
  if k < 7 then s.modSensor die chan (fun x => { words := x.words.set k v, units := 0, since := s.realTime }) else s

/-- `SENSOR_CHANNEL_WRITE` (R469). -/
def execSensorChannelWrite (die chan k : Nat) (v : Word) (s : State) : Host.Outcome State Fault Refusal :=
  .next (s.writeChannel die chan k v)

/-- Fields of a channel descriptor (Table 23.7). -/
def Sensor.bytes (x : Sensor) : List Byte := x.words.flatMap (fun w => natToBytes 4 w.toNat)
def Sensor.ctx (x : Sensor) : Nat := fieldOf x.bytes 0 2
def Sensor.kind (x : Sensor) : Nat := fieldOf x.bytes 2 1 % 4
def Sensor.port (x : Sensor) : Nat := fieldOf x.bytes 2 1 / 4 % 4
def Sensor.channel (x : Sensor) : Nat := fieldOf x.bytes 2 1 / 16
def Sensor.select (x : Sensor) : Nat := fieldOf x.bytes 3 1
def Sensor.lines (x : Sensor) : Nat := fieldOf x.bytes 14 2
def Sensor.base (x : Sensor) : Nat := fieldOf x.bytes 4 4
def Sensor.usz (x : Sensor) : Nat := fieldOf x.bytes 8 4
def Sensor.nu (x : Sensor) : Nat := fieldOf x.bytes 12 2
def Sensor.cwoff (x : Sensor) : Nat := fieldOf x.bytes 16 4
def Sensor.bboff (x : Sensor) : Nat := fieldOf x.bytes 20 4
def Sensor.period (x : Sensor) : Nat := fieldOf x.bytes 24 4

/-- Split bytes at window offset o into events that lie in aligned 16-byte groups; the first argument bounds the groups. -/
def groups16 : Nat → Nat → List Byte → List (Nat × List Byte)
  | 0, _, _ => []
  | _ + 1, _, [] => []
  | n + 1, o, b :: bs =>
    let k := 16 - o % 16
    (o, (b :: bs).take k) :: groups16 n (o + k) ((b :: bs).drop k)

/-- Write bytes of a context's window as 16-byte events; a group outside the window or in the spill area is dropped. -/
def State.windowWrite (s : State) (c : Context) (die o : Nat) (bs : List Byte) : State :=
  (groups16 (bs.length + 1) o bs).foldl (fun s g =>
    if c.windowOk die g.1 g.2.length false then s.spaceWrite (.spad die) ((c.window die).1 + g.1) g.2 none else s) s

/-- Where a channel's next unit goes: the window offset of its slot (R469). -/
def Sensor.slotAt (x : Sensor) : Nat := x.base + x.usz * (x.units % x.nu)

/-- A channel can deliver: its context has a window on the die, and its ring is as Table 23.7 asks (R468). -/
def State.channelOn (s : State) (die : Nat) (x : Sensor) : Option Context :=
  match s.ctx? x.ctx with
  | none => none
  | some c => if !c.residentOn die || x.usz < 64 || x.usz % 64 != 0 || x.nu == 0 then none else some c

/-- The lines of the slot, and of the barrier, of the unit that follows k others on a channel (R236, R469). -/
def State.unitLines (s : State) (die chan k : Nat) (y : SensorUnit) : List LineKey :=
  let x := (s.die die).sensors.getD chan {}
  match s.channelOn die x with
  | none => []
  | some c =>
    let at_ (o n : Nat) : List LineKey := spaceLines (.spad die) ((c.window die).1 + o) n
    (at_ ({ x with units := x.units + k }).slotAt (16 + min y.payload.length (x.usz - 16)) ++
      (if x.bboff == 0xFFFFFFFF then [] else at_ x.bboff 16)).eraseDups

/-- A line of the next unit of a channel is another's: its delivery waits (R236). -/
def State.unitOwned (s : State) (die chan : Nat) (by_ : Owner) (y : SensorUnit) : Bool :=
  (s.unitLines die chan 0 y).any (fun k => s.isOwned k && !s.owns by_ k)

/-- Deliver a unit (R469): payload, header, byte-barrier arrival, completion word. pt is PT at its first byte, bad that a
check failed. -/
def State.deliver (s : State) (die chan : Nat) (y : SensorUnit) (pt : Nat) (bad : Bool) : State :=
  let x := (s.die die).sensors.getD chan {}
  match s.channelOn die x with
  | none => s
  | some c =>
    let u := x.units
    let slot := x.slotAt
    let p := y.payload.take (x.usz - 16)
    let flags := (if p.length < y.payload.length then 1 else 0) + (if bad then 2 else 0)
    let head := natToBytes 4 pt ++ natToBytes 4 p.length ++ natToBytes 4 u ++ natToBytes 4 flags
    let s1 := (s.windowWrite c die (slot + 16) p).windowWrite c die slot head
    let s2 :=
      if x.bboff == 0xFFFFFFFF || x.bboff % 16 != 0 || !c.windowOk die x.bboff 16 false then s1
      else s1.arriveBytes (.spad die) ((c.window die).1 + x.bboff) (16 + p.length)
    let s3 :=
      if x.cwoff % 4 != 0 || !c.windowOk die x.cwoff 4 false then s2
      else s2.engineWord die ((c.window die).1 + x.cwoff) ((u + 1) % 2 ^ 32)
    s3.modSensor die chan (fun x => { x with units := u + 1 })

/-- A unit waits: it asks for its lines in the order of the requests (R236). -/
def State.holdUnit (s : State) (u : WaitingUnit) : State :=
  let k := (s.sensorWaiting.filter (fun v => v.die == u.die && v.chan == u.chan)).length
  let ls := s.unitLines u.die u.chan k u.unit
  let had := s.linesOfOwner (.unit u.id)
  let s1 := s.releaseLines (.unit u.id) (had.filter (fun l => !ls.contains l))
  let s2 := s1.own (.unit u.id) (ls.filter (fun l => !had.contains l))
  { s2 with sensorWaiting := s2.sensorWaiting ++ [u] }

/-- Deliver the units that wait, those of a channel in their order, as far as no line of another stops them (R236). -/
def State.drainSensors (s : State) : List WaitingUnit → State
  | [] => s
  | u :: us =>
    if s.sensorWaiting.any (fun v => v.die == u.die && v.chan == u.chan) || s.unitOwned u.die u.chan (.unit u.id) u.unit then
      (s.holdUnit u).drainSensors us
    else
      ((s.releaseLines (.unit u.id) (s.linesOfOwner (.unit u.id))).deliver u.die u.chan u.unit u.pt u.bad).drainSensors us

/-- Units that wait are delivered as far as they can be. -/
def State.settleUnits (s : State) : State := ({ s with sensorWaiting := [] }).drainSensors s.sensorWaiting

/-- A unit arrives on a channel. -/
def State.takeUnit (s : State) (die chan : Nat) (y : SensorUnit) (pt : Nat) (bad : Bool) : State :=
  let u : WaitingUnit := { id := s.nextId, die := die, chan := chan, unit := y, pt := pt, bad := bad }
  ({ s with nextId := s.nextId + 1, sensorWaiting := s.sensorWaiting ++ [u] }).settleUnits

/-- A channel of a die. -/
def State.channel (s : State) (die chan : Nat) : Sensor := (s.die die).sensors.getD chan {}

/-- The data types that a CSI-2 port accepts (R468): embedded data, YUV422 8-bit, RAW8, RAW10 and RAW12. PRESUMED (assumption
log 40): their codes are those of MIPI CSI-2. -/
def csiTypes : List Nat := [0x12, 0x1E, 0x2A, 0x2B, 0x2C]

/-- A channel takes what a CSI-2 port receives: its port, virtual channel and data type, in its number of lines (Table
23.7). -/
def Sensor.takesCsi (x : Sensor) (y : SensorUnit) : Bool :=
  x.kind == 1 && csiTypes.contains y.select && x.port == y.port && x.channel == y.channel && x.select == y.select && (x.lines == 0 || x.lines == y.lines)

/-- A channel takes a register read of the I3C bus: its address and first register (Table 23.7). -/
def Sensor.takesI3c (x : Sensor) (y : SensorUnit) : Bool := x.kind == 2 && x.select == y.select && x.lines == y.lines

/-- `SENSOR_UNIT_DELIVERY` (R469): a CSI-2 channel. -/
def execSensorUnitDelivery (die chan : Nat) (unit : SensorUnit) (firstPt : Nat) (bad : Bool) (s : State) :
    Host.Outcome State Fault Refusal :=
  .next (if (s.channel die chan).takesCsi unit then s.takeUnit die chan unit firstPt bad else s)

/-- A period of an I3C channel has passed since its last read (R468). -/
def State.periodDue (s : State) (x : Sensor) : Bool := x.period != 0 && decide (x.since + x.period * 36000 ≤ s.realTime)

/-- `SENSOR_I3C_PERIOD` (R468): the register read of a channel whose period has passed. -/
def execSensorI3cPeriod (die chan : Nat) (unit : SensorUnit) (firstPt : Nat) (bad : Bool) (s : State) :
    Host.Outcome State Fault Refusal :=
  let x := s.channel die chan
  .next (if x.takesI3c unit && s.periodDue x then
      (s.modSensor die chan (fun x => { x with since := x.since + x.period * 36000 })).takeUnit
        die chan unit firstPt bad
    else s)

/-- `IN_BAND_INTERRUPT` (R468): a register read of a channel with PERIOD 0. -/
def execInBandInterrupt (die chan : Nat) (unit : SensorUnit) (firstPt : Nat) (bad : Bool) (s : State) :
    Host.Outcome State Fault Refusal :=
  let x := s.channel die chan
  .next (if x.takesI3c unit && x.period == 0 then s.takeUnit die chan unit firstPt bad else s)

/-- Fuses as the device measures them (R470, R472). -/
def State.fuseBytes (s : State) : List Byte :=
  s.keyHash ++ natToBytes 4 s.minVersion ++ [if s.t9c then 1 else 0] ++ natToBytes 1 s.rev

/-- The bytes of the Moasan image that its signature covers (R472). -/
def Firmware.image (f : Firmware) : List Byte := f.body.take f.length

/-- The attestation report on a nonce with its signature and the certificate chain (R472). -/
def State.attest (s : State) (nonce : List Byte) : List Byte :=
  let body := nonce ++ digest64 s.firmware.image ++ digest64 s.fuseBytes ++ digest64 (natToBytes 4 s.ctxs.length)
  body ++ ed448Sign identitySecret (digest64 body) ++ Config.certificateChain

/-- `ATTESTATION_REQUEST` (R472): a 32-byte nonce in the mailbox yields the report. Its first 256 bytes stand in the mailbox
(assumption log 41). -/
def execAttestationRequest (nonce : List Byte) (s : State) : Host.Outcome State Fault Refusal :=
  .next (
    if nonce.length != 32 || s.bootState != 4 then s
    else
      let r := s.attest nonce
      { s with nonce := nonce, nonceDue := false, report := r, outbound := s.outbound ++ [.attestation r]
               mailbox := (List.range 256).map (fun k => r.getD k 0) })

/-- A host write of a word of the mailbox (R454, R472): the nonce is complete with its last word. -/
def State.writeMailbox (s : State) (o : Nat) (v : Word) : State :=
  { s with mailbox := s.mailbox.take o ++ natToBytes 4 v.toNat ++ s.mailbox.drop (o + 4), nonceDue := s.nonceDue || o == 28 }

/-- A QCTL write (Table 23.2, R454): fields other than EN and IRQ keep while EN or IN is 1. -/
def State.writeQctl (s : State) (q : Nat) (v : Word) : State :=
  let x := s.queue q
  let n := v.toNat
  let s1 := s.modQueue q (fun x =>
    let x := { x with irq := bitOf n 28 }
    if x.en || x.swIn then x
    else
      { (if bitOf n 29 then x.clearErr else x) with
               cls := n / 2 ^ 24 % 4, die := n / 2 ^ 20 % 2, ctx := n / 2 ^ 4 % 2 ^ 16
               log2n := if 1 ≤ n % 16 && n % 16 ≤ 12 then n % 16 else x.log2n })
  if bitOf n 31 == x.en then s1 else s1.setEnable q (bitOf n 31)

/-- A write of a base register of a queue (Tables 23.1, 23.2). -/
def Queue.writeBase (x : Queue) (k : Nat) (v : Word) : Queue :=
  if x.en || x.swIn then x
  else
    match k with
    | 0 => { x with base0 := v &&& 0xFFFFFF80 }
    | 1 => { x with base1 := v }
    | _ => { x with base2 := v &&& 0xFF }

/-- A write of a display timing register (Table 23.2, R454): ignored while scan-out is enabled. -/
def Die.writeTiming (d : Die) (k : Nat) (v : Word) : Die :=
  let n := v.toNat
  if d.render.souEn then d
  else
    match k with
    | 0 => { d with dtim0 := if n % 2 ^ 13 ≤ 16 * d.render.th then n % 2 ^ 13 else d.dtim0 }
    | 1 => { d with dtim1 := if d.dtim0 ≤ n % 2 ^ 14 then n % 2 ^ 14 else d.dtim1 }
    | _ => { d with dtim2 := n % 2 ^ 16 }

/-- A CTXCMD write (Table 23.2). -/
def State.writeCtxcmd (s : State) (v : Word) : Host.Outcome State Fault Refusal :=
  match v.toNat % 4 with
  | 1 => execContextCreate (v.toNat / 2 ^ 16) s
  | 2 => execContextRetire (v.toNat / 2 ^ 16) s
  | _ => .next s

/-- `BAR0_REGISTER_WRITE` (R454): other offsets and read-only registers ignore writes. -/
def execBar0RegisterWrite (o : Nat) (v : Word) (s : State) : Host.Outcome State Fault Refusal :=
  let q := (o - 0x1000) / 0x40
  let d := (o - 0x2000) / 0x40
  let c := (o - 0x3000) % 0x400 / 0x20
  if o == 0x0004 then execPwrModeWrite (bitOf v.toNat 0) s
  else if o == 0x0010 then .next { s with ctxa0 := v &&& 0xFFFFFF80 }
  else if o == 0x0014 then .next { s with ctxa1 := v &&& 0x000FFFFF }
  else if o == 0x0018 then s.writeCtxcmd v
  else if 0x0100 ≤ o && o < 0x0200 && o % 4 == 0 then .next (s.writeMailbox (o - 0x100) v)
  else if 0x1000 ≤ o && o < 0x1400 then
    .next (match o % 0x40 with
      | 0x0 => s.modQueue q (fun x => x.writeBase 0 v)
      | 0x4 => s.modQueue q (fun x => x.writeBase 1 v)
      | 0x8 => s.modQueue q (fun x => x.writeBase 2 v)
      | 0xC => s.writeQctl q v
      | 0x10 => s.writeTail q v
      | _ => s)
  else if 0x2000 ≤ o && o < 0x2080 then
    .next (if o % 0x40 % 4 == 0 && o % 0x40 ≤ 8 then s.modDie d (fun x => x.writeTiming (o % 0x40 / 4) v) else s)
  else if 0x3000 ≤ o && o < 0x3600 && c < 16 then
    .next (if o % 4 == 0 then s.writeChannel ((o - 0x3000) / 0x400) c (o % 0x20 / 4) v else s)
  else .next s

/-- QCTL as the host reads it (Table 23.2). -/
def Queue.qctl (x : Queue) : Word :=
  let b (v : Bool) (k : Nat) : Nat := if v then 2 ^ k else 0
  BitVec.ofNat 32 (b x.en 31 + b x.swIn 30 + b x.err 29 + b x.irq 28 + x.cls * 2 ^ 24 + x.die * 2 ^ 20 + x.ctx % 2 ^ 16 * 2 ^ 4 + x.log2n)

/-- The registers of a queue by offset (Table 23.1); TAIL and PROG as R460 shows them. -/
def Queue.bar0 (x : Queue) : Nat → Word
  | 0x0 => x.base0
  | 0x4 => x.base1
  | 0x8 => x.base2
  | 0xC => x.qctl
  | 0x10 => x.latched.getD x.tail
  | 0x14 => x.progShown.getD x.prog
  | _ => 0

/-- The eight bytes of a retention entry (Table 23.10). -/
def Retained.bytes (r : Retained) : List Byte :=
  natToBytes 2 r.id ++ natToBytes 1 r.die ++ [0] ++ natToBytes 2 r.base ++ natToBytes 2 r.size

/-- What the host reads at an aligned offset of BAR0 (Tables 23.1, 23.2; R454): write-only and omitted registers read 0. -/
def State.bar0Read (s : State) (o : Nat) : Word :=
  let q := (o - 0x1000) / 0x40
  let c := (o - 0x3000) % 0x400 / 0x20
  let n (v : Nat) : Word := BitVec.ofNat 32 v
  if o == 0x0000 then n (s.bootFail * 2 ^ 24 + (if s.bootWarm then 2 ^ 8 else 0) + s.bootState)
  else if o == 0x0004 then n (s.temp % 256 * 2 ^ 24 + s.point * 2 ^ 8 + (if s.modeDue.getD s.belt then 1 else 0))
  else if o == 0x0010 then s.ctxa0
  else if o == 0x0014 then s.ctxa1
  else if o == 0x001C then n s.ctxst
  else if o == 0x0020 then n s.retained.length
  else if 0x0100 ≤ o && o < 0x0200 then n (fieldOf s.mailbox (o - 0x100) 4)
  else if 0x0200 ≤ o && o < 0x0400 then n (fieldOf (s.retained.flatMap Retained.bytes) (o - 0x200) 4)
  else if 0x1000 ≤ o && o < 0x1400 then (s.queue q).bar0 (o % 0x40)
  else if 0x2000 ≤ o && o < 0x2080 then
    (let d := s.die ((o - 0x2000) / 0x40)
     match o % 0x40 with
     | 0 => n d.dtim0
     | 4 => n d.dtim1
     | 8 => n d.dtim2
     | _ => 0)
  else if 0x3000 ≤ o && o < 0x3600 && c < 16 then
    (((s.die ((o - 0x3000) / 0x400)).sensors.getD c {}).words).getD (o % 0x20 / 4) 0
  else 0

/-- A byte of the die scratchpad lies in some context's window (R455). -/
def State.inSomeWindow (s : State) (die a : Nat) : Bool :=
  s.ctxs.any (fun c => decide ((c.window die).1 ≤ a) && decide (a < (c.window die).1 + (c.window die).2))

/-- Lines of the scratchpad image that a host access touches are free (R234). -/
def State.barFree (s : State) (y n : Nat) : Bool :=
  (linesOf y n).all (fun k => !s.isOwned (.spad (k / 2 ^ 20) (k % 2 ^ 20)))

/-- A host write finds a dump that has still to capture window bytes: each aligned 16 bytes are captured before it or after
it, by a free choice (R444). -/
def State.beforeDump (s : State) (die a n : Nat) : State :=
  let mine (c : Context) : Bool := c.dumping.isSome && !c.dumped && decide ((c.window die).1 ≤ a) &&
    decide (a < (c.window die).1 + (c.window die).2)
  let capture (d : DumpRun) : DumpRun :=
    { d with early := d.early ++ (((List.range n).map (a + ·)).filter (fun x =>
        !d.early.any (fun y => y.space == some (.spad die) && y.addr == x))).map (fun x => ⟨some (.spad die), x, (s.die die).spad.get x⟩) }
  if s.ctxs.any mine then
    { s with
      fresh := s.fresh + 1
      ctxs := s.ctxs.map (fun c =>
        if mine c && Config.comesFirst s.fresh (2 ^ 64 + c.id) (a / 16) then { c with dumping := c.dumping.map capture } else c) }
  else s

/-- A host write of the scratchpad image takes effect as aligned 16-byte events (R233, R455). -/
def State.barWrite (s : State) (y : Nat) (bs : List Byte) : State :=
  (groups16 (bs.length + 1) y bs).foldl (fun s g =>
    let die := g.1 / 2 ^ 27
    let a := g.1 % 2 ^ 27
    if s.inSomeWindow die a then (s.beforeDump die a g.2.length).spaceWrite (.spad die) a g.2 none else s) s

/-- The bytes of a host read of the scratchpad image (R455). -/
def State.barRead (s : State) (y n : Nat) : List Byte :=
  (List.range n).map (fun k =>
    let a := (y + k) % 2 ^ 27
    let d := (y + k) / 2 ^ 27
    if s.inSomeWindow d a then (s.die d).spad.get a else 0)

/-- The dies that n bytes of the scratchpad image lie on (R455). -/
def barDies (y n : Nat) : List Nat := ([y / 2 ^ 27, (y + n - 1) / 2 ^ 27]).eraseDups

/-- Make host accesses, those of a die in their order of arrival, as far as no owned line stops them (R233, R234); accesses
of the two dies have no order between them (R455). The list names dies that an earlier access holds. -/
def State.drainHost (s : State) (held : List Nat) : List Instr → State
  | [] => s
  | .hostBar2Write y bs :: is =>
    if (barDies y bs.length).any held.contains || !s.barFree y bs.length then
      ({ s with hostWaiting := s.hostWaiting ++ [Instr.hostBar2Write y bs] }).drainHost (barDies y bs.length ++ held) is
    else (s.barWrite y bs).drainHost held is
  | .hostBar2Read y n :: is =>
    if (barDies y n).any held.contains || !s.barFree y n then
      ({ s with hostWaiting := s.hostWaiting ++ [Instr.hostBar2Read y n] }).drainHost (barDies y n ++ held) is
    else ({ s with outbound := s.outbound ++ [Outbound.readReturn (s.barRead y n)] }).drainHost held is
  | _ :: is => s.drainHost held is

/-- Host accesses that wait, and further ones, are made as far as they can be. -/
def State.takeHost (s : State) (more : List Instr) : State :=
  ({ s with hostWaiting := [] }).drainHost [] (s.hostWaiting ++ more)

/-- `HOST_BAR2_WRITE` (R233, R455). -/
def execHostBar2Write (y : Nat) (bs : List Byte) (s : State) : Host.Outcome State Fault Refusal :=
  .next (s.takeHost [.hostBar2Write y bs])
/-- `HOST_BAR2_READ` (R233, R455). -/
def execHostBar2Read (y n : Nat) (s : State) : Host.Outcome State Fault Refusal :=
  .next (s.takeHost [.hostBar2Read y n])

/-- `HOST_MEMORY_WRITE` (R234): a host write to device DRAM. -/
def execHostMemoryWrite (a : Nat) (bs : List Byte) (s : State) : Host.Outcome State Fault Refusal :=
  .next (if a + bs.length ≤ Config.dramEnd then
      (let s1 := s.beforeTexWrite ((linesOf a bs.length).map (fun k => (0, k)))
       { s1 with dram := s1.dram.writeBytes a bs })
    else s)

/-- The check of the Moasan image (R472): 0, or the failure code. -/
def State.authenticate (s : State) : Nat :=
  let f := s.firmware
  if f.key.length != 57 || digest64 f.key != s.keyHash then 0x01
  else if !ed448Verify f.key (digest64 f.image) f.signature then 0x02
  else if f.version < s.minVersion then 0x03
  else 0

/-- The windows that a reset with the retention supply held records (R471), in ascending die and base: each context under the
identifier that it was created with. -/
def State.windowsToRetain (s : State) : List Retained :=
  let all := (List.range 2).flatMap (fun d => (s.ctxs.filter (fun c => c.retain && c.residentOn d)).map (fun c =>
    ({ id := c.id, die := d, base := (c.window d).1 / 2 ^ 16, size := (c.window d).2 / 2 ^ 16 } : Retained)))
  (sortBy (fun a b => lexLt [a.die, a.base] [b.die, b.base]) all).take 64

/-- The scratchpad bytes of a die that a warm start keeps (Table 23.8). -/
def retainedBytes (rs : List Retained) (die : Nat) (m : Memory) : Memory :=
  m.filter (fun c => rs.any (fun r => r.die == die && decide (r.base * 2 ^ 16 ≤ c.1) && decide (c.1 < (r.base + r.size) * 2 ^ 16)))

/-- The machine as a reset leaves it: the fuses, the firmware, what the host holds and has seen, and the model's counters are
kept, with what its memories hold until a start-up step scrubs or trains them (Table 23.8). -/
def State.restarted (s : State) : State :=
  { State.reset with
    t9c := s.t9c, rev := s.rev, keyHash := s.keyHash, minVersion := s.minVersion, firmware := s.firmware
    hostMem := s.hostMem, outbound := s.outbound, nextId := s.nextId, fresh := s.fresh, arrivals := s.arrivals
    dram := s.dram, trainingValid := s.trainingValid, retentionValid := s.retentionValid, keeping := s.keeping
    bootWarm := s.bootWarm, dies := (List.range 2).map (fun d => { Die.reset with spad := (s.die d).spad }) }

/-- A reset, with the retention supply held or not (R470, R471): a warm start keeps the windows that it records. -/
def State.resetDevice (s : State) (held : Bool) : State :=
  let s1 := s.warps.foldl (fun s w => s.leaveStack w) s
  let warm := held && s.trainingValid
  let s2 := s1.restarted
  { s2 with
    bootState := 1, bootWarm := warm, trainingValid := warm, retentionValid := held && s.retentionValid
    keeping := if warm && s.retentionValid then s.windowsToRetain else [] }

/-- A start that fails (R470): the training record and the window retention are invalid. -/
def State.startFailed (s : State) (code : Nat) : State :=
  { s with bootState := 7, bootFail := code, trainingValid := false, retentionValid := false, keeping := [] }

/-- The next start-up step (Table 23.8): fuses and authentication, training, then the scrub and what follows it; each may
fail, by a free choice (R470). -/
def State.startStep (s0 : State) : State :=
  let s : State := { s0 with fresh := s0.fresh + 1 }
  let bad := (Config.startFails s0.fresh).toNat
  if bad != 0 then s.startFailed bad
  else
    match s.bootState with
    | 1 => if s.authenticate != 0 then s.startFailed s.authenticate else { s with bootState := 2 }
    | 2 => { s with bootState := 3, trainingValid := true, dram := if s.bootWarm then s.dram else [] }
    | _ =>
      let s1 := s.restarted
      { s1 with
        bootState := 4, retentionValid := true, retained := s.keeping, keeping := []
        dies := (List.range 2).map (fun d => { Die.reset with spad := retainedBytes s.keeping d (s.die d).spad }) }

/-- `DEVICE_START` (R470 to R472): a reset, or the next step of the start that follows it. -/
def execDeviceStart (held : Option Bool) (s : State) : Host.Outcome State Fault Refusal :=
  .next (match held with
    | some h => s.resetDevice h
    | none => if s.bootState == 1 || s.bootState == 2 || s.bootState == 3 then s.startStep else s)

end Sys2Proof.Machine
end

