-- ==== Sys2Proof/Machine/PickerEvents.lean ====
section
/-! DEFINITION. The Sample Picker's ticks, sample warps, and the requests and scans of the Scan-Out Unit
(spec/16_sample_stream.md R350 to R358, R368 to R372; spec/23_dies_host_and_startup.md R467). -/

namespace Sys2Proof.Machine

/-- A microsecond of real time. -/
def microsecond : Nat := 36000

/-- The launch record of a kind (Table 16.2). -/
def Render.recordAt (r : Render) (probe : Bool) : Nat := if probe then r.prbl.toNat else r.rayl.toNat

/-- The pending warp of a kind. -/
def Render.pending (r : Render) (probe : Bool) : Option Pending := if probe then r.prbPending else r.rayPending
/-- Replace it. -/
def Render.setPending (r : Render) (probe : Bool) (p : Option Pending) : Render :=
  if probe then { r with prbPending := p } else { r with rayPending := p }

/-- Byte k of a map entry or of WGT. -/
def byteAt (w : Word) (k : Nat) : Nat := w.toNat / 2 ^ (8 * k) % 256

/-- The priority of a tile (R352). -/
def Render.priority (r : Render) (t : Nat) : Nat :=
  let e := r.map.get t
  let ag := min 255 (r.age t / 2 ^ r.agesh)
  min 0xFFFF ((byteAt r.wgt 0 * byteAt e 0 + byteAt r.wgt 1 * byteAt e 1 + byteAt r.wgt 2 * byteAt e 2 + byteAt r.wgt 3 * ag) /
    2 ^ r.sh)

/-- The step of a tile (R352). -/
def Render.step (r : Render) (t : Nat) : Nat := 2 ^ 24 / (r.priority t + 1)

/-- The kind of a tile: probe or ray (Table 16.3). -/
def Render.kindOf (r : Render) (t : Nat) : Bool := (r.map.get t).getLsbD 24

/-- The position of pick n in a tile (R354). -/
def pickPosition (t n : Nat) : Nat × Nat :=
  let u := n % 256
  let h := (t * 0x9E3779B9) % 2 ^ 32
  let brev8 := (List.range 8).foldl (fun v k => v + (u / 2 ^ k % 2) * 2 ^ (7 - k)) 0
  (brev8 ^^^ (h % 256), ((u * 157) % 256) ^^^ (h / 2 ^ 8 % 256))

/-- v0 to v3 of a sample lane (Table 16.4). -/
def sampleWords (tw : Nat) (p : Pick) : List Word :=
  let f (k s : Nat) : Word := BitVec.ofNat 32 (fmtF32.convert rmRn false 0 (.fin false (512 * k + 2 * s + 1) (-5))).bits
  [f (p.tile % tw) p.sx, f (p.tile / tw) p.sy, BitVec.ofNat 32 p.time, BitVec.ofNat 32 (p.tile * 2 ^ 16 + p.sy * 2 ^ 8 + p.sx)]

/-- Picks are forgone (R358). -/
def State.forgo (s : State) (die n : Nat) : State := s.modRender die (fun r => { r with dropped := r.dropped + BitVec.ofNat 32 n })

/-- Launch a warp of picks of a kind (R358). -/
def State.launchPicks (s : State) (die : Nat) (probe : Bool) (picks : List Pick) : State :=
  let r := (s.die die).render
  let off := r.recordAt probe
  match s.renderOwner die with
  | none => s.forgo die picks.length
  | some c =>
    if off == 0 || !c.windowOk die off 128 false then s.forgo die picks.length
    else
      let lr := recordOf (s.spaceBytes (.spad die) ((c.window die).1 + off) 128)
      let q := s.readLaunch c.id lr
      match q.1, q.2.1 with
      | some m, some bs =>
        if lr.list || q.2.2.launchReason c.id die lr.cls lr q.1 q.2.1 != 0 then q.2.2.forgo die picks.length
        else
          let l : Launch :=
            { lid := 0, kind := .sample probe, ctx := c.id, die := die, lrec := { lr with det := false }, image := m.1, args := argWords bs
              argc := lr.argn, tag := if probe then r.prbTag else r.rayTag, arrival := q.2.2.arrivals, phase := .placing
              nextBlock := r.launched % 2 ^ 32, entry := picks.map (sampleWords r.tw) }
          let s1 : State := { q.2.2 with arrivals := q.2.2.arrivals + 1 }
          (s1.addLaunch l).modRender die (fun r => { r with launched := r.launched + 1 })
      | _, _ => q.2.2.forgo die picks.length

/-- Launch the pending warp of a kind (R356). -/
def State.launchPending (s : State) (die : Nat) (probe : Bool) : State :=
  match (s.die die).render.pending probe with
  | none => s
  | some p => (s.modRender die (fun r => r.setPending probe none)).launchPicks die probe p.picks

/-- Sample warps of a die that were launched and have not ended (R356). -/
def State.sampleWarps (s : State) (die : Nat) : Nat := (s.launches.filter (fun l => l.die == die && l.isSample)).length

/-- A kind has room for a pick (R353, R356). -/
def State.kindRoom (s : State) (die : Nat) (probe : Bool) : Bool :=
  let r := (s.die die).render
  let opens := (if r.rayPending.isSome then 1 else 0) + (if r.prbPending.isSome then 1 else 0)
  r.recordAt probe != 0 && ((r.pending probe).isSome || decide (opens + s.sampleWarps die < r.maxw))

/-- The available tile with the lowest pass, on equal pass the lowest (R353). -/
def State.bestTile (s : State) (die : Nat) : Option Nat :=
  let r := (s.die die).render
  let ray := s.kindRoom die false
  let probe := s.kindRoom die true
  let ok (t : Nat) : Bool := !(r.map.get t).getLsbD 25 && (if r.kindOf t then probe else ray)
  (List.range (r.tw * r.th)).foldl (fun best t =>
    match best with
    | none => if ok t then some t else none
    | some b => if ok t && decide ((r.pass.get t).toNat < (r.pass.get b).toNat) then some t else some b) none

/-- One pick (R353). -/
def State.pick (s : State) (die t : Nat) : State :=
  let r := (s.die die).render
  let n := (r.count.get t).toNat
  let pos := pickPosition t n
  let probe := r.kindOf t
  let p := (r.pending probe).getD { first := r.pt }
  let p := { p with picks := p.picks ++ [⟨t, pos.1, pos.2, (r.pt + r.lead) % 2 ^ 32⟩] }
  let pass := (r.pass.get t).toNat
  let s1 := s.modRender die (fun r => { r.setPending probe (some p) with
    vt := pass, pass := r.pass.set t (BitVec.ofNat 64 (pass + r.step t)), count := r.count.set t (BitVec.ofNat 16 (n + 1))
    picked := r.picked.set t (BitVec.ofNat 64 (r.pt + 1)), credit := r.credit - 16, picks := r.picks + 1 })
  if p.picks.length == 32 then s1.launchPending die probe else s1

/-- The picks of a tick, at most so many (R353); RATE 0 stops picking (Table 16.2). -/
def State.pickMany (s : State) (die : Nat) : Nat → State
  | 0 => s
  | n + 1 =>
    if (s.die die).render.credit < 16 || (s.die die).render.rate == 0 then s
    else
      match s.bestTile die with
      | some t => (s.pick die t).pickMany die n
      | none => s

/-- A pending warp is due (R356). -/
def Render.due (r : Render) (probe : Bool) : Bool :=
  match r.pending probe with
  | some p => decide (p.first + 4 ≤ r.pt)
  | none => false

/-- Launch a pending warp that is due. -/
def State.launchDue (s : State) (die : Nat) (probe : Bool) : State :=
  if (s.die die).render.due probe then s.launchPending die probe else s

/-- Credit beyond 512 is forgone (R357). -/
def Render.clamp (r : Render) : Render :=
  if 512 < r.credit then { r with dropped := r.dropped + BitVec.ofNat 32 ((r.credit - 512) / 16), credit := 512 } else r

/-- `PICKER_TICK` (R350, R353, R356, R357). -/
def execPickerTick (die : Nat) (s : State) : Host.Outcome State Fault Refusal :=
  .next (
    if s.realTime < ((s.die die).render.pt + 1) * microsecond then s
    else
      let s1 := ((s.modRender die (fun r => { r with pt := r.pt + 1 })).launchDue die false).launchDue die true
      ((s1.modRender die (fun r => { r with credit := r.credit + r.rate })).pickMany die 256).modRender die Render.clamp)

/-- Row period in units of real time (R467). -/
def Die.rowTime (d : Die) : Nat := 36 * d.dtim2
/-- Bands of a refresh that carry display rows (R368, R467). -/
def Die.bandCount (d : Die) : Nat := min d.render.th ((d.dtim0 + 15) / 16)
/-- Length of a refresh (R467). -/
def Die.refreshTime (d : Die) : Nat := d.dtim1 * d.rowTime
/-- The link shows bands. -/
def Die.scans (d : Die) : Bool := d.rowTime != 0 && d.bandCount != 0

/-- S of band n, counted on from the start of the refresh (R467). -/
def Die.scanAt (d : Die) (n : Nat) : Nat :=
  d.render.refreshAt + n / d.bandCount * d.refreshTime + 16 * (n % d.bandCount) * d.rowTime

/-- The reconstruction launch of a request (R369, Table 16.8): none where the record cannot be read. -/
def State.launchBand (s : State) (die band due : Nat) (tag : Word) : State :=
  let r := (s.die die).render
  match s.renderOwner die with
  | none => s
  | some c =>
    if !c.windowOk die r.recl.toNat 128 false then s
    else
      let lr := recordOf (s.spaceBytes (.spad die) ((c.window die).1 + r.recl.toNat) 128)
      let args : List Word := [BitVec.ofNat 32 band, tag, BitVec.ofNat 32 (due / microsecond), BitVec.ofNat 32 r.tw]
      let l : Launch :=
        { lid := 0, kind := .recon tag.toNat, ctx := c.id, die := die, lrec := { lr with cls := 0, nblk := r.tw }, args := args
          tag := r.recTag, arrival := s.arrivals }
      ({ s with arrivals := s.arrivals + 1 } : State).addLaunch l

/-- `BAND_REQUEST` (R369): the next request of the die, when its time has come; with SOUC.EN 0 none is made (R372). -/
def execBandRequest (die band : Nat) (s : State) : Host.Outcome State Fault Refusal :=
  let d := s.die die
  let r := d.render
  let due := d.scanAt r.nextReq
  .next (
    if !d.scans || band != r.nextReq % d.bandCount || s.realTime + 16 * r.rql * d.rowTime < due then s
    else
      let s1 := s.modRender die (fun r => { r with nextReq := r.nextReq + 1 })
      if !r.souEn then s1
      else
        let b : BandSlot := { opened := true, tag := r.seq, band := band, due := due }
        (s1.modRender die (fun r => { r.modBand (r.seq.toNat % 4) (fun _ => b) with seq := r.seq + 1 })).launchBand die band due r.seq)

/-- The slots of the open requests for a band whose scan time has come (R369, R372), the latest last. -/
def Render.dueBands (r : Render) (band now : Nat) : List Nat :=
  sortBy (fun a b => decide ((r.bands.getD a {}).due < (r.bands.getD b {}).due))
    ((List.range 4).filter (fun k =>
      (r.bands.getD k {}).opened && (r.bands.getD k {}).band == band && decide ((r.bands.getD k {}).due ≤ now)))

/-- What the Scan-Out Unit sends for a band at its scan time (R372): its slot when the request for this scan is ready, else the
hold slot. -/
def Render.scan (r : Render) (band now : Nat) : Cells 30 × Render :=
  let ks := r.dueBands band now
  let close (r : Render) : Render := ks.foldl (fun r k => r.modBand k (fun b => { b with opened := false })) r
  if !r.souEn then ([], close r)
  else
    match ks.getLast? with
    | some j =>
      let b := r.bands.getD j {}
      if r.tw ≤ b.acks then (b.codes, { close r with hold := b.codes }) else (r.hold, { close r with miss := r.miss + 1 })
    | none => (r.hold, { r with miss := r.miss + 1 })

/-- `BAND_SCAN` (R368, R372): the next scan of the die, when its time has come. -/
def execBandScan (die band : Nat) (s : State) : Host.Outcome State Fault Refusal :=
  let d := s.die die
  let n := d.render.nextScan
  let roll := decide (d.bandCount ≤ n)
  let due := if roll then d.render.refreshAt + d.refreshTime else d.scanAt n
  .next (
    if !d.scans || band != (if roll then 0 else n) || s.realTime < due then s
    else
      let x := d.render.scan band due
      let s1 := s.modRender die (fun _ =>
        if roll then { x.2 with refreshAt := due, nextScan := 1, nextReq := x.2.nextReq - d.bandCount }
        else { x.2 with nextScan := n + 1 })
      { s1 with outbound := s1.outbound ++ [Outbound.band die band x.1] })

end Sys2Proof.Machine
end

