-- ==== Sys2Proof/Machine/Elementary.lean ====
section
/-! DEFINITION. The special functions of Table 4.11 in exact form (correctly rounded) and in approximate form (a free
value held to its bound), with the special values of Table 4.12 (spec/04_sequential_instructions.md R126 to R128). Exact
values are formed in fixed point with 512 fraction bits, 32 of which are guard bits. -/

namespace Sys2Proof.Machine

/-- Fraction bits of the fixed-point numbers. -/
def fixBits : Nat := 512
/-- One, in fixed point. -/
def fixOne : Int := 2 ^ fixBits
/-- A product in fixed point. -/
def fixMul (a b : Int) : Int := a * b / fixOne
/-- A quotient in fixed point. -/
def fixDiv (a b : Int) : Int := a * fixOne / b
/-- A finite number in fixed point, rounded down. -/
def fixOf (neg : Bool) (m : Nat) (e : Int) : Int :=
  let k := e + fixBits
  let v : Nat := if 0 ≤ k then m * 2 ^ k.toNat else m / 2 ^ (-k).toNat
  if neg then -(v : Int) else v

/-- The sum of t/(k+1) · x/(k+1) · x/(k+2) …: the exponential series from a term on. -/
def expSeries (x : Int) : Nat → Nat → Int → Int → Int
  | 0, _, _, acc => acc
  | n + 1, k, t, acc => let t' := fixMul t x / (k + 1 : Nat)
                        expSeries x n (k + 1) t' (acc + t')
/-- e^x for |x| ≤ 1. -/
def fixExp (x : Int) : Int := expSeries x 120 0 fixOne fixOne

/-- Odd power series z + z³/3 + z⁵/5 …, with signs alternating when alt. -/
def oddSeries (z2 : Int) (alt : Bool) : Nat → Nat → Int → Int → Int
  | 0, _, _, acc => acc
  | n + 1, k, t, acc =>
    let t' := fixMul t z2
    let u := t' / (2 * k + 3 : Nat)
    oddSeries z2 alt n (k + 1) t' (if alt && k % 2 == 0 then acc - u else acc + u)
/-- The logarithm of a number from 1/2 to 2. -/
def fixLn (x : Int) : Int :=
  let z := fixDiv (x - fixOne) (x + fixOne)
  2 * oddSeries (fixMul z z) false 330 0 z z
/-- The natural logarithm of 2. -/
def fixLn2 : Int := fixLn (2 * fixOne)
/-- The arc tangent of 1/n. -/
def fixAtanInv (n : Nat) : Int :=
  let z := fixOne / n
  oddSeries (fixMul z z) true 240 0 z z
/-- π. -/
def fixPi : Int := 16 * fixAtanInv 5 - 4 * fixAtanInv 239

/-- Alternating factorial series of sine (from k = 1) and cosine (from k = 0). -/
def trigSeries (x2 : Int) : Nat → Nat → Int → Int → Int
  | 0, _, _, acc => acc
  | n + 1, k, t, acc => let t' := -(fixMul t x2 / ((k + 1) * (k + 2) : Nat))
                        trigSeries x2 n (k + 2) t' (acc + t')
/-- Sine and cosine of a number of small magnitude. -/
def fixSin (x : Int) : Int := trigSeries (fixMul x x) 70 1 x x
def fixCos (x : Int) : Int := trigSeries (fixMul x x) 70 0 fixOne fixOne

/-- A fixed-point approximation as an exact irrational result: the guard bits are dropped. -/
def exactOfFix (v : Int) : Exact := ⟨decide (v < 0), v.natAbs / 2 ^ 32, 32 - (fixBits : Int), true⟩

/-- A number just below one, and one just above zero, of a sign. -/
def belowOne (neg : Bool) : Exact := ⟨neg, 2 ^ 400 - 1, -400, true⟩
def aboveZero (neg : Bool) : Exact := ⟨neg, 1, -1000, true⟩

/-- Whether a finite magnitude is at least 2^k. -/
def atLeastPow (m : Nat) (e : Int) (k : Int) : Bool := m != 0 && decide (k ≤ Nat.log2 m + e)

/-- 2^x. -/
def exp2Exact (neg : Bool) (m : Nat) (e : Int) : Exact :=
  if atLeastPow m e 10 then (if neg then aboveZero false else ⟨false, 1, 1000, false⟩)
  else
    let x := fixOf neg m e
    let n := x / fixOne
    let r := x - n * fixOne
    if r == 0 && decide (-(fixBits : Int) ≤ e) then ⟨false, 1, n, false⟩
    else
      let y := exactOfFix (fixExp (fixMul r fixLn2))
      { y with e := y.e + n }

/-- log2 of a positive number. -/
def log2Exact (m : Nat) (e : Int) : Exact :=
  let l := Nat.log2 m
  if m == 2 ^ l then
    let n : Int := l + e
    ⟨decide (n < 0), n.natAbs, 0, false⟩
  else
    let x := fixOf false m (-(l : Int))
    let big := decide (3 * fixOne < 2 * x)
    let k : Int := l + e + (if big then 1 else 0)
    exactOfFix (k * fixOne + fixDiv (fixLn (if big then x / 2 else x)) fixLn2)

/-- Sine of a quarter turn count and a rest: sin for quarter 0. -/
def trigQuarter (n : Int) (r : Int) : Int :=
  match (n % 4).toNat with
  | 0 => fixSin r
  | 1 => fixCos r
  | 2 => -fixSin r
  | _ => -fixCos r

/-- Sine of x, or cosine with a quarter turn added. -/
def sinExact (neg : Bool) (m : Nat) (e : Int) (quarter : Int) : Exact :=
  let x := fixOf neg m e
  let half := fixPi / 2
  let n := (x + half / 2) / half
  exactOfFix (trigQuarter (n + quarter) (x - n * half))

/-- e^x for any x of magnitude below 2^8. -/
def expParts (x : Int) : Int × Int :=
  let n := x / fixLn2
  (n, fixExp (x - n * fixLn2))

/-- e^x in fixed point for x at most 0. -/
def fixExpNeg (x : Int) : Int :=
  let p := expParts x
  p.2 / 2 ^ (-p.1).toNat

/-- Hyperbolic tangent. Small arguments use the quotient of the two series, which keeps their leading bits. -/
def tanhExact (neg : Bool) (m : Nat) (e : Int) : Exact :=
  if atLeastPow m e 8 then belowOne neg
  else
    let x := fixOf false m e
    let y :=
      if atLeastPow m e (-2) then
        let t := fixExpNeg (-2 * x)
        fixDiv (fixOne - t) (fixOne + t)
      else
        let x2 := fixMul x x
        let sinh := trigSeries (-x2) 70 1 x x
        let cosh := trigSeries (-x2) 70 0 fixOne fixOne
        fixDiv sinh cosh
    exactOfFix (if neg then -y else y)

/-- The logistic function. -/
def sigmExact (neg : Bool) (m : Nat) (e : Int) : Exact :=
  if atLeastPow m e 8 then (if neg then aboveZero false else belowOne false)
  else
    let t := fixExpNeg (-(fixOf false m e))
    exactOfFix (if neg then fixDiv t (fixOne + t) else fixDiv fixOne (fixOne + t))

/-- The special functions (Table 4.11). -/
inductive SFun
  | rcp | rsqrt | sqrt | exp2 | log2 | sin | cos | tanh | fdiv | sigm
  deriving DecidableEq, Repr

/-- The function's number, as the free value is told it. -/
def SFun.index : SFun → Nat
  | .rcp => 0 | .rsqrt => 1 | .sqrt => 2 | .exp2 => 3 | .log2 => 4 | .sin => 5 | .cos => 6 | .tanh => 7
  | .fdiv => 8 | .sigm => 9

/-- A special value (Table 4.12, R128) or the exact value of a finite case. -/
inductive SVal
  | special (r : FRes)
  | value (x : Exact)
  deriving DecidableEq, Repr

/-- One of a format. -/
def Fmt.one (f : Fmt) (neg : Bool) : FRes := f.round rmRn false 0 ⟨neg, 1, 0, false⟩

/-- The special value or exact value of a function (Table 4.12, R128). a is the dividend of fdiv. -/
def SFun.eval (g : SFun) (f : Fmt) (a b : FVal) : SVal :=
  match g, b with
  | .fdiv, _ =>
    (match a, b with
     | .fin x m e, .fin y n h =>
       if n == 0 || m == 0 then .special (f.divVals rmRn a b) else .value (divExact (x != y) m e n h)
     | _, _ => .special (f.divVals rmRn a b))
  | _, .nan s => .special (f.nanRes (if s then fNV else 0))
  | .rcp, .inf n => .special (f.zero n)
  | .rcp, .fin n m e => if m == 0 then .special ⟨(f.inf n).bits, fDZ⟩ else .value (divExact n 1 0 m e)
  | .rsqrt, .inf n => .special (if n then f.nanRes fNV else f.zero false)
  | .rsqrt, .fin n m e =>
    if m == 0 then .special ⟨(f.inf n).bits, fDZ⟩ else if n then .special (f.nanRes fNV) else .value (rsqrtExact m e)
  | .sqrt, .inf n => .special (if n then f.nanRes fNV else f.inf false)
  | .sqrt, .fin n m e =>
    if m == 0 then .special (f.zero n) else if n then .special (f.nanRes fNV) else .value (sqrtExact m e)
  | .exp2, .inf n => .special (if n then f.zero false else f.inf false)
  | .exp2, .fin n m e => if m == 0 then .special (f.one false) else .value (exp2Exact n m e)
  | .log2, .inf n => .special (if n then f.nanRes fNV else f.inf false)
  | .log2, .fin n m e =>
    if m == 0 then .special ⟨(f.inf true).bits, fDZ⟩ else if n then .special (f.nanRes fNV) else .value (log2Exact m e)
  | .sin, .inf _ => .special (f.nanRes fNV)
  | .sin, .fin n m e => if m == 0 then .special (f.zero n) else .value (sinExact n m e 0)
  | .cos, .inf _ => .special (f.nanRes fNV)
  | .cos, .fin n m e => if m == 0 then .special (f.one false) else .value (sinExact n m e 1)
  | .tanh, .inf n => .special (f.one n)
  | .tanh, .fin n m e => if m == 0 then .special (f.zero n) else .value (tanhExact n m e)
  | .sigm, .inf n => .special (if n then f.zero false else f.one false)
  | .sigm, .fin n m e =>
    if m == 0 then .special (f.round rmRn false 0 ⟨false, 1, -1, false⟩) else .value (sigmExact n m e)

/-- A bound of Table 4.11: units in the last place of the result, and an absolute bound 2^abs where there is one. -/
def SFun.bound (g : SFun) (f : Fmt) (b : FVal) : Nat × Option Int :=
  if f.mb != 23 then (1, none)
  else
    match g with
    | .rcp => (1, none)
    | .sqrt => (1, none)
    | .sin => (0, some (-21))
    | .cos => (0, some (-21))
    | .log2 =>
      (match b with
       | .fin _ m e => if atLeastPow m e (-1) && !(atLeastPow m e 1 && m != 2 ^ Nat.log2 m) && !atLeastPow m e 2
                       then (0, some (-22)) else (2, none)
       | _ => (2, none))
    | .tanh => (2, some (-22))
    | .sigm => (2, some (-22))
    | _ => (2, none)

/-- A candidate lies within n units of 2^q, or within 2^abs, of an exact value. -/
def withinBound (c x : Exact) (n : Nat) (q : Int) (abs : Option Int) : Bool :=
  let e := min (min c.e x.e) (min q (abs.getD q))
  let up (v : Nat) (k : Int) : Int := (v * 2 ^ (k - e).toNat : Nat)
  let cv := if c.neg then -(up c.m c.e) else up c.m c.e
  let xv := if x.neg then -(up x.m x.e) else up x.m x.e
  let d : Int := (cv - xv).natAbs + (if x.sticky then up 1 x.e else 0)
  decide (d ≤ up n q) || (match abs with
    | some a => decide (d ≤ up 1 a)
    | none => false)

/-- An exact nonzero value below the smallest normal magnitude of a format (Table 2.6). -/
def Fmt.tiny (f : Fmt) (x : Exact) : Bool := x.m != 0 && decide ((Nat.log2 x.m : Int) + x.e < 1 - f.bias)

/-- A result that must be exact even in approximate form: for f32 the integral exp2 with a normal result and log2 of a power
of two (Table 4.11), and in every type log2 of 1, which is +0 (R128). -/
def SFun.mustBeExact (g : SFun) (f : Fmt) (x : Exact) : Bool :=
  !x.sticky && ((g == .log2 && (f.mb == 23 || x.m == 0)) || (g == .exp2 && f.mb == 23 && !f.tiny x))

/-- A special function (R126 to R128). The approximate form delivers the device's own value where it lies within the
bound, with the flags of that value. -/
def SFun.apply (g : SFun) (f : Fmt) (exactForm : Bool) (mode ty : Nat) (a b : Nat) : FRes :=
  match g.eval f (f.decode a) (f.decode b) with
  | .special r => r
  | .value x =>
    let r := f.round mode false 0 x
    if exactForm || g.mustBeExact f x then r
    else
      let c := (Config.approx g.index ty (BitVec.ofNat 32 (if g == .fdiv then a else 0)) (BitVec.ofNat 32 b)).toNat % (2 * f.signBit)
      let q := f.quantum (Nat.log2 x.m + x.e)
      let bd := g.bound f (f.decode b)
      match f.decode c with
      | .fin n m e =>
        if (r.fl &&& fOF) == 0 && withinBound ⟨n, m, e, false⟩ x bd.1 q bd.2 then
          let same := !x.sticky && withinBound ⟨n, m, e, false⟩ x 0 q none
          ⟨c, if same then 0 else fNX ||| (if f.tiny x then fUF else 0)⟩
        else r
      | _ => r

end Sys2Proof.Machine
end

