-- ==== Sys2Proof/Machine/Special.lean ====
section
/-! DEFINITION. The special functions (spec/04_sequential_instructions.md R126 to R128). -/

namespace Sys2Proof.Machine

/-- A special function on the elements of B, and of A for fdiv: MOD 5 selects the exact form. Only the exact forms of
sqrt and fdiv round by the effective mode (R127). -/
def State.sfun (s : State) (e : Env) (g : SFun) : State :=
  s.fop e (fun f m a b _ =>
    g.apply f (e.o.modBit 5) (if e.o.modBit 5 && (g == .sqrt || g == .fdiv) then m else rmRn) e.ty a b)

/-- `rcp` (R126). -/
def execRcp (o : Operands) (s : State) := issue (.rcp o) s (fun e s => s.sfun e .rcp)
/-- `rsqrt` (R126). -/
def execRsqrt (o : Operands) (s : State) := issue (.rsqrt o) s (fun e s => s.sfun e .rsqrt)
/-- `sqrt` (R126). -/
def execSqrt (o : Operands) (s : State) := issue (.sqrt o) s (fun e s => s.sfun e .sqrt)
/-- `exp2` (R126). -/
def execExp2 (o : Operands) (s : State) := issue (.exp2 o) s (fun e s => s.sfun e .exp2)
/-- `log2` (R126). -/
def execLog2 (o : Operands) (s : State) := issue (.log2 o) s (fun e s => s.sfun e .log2)
/-- `sin` (R126). -/
def execSin (o : Operands) (s : State) := issue (.sin o) s (fun e s => s.sfun e .sin)
/-- `cos` (R126). -/
def execCos (o : Operands) (s : State) := issue (.cos o) s (fun e s => s.sfun e .cos)
/-- `tanh` (R126). -/
def execTanh (o : Operands) (s : State) := issue (.tanh o) s (fun e s => s.sfun e .tanh)
/-- `fdiv` (R126, R128). -/
def execFdiv (o : Operands) (s : State) := issue (.fdiv o) s (fun e s => s.sfun e .fdiv)
/-- `sigm` (R126). -/
def execSigm (o : Operands) (s : State) := issue (.sigm o) s (fun e s => s.sfun e .sigm)

end Sys2Proof.Machine
end

