-- ==== Sys2Proof/Machine/Dispatch.lean ====
section
/-! DEFINITION. One arm per row of spec/opcode_table.json. -/

namespace Sys2Proof.Machine

/-- The meaning of an instruction or event in a state. -/
def exec (i : Instr) (s : State) : Host.Outcome State Fault Refusal :=
  match i with
  | .nop o => Sys2Proof.Machine.execNop o s
  | .br o => Sys2Proof.Machine.execBr o s
  | .brx o => Sys2Proof.Machine.execBrx o s
  | .call o => Sys2Proof.Machine.execCall o s
  | .callx o => Sys2Proof.Machine.execCallx o s
  | .ret o => Sys2Proof.Machine.execRet o s
  | .exit o => Sys2Proof.Machine.execExit o s
  | .join o => Sys2Proof.Machine.execJoin o s
  | .yield o => Sys2Proof.Machine.execYield o s
  | .trap o => Sys2Proof.Machine.execTrap o s
  | .brk o => Sys2Proof.Machine.execBrk o s
  | .csrRd o => Sys2Proof.Machine.execCsrRd o s
  | .csrWr o => Sys2Proof.Machine.execCsrWr o s
  | .csrSet o => Sys2Proof.Machine.execCsrSet o s
  | .csrClr o => Sys2Proof.Machine.execCsrClr o s
  | .clkRd o => Sys2Proof.Machine.execClkRd o s
  | .digFold o => Sys2Proof.Machine.execDigFold o s
  | .pcRd o => Sys2Proof.Machine.execPcRd o s
  | .hdlResume o => Sys2Proof.Machine.execHdlResume o s
  | .hdlKill o => Sys2Proof.Machine.execHdlKill o s
  | .hdlEsc o => Sys2Proof.Machine.execHdlEsc o s
  | .iadd o => Sys2Proof.Machine.execIadd o s
  | .isub o => Sys2Proof.Machine.execIsub o s
  | .imul o => Sys2Proof.Machine.execImul o s
  | .imulh o => Sys2Proof.Machine.execImulh o s
  | .imad o => Sys2Proof.Machine.execImad o s
  | .imadw o => Sys2Proof.Machine.execImadw o s
  | .iaddx o => Sys2Proof.Machine.execIaddx o s
  | .idiv o => Sys2Proof.Machine.execIdiv o s
  | .irem o => Sys2Proof.Machine.execIrem o s
  | .iabs o => Sys2Proof.Machine.execIabs o s
  | .imin o => Sys2Proof.Machine.execImin o s
  | .imax o => Sys2Proof.Machine.execImax o s
  | .sel o => Sys2Proof.Machine.execSel o s
  | .mov o => Sys2Proof.Machine.execMov o s
  | .icmp o => Sys2Proof.Machine.execIcmp o s
  | .and o => Sys2Proof.Machine.execAnd o s
  | .or o => Sys2Proof.Machine.execOr o s
  | .xor o => Sys2Proof.Machine.execXor o s
  | .andn o => Sys2Proof.Machine.execAndn o s
  | .orn o => Sys2Proof.Machine.execOrn o s
  | .lgc3 o => Sys2Proof.Machine.execLgc3 o s
  | .shl o => Sys2Proof.Machine.execShl o s
  | .shr o => Sys2Proof.Machine.execShr o s
  | .sar o => Sys2Proof.Machine.execSar o s
  | .rol o => Sys2Proof.Machine.execRol o s
  | .ror o => Sys2Proof.Machine.execRor o s
  | .fsh o => Sys2Proof.Machine.execFsh o s
  | .bfx o => Sys2Proof.Machine.execBfx o s
  | .bfi o => Sys2Proof.Machine.execBfi o s
  | .popc o => Sys2Proof.Machine.execPopc o s
  | .clz o => Sys2Proof.Machine.execClz o s
  | .brev o => Sys2Proof.Machine.execBrev o s
  | .bset o => Sys2Proof.Machine.execBset o s
  | .bclr o => Sys2Proof.Machine.execBclr o s
  | .vaAdd o => Sys2Proof.Machine.execVaAdd o s
  | .vaSub o => Sys2Proof.Machine.execVaSub o s
  | .vaCmp o => Sys2Proof.Machine.execVaCmp o s
  | .vaMov o => Sys2Proof.Machine.execVaMov o s
  | .fadd o => Sys2Proof.Machine.execFadd o s
  | .fsub o => Sys2Proof.Machine.execFsub o s
  | .fmul o => Sys2Proof.Machine.execFmul o s
  | .fma o => Sys2Proof.Machine.execFma o s
  | .fms o => Sys2Proof.Machine.execFms o s
  | .fnma o => Sys2Proof.Machine.execFnma o s
  | .fmin o => Sys2Proof.Machine.execFmin o s
  | .fmax o => Sys2Proof.Machine.execFmax o s
  | .fcmp o => Sys2Proof.Machine.execFcmp o s
  | .fcmpAx o => Sys2Proof.Machine.execFcmpAx o s
  | .fclass o => Sys2Proof.Machine.execFclass o s
  | .fmov o => Sys2Proof.Machine.execFmov o s
  | .frnd o => Sys2Proof.Machine.execFrnd o s
  | .fscale o => Sys2Proof.Machine.execFscale o s
  | .fgetx o => Sys2Proof.Machine.execFgetx o s
  | .fdot2 o => Sys2Proof.Machine.execFdot2 o s
  | .fclamp o => Sys2Proof.Machine.execFclamp o s
  | .fminmag o => Sys2Proof.Machine.execFminmag o s
  | .fmaxmag o => Sys2Proof.Machine.execFmaxmag o s
  | .ffrac o => Sys2Proof.Machine.execFfrac o s
  | .cvtF32 o => Sys2Proof.Machine.execCvtF32 o s
  | .cvtF16 o => Sys2Proof.Machine.execCvtF16 o s
  | .cvtBf16 o => Sys2Proof.Machine.execCvtBf16 o s
  | .cvtE4m3 o => Sys2Proof.Machine.execCvtE4m3 o s
  | .cvtE5m2 o => Sys2Proof.Machine.execCvtE5m2 o s
  | .cvtE2m1 o => Sys2Proof.Machine.execCvtE2m1 o s
  | .cvtInt o => Sys2Proof.Machine.execCvtInt o s
  | .cvtRgb o => Sys2Proof.Machine.execCvtRgb o s
  | .cvtMxf4 o => Sys2Proof.Machine.execCvtMxf4 o s
  | .cvtMxi8 o => Sys2Proof.Machine.execCvtMxi8 o s
  | .cvtMxi4 o => Sys2Proof.Machine.execCvtMxi4 o s
  | .cvtUnrgb o => Sys2Proof.Machine.execCvtUnrgb o s
  | .cvtUnmx o => Sys2Proof.Machine.execCvtUnmx o s
  | .rcp o => Sys2Proof.Machine.execRcp o s
  | .rsqrt o => Sys2Proof.Machine.execRsqrt o s
  | .sqrt o => Sys2Proof.Machine.execSqrt o s
  | .exp2 o => Sys2Proof.Machine.execExp2 o s
  | .log2 o => Sys2Proof.Machine.execLog2 o s
  | .sin o => Sys2Proof.Machine.execSin o s
  | .cos o => Sys2Proof.Machine.execCos o s
  | .tanh o => Sys2Proof.Machine.execTanh o s
  | .fdiv o => Sys2Proof.Machine.execFdiv o s
  | .sigm o => Sys2Proof.Machine.execSigm o s
  | .smxMul o => Sys2Proof.Machine.execSmxMul o s
  | .smxMad o => Sys2Proof.Machine.execSmxMad o s
  | .smxAdd o => Sys2Proof.Machine.execSmxAdd o s
  | .smxScl o => Sys2Proof.Machine.execSmxScl o s
  | .smxTr o => Sys2Proof.Machine.execSmxTr o s
  | .smxSym o => Sys2Proof.Machine.execSmxSym o s
  | .smxId o => Sys2Proof.Machine.execSmxId o s
  | .smxChol o => Sys2Proof.Machine.execSmxChol o s
  | .smxLu o => Sys2Proof.Machine.execSmxLu o s
  | .smxSol o => Sys2Proof.Machine.execSmxSol o s
  | .smxLdSh o => Sys2Proof.Machine.execSmxLdSh o s
  | .smxStSh o => Sys2Proof.Machine.execSmxStSh o s
  | .vote o => Sys2Proof.Machine.execVote o s
  | .elect o => Sys2Proof.Machine.execElect o s
  | .bcast o => Sys2Proof.Machine.execBcast o s
  | .shf o => Sys2Proof.Machine.execShf o s
  | .prm o => Sys2Proof.Machine.execPrm o s
  | .matchKeys o => Sys2Proof.Machine.execMatchKeys o s
  | .red o => Sys2Proof.Machine.execRed o s
  | .scan o => Sys2Proof.Machine.execScan o s
  | .sscan o => Sys2Proof.Machine.execSscan o s
  | .rank o => Sys2Proof.Machine.execRank o s
  | .cmpct o => Sys2Proof.Machine.execCmpct o s
  | .part o => Sys2Proof.Machine.execPart o s
  | .lsel o => Sys2Proof.Machine.execLsel o s
  | .ldSh o => Sys2Proof.Machine.execLdSh o s
  | .stSh o => Sys2Proof.Machine.execStSh o s
  | .ldSp o => Sys2Proof.Machine.execLdSp o s
  | .stSp o => Sys2Proof.Machine.execStSp o s
  | .ldmT o => Sys2Proof.Machine.execLdmT o s
  | .ldPar o => Sys2Proof.Machine.execLdPar o s
  | .prefSp o => Sys2Proof.Machine.execPrefSp o s
  | .atm o => Sys2Proof.Machine.execAtm o s
  | .atmCas o => Sys2Proof.Machine.execAtmCas o s
  | .splPush o => Sys2Proof.Machine.execSplPush o s
  | .splPop o => Sys2Proof.Machine.execSplPop o s
  | .splRd o => Sys2Proof.Machine.execSplRd o s
  | .waitAddr o => Sys2Proof.Machine.execWaitAddr o s
  | .fenceC o => Sys2Proof.Machine.execFenceC o s
  | .barArv o => Sys2Proof.Machine.execBarArv o s
  | .barWait o => Sys2Proof.Machine.execBarWait o s
  | .barSync o => Sys2Proof.Machine.execBarSync o s
  | .bcp o => Sys2Proof.Machine.execBcp o s
  | .bcpWait o => Sys2Proof.Machine.execBcpWait o s
  | .bcpSt o => Sys2Proof.Machine.execBcpSt o s
  | .bbarInit o => Sys2Proof.Machine.execBbarInit o s
  | .bbarWait o => Sys2Proof.Machine.execBbarWait o s
  | .bbarAdd o => Sys2Proof.Machine.execBbarAdd o s
  | .bbarRd o => Sys2Proof.Machine.execBbarRd o s
  | .qInit o => Sys2Proof.Machine.execQInit o s
  | .qPush o => Sys2Proof.Machine.execQPush o s
  | .qPop o => Sys2Proof.Machine.execQPop o s
  | .qLen o => Sys2Proof.Machine.execQLen o s
  | .hngInit o => Sys2Proof.Machine.execHngInit o s
  | .hngTake o => Sys2Proof.Machine.execHngTake o s
  | .hngGive o => Sys2Proof.Machine.execHngGive o s
  | .hngRd o => Sys2Proof.Machine.execHngRd o s
  | .spawn o => Sys2Proof.Machine.execSpawn o s
  | .taskDone o => Sys2Proof.Machine.execTaskDone o s
  | .depArm o => Sys2Proof.Machine.execDepArm o s
  | .depDec o => Sys2Proof.Machine.execDepDec o s
  | .taskWait o => Sys2Proof.Machine.execTaskWait o s
  | .taskSt o => Sys2Proof.Machine.execTaskSt o s
  | .dqPush o => Sys2Proof.Machine.execDqPush o s
  | .dqPop o => Sys2Proof.Machine.execDqPop o s
  | .dqSteal o => Sys2Proof.Machine.execDqSteal o s
  | .mmGo o => Sys2Proof.Machine.execMmGo o s
  | .mmWait o => Sys2Proof.Machine.execMmWait o s
  | .mmSt o => Sys2Proof.Machine.execMmSt o s
  | .mxqPop o => Sys2Proof.Machine.execMxqPop o s
  | .mxqLen o => Sys2Proof.Machine.execMxqLen o s
  | .mxqRst o => Sys2Proof.Machine.execMxqRst o s
  | .wbLoad o => Sys2Proof.Machine.execWbLoad o s
  | .wbClr o => Sys2Proof.Machine.execWbClr o s
  | .spkPrio o => Sys2Proof.Machine.execSpkPrio o s
  | .spkMap o => Sys2Proof.Machine.execSpkMap o s
  | .spkRd o => Sys2Proof.Machine.execSpkRd o s
  | .sampEmit o => Sys2Proof.Machine.execSampEmit o s
  | .sampGth o => Sys2Proof.Machine.execSampGth o s
  | .trvInit o => Sys2Proof.Machine.execTrvInit o s
  | .trvStep o => Sys2Proof.Machine.execTrvStep o s
  | .trvHit o => Sys2Proof.Machine.execTrvHit o s
  | .prbStep o => Sys2Proof.Machine.execPrbStep o s
  | .texSmp o => Sys2Proof.Machine.execTexSmp o s
  | .texQry o => Sys2Proof.Machine.execTexQry o s
  | .truSort o => Sys2Proof.Machine.execTruSort o s
  | .rowPut o => Sys2Proof.Machine.execRowPut o s
  | .rowAck o => Sys2Proof.Machine.execRowAck o s
  | .cmbAlloc o => Sys2Proof.Machine.execCmbAlloc o s
  | .cmbPut o => Sys2Proof.Machine.execCmbPut o s
  | .cmbStat o => Sys2Proof.Machine.execCmbStat o s
  | .cmbFree o => Sys2Proof.Machine.execCmbFree o s
  | .instructionCacheFill die core ctx base pc => Sys2Proof.Machine.execInstructionCacheFill die core ctx base pc s
  | .joinRelease wid => Sys2Proof.Machine.execJoinRelease wid s
  | .laneSetStarved wid lane => Sys2Proof.Machine.execLaneSetStarved wid lane s
  | .warpBoost wid => Sys2Proof.Machine.execWarpBoost wid s
  | .spinDemote wid => Sys2Proof.Machine.execSpinDemote wid s
  | .waitTimeout wid seq => Sys2Proof.Machine.execWaitTimeout wid seq s
  | .recordResume wid seq => Sys2Proof.Machine.execRecordResume wid seq s
  | .warpReenter wid => Sys2Proof.Machine.execWarpReenter wid s
  | .storePerformed wid => Sys2Proof.Machine.execStorePerformed wid s
  | .scratchpadLineFill die core line => Sys2Proof.Machine.execScratchpadLineFill die core line s
  | .detRequestApply wid seq => Sys2Proof.Machine.execDetRequestApply wid seq s
  | .engineLineRelease op line => Sys2Proof.Machine.execEngineLineRelease op line s
  | .copyComplete op => Sys2Proof.Machine.execCopyComplete op s
  | .copyFault op => Sys2Proof.Machine.execCopyFault op s
  | .copyBlockWritten op block => Sys2Proof.Machine.execCopyBlockWritten op block s
  | .remoteLineAcquisition op => Sys2Proof.Machine.execRemoteLineAcquisition op s
  | .matrixStart op => Sys2Proof.Machine.execMatrixStart op s
  | .mxqRowPush op => Sys2Proof.Machine.execMxqRowPush op s
  | .matrixComplete op => Sys2Proof.Machine.execMatrixComplete op s
  | .forwardedRecordArrival op => Sys2Proof.Machine.execForwardedRecordArrival op s
  | .taskStart die core ctx => Sys2Proof.Machine.execTaskStart die core ctx s
  | .taskSteal die core ctx => Sys2Proof.Machine.execTaskSteal die core ctx s
  | .traversalReadComplete wid seq => Sys2Proof.Machine.execTraversalReadComplete wid seq s
  | .textureSampleComplete wid seq => Sys2Proof.Machine.execTextureSampleComplete wid seq s
  | .sampleGatherComplete wid seq => Sys2Proof.Machine.execSampleGatherComplete wid seq s
  | .putFirstByte op => Sys2Proof.Machine.execPutFirstByte op s
  | .putArrival op => Sys2Proof.Machine.execPutArrival op s
  | .combineDeadline die slot => Sys2Proof.Machine.execCombineDeadline die slot s
  | .combineRelease die slot => Sys2Proof.Machine.execCombineRelease die slot s
  | .launchRecordRead queue => Sys2Proof.Machine.execLaunchRecordRead queue s
  | .blockPlace launch => Sys2Proof.Machine.execBlockPlace launch s
  | .handlerDispatch wid seq => Sys2Proof.Machine.execHandlerDispatch wid seq s
  | .rtPreempt die core => Sys2Proof.Machine.execRtPreempt die core s
  | .drainTimeout block => Sys2Proof.Machine.execDrainTimeout block s
  | .blockSave block => Sys2Proof.Machine.execBlockSave block s
  | .watchdogExpiry ctx => Sys2Proof.Machine.execWatchdogExpiry ctx s
  | .uncorrectableError place => Sys2Proof.Machine.execUncorrectableError place s
  | .dieBridgeLinkLoss => Sys2Proof.Machine.execDieBridgeLinkLoss s
  | .coreDump ctx => Sys2Proof.Machine.execCoreDump ctx s
  | .pickerTick die => Sys2Proof.Machine.execPickerTick die s
  | .bandRequest die band => Sys2Proof.Machine.execBandRequest die band s
  | .bandScan die band => Sys2Proof.Machine.execBandScan die band s
  | .attestationRequest nonce => Sys2Proof.Machine.execAttestationRequest nonce s
  | .thermalDrop temp => Sys2Proof.Machine.execThermalDrop temp s
  | .thermalRise temp => Sys2Proof.Machine.execThermalRise temp s
  | .dvfsPointChange => Sys2Proof.Machine.execDvfsPointChange s
  | .hostBar2Write at_ data => Sys2Proof.Machine.execHostBar2Write at_ data s
  | .hostBar2Read at_ len => Sys2Proof.Machine.execHostBar2Read at_ len s
  | .deviceStart held => Sys2Proof.Machine.execDeviceStart held s
  | .sensorUnitDelivery die chan unit firstPt bad => Sys2Proof.Machine.execSensorUnitDelivery die chan unit firstPt bad s
  | .sensorI3cPeriod die chan unit firstPt bad => Sys2Proof.Machine.execSensorI3cPeriod die chan unit firstPt bad s
  | .inBandInterrupt die chan unit firstPt bad => Sys2Proof.Machine.execInBandInterrupt die chan unit firstPt bad s
  | .sensorChannelWrite die chan index value => Sys2Proof.Machine.execSensorChannelWrite die chan index value s
  | .bar0RegisterWrite offset value => Sys2Proof.Machine.execBar0RegisterWrite offset value s
  | .thermalTrip temp => Sys2Proof.Machine.execThermalTrip temp s
  | .pwrModeWrite belt => Sys2Proof.Machine.execPwrModeWrite belt s
  | .hostMemoryWrite addr data => Sys2Proof.Machine.execHostMemoryWrite addr data s
  | .tailWrite queue value => Sys2Proof.Machine.execTailWrite queue value s
  | .contextCreate id => Sys2Proof.Machine.execContextCreate id s
  | .contextRetire id => Sys2Proof.Machine.execContextRetire id s
  | .queueSwitchOut queue => Sys2Proof.Machine.execQueueSwitchOut queue s
  | .queueSwitchIn queue => Sys2Proof.Machine.execQueueSwitchIn queue s
  | .qctlErrClear queue => Sys2Proof.Machine.execQctlErrClear queue s

end Sys2Proof.Machine
end

