-- ==== Sys2Proof/Machine/Fetch.lean ====
section
/-! DEFINITION. Fetching the instruction at a position: cached words, fills, trap-on-issue words and their places
(spec/03_encoding_and_assembly.md R69 to R80; R34). -/

namespace Sys2Proof.Machine

/-- A word at a PC of a warp: in the core's instruction cache, to be filled, or not readable (its trap). -/
inductive CodeAt
  | cached (w : Nat)
  | absent
  | unmapped (code faddr : Nat)
  deriving DecidableEq, Repr

/-- The word at a PC (R75): its fill needs a translation with X. -/
def State.codeAt (s : State) (w : Warp) (pc : Nat) : CodeAt :=
  match (s.core w.die w.core).icache.find? (fun x => x.ctx == w.ctx && x.base == w.image.base && x.pc == pc) with
  | some x => .cached x.word.toNat
  | none =>
    match s.ctx? w.ctx with
    | none => .unmapped 0x18 (w.image.base + pc)
    | some c =>
      match s.readMainBytes c (w.image.base + pc) (2 ^ 202 + s.fresh) .fill 8 with
      | .ok _ => .absent
      | .trap t a => .unmapped t a

/-- What a lane set finds at its PC. -/
inductive Fetched
  /-- a word to be filled first -/
  | absent (pc : Nat)
  /-- one instruction of so many words -/
  | one (i : Instr) (words : Nat)
  /-- the two halves of a P word; none for an unassigned H opcode -/
  | pair (h0 h1 : Option Instr)
  /-- a trap-on-issue word: trap, half, opcode field, FADDR, repeats -/
  | trap (code half opc faddr repeats : Nat)
  deriving DecidableEq, Repr

/-- The opcode field of the first F word or X head from a PC on, past further prefixes (R69); none where there is none; or
the PC of a word to be filled first. Assumption log 29. -/
def State.opcodeFrom (s : State) (w : Warp) (pc : Nat) : Nat → Except Nat (Option Nat)
  | 0 => .ok none
  | n + 1 =>
    match s.codeAt w pc with
    | .absent => .error pc
    | .unmapped _ _ => .ok none
    | .cached x =>
      if x / 2 ^ 63 == 0 then .ok (some (x / 2 ^ 53 % 1024))
      else if isXHead x then .ok (some (x / 2 ^ 51 % 1024))
      else if x / 2 ^ 60 == 14 then s.opcodeFrom w (pc + 8) n
      else .ok none

/-- The repeats that the first repeat prefix among leading prefixes gives (Table 3.5); 0 where there is none. -/
def leadingRepeats (ws : List Nat) : Nat :=
  match (ws.takeWhile (fun x => x / 2 ^ 60 == 14)).find? (fun x => prefixType x == some 0) with
  | some x => x / 2 ^ 50 % 64 + 1
  | none => 0

/-- The instruction whose first words are given, taking further words as they are needed; the first argument bounds
them. -/
def State.fetchFrom (s : State) (w : Warp) (pc : Nat) : Nat → List Nat → Fetched
  | 0, _ => .trap 0x01 0 0 0 0
  | n + 1, ws =>
    match s.codeAt w (pc + 8 * ws.length) with
    | .absent => .absent (pc + 8 * ws.length)
    | .unmapped t a => .trap t 0 0 a 0
    | .cached x =>
      match decodeWords (ws ++ [x]) with
      | .short => s.fetchFrom w pc n (ws ++ [x])
      | .one i k => .one i k
      | .pair i j => .pair i j
      | .bad .badPrefix _ =>
        (match s.opcodeFrom w (pc + 8 * ws.length) 8 with
         | .error at_ => .absent at_
         | .ok none => .trap DecodeError.badPrefix.trap 0 0 0 0
         | .ok (some opc) => .trap DecodeError.badPrefix.trap 0 opc 0 (leadingRepeats (ws ++ [x])))
      | .bad e opc => .trap e.trap 0 opc 0 (leadingRepeats (ws ++ [x]))

/-- The first PC at which a kernel's words begin (R85, R86). -/
def Image.codeStart (m : Image) : Nat := 64 + 80 * m.nlive

/-- The instruction at a PC (R69, R79): nothing is decoded from the extension of an X head. -/
def State.fetch (s : State) (w : Warp) (pc : Nat) : Fetched :=
  if pc < w.image.codeStart + 8 then s.fetchFrom w pc 4 []
  else
    match s.codeAt w (pc - 8) with
    | .absent => .absent (pc - 8)
    | .unmapped _ _ => s.fetchFrom w pc 4 []
    | .cached x => if isXHead x then .trap 0x01 0 0 0 0 else s.fetchFrom w pc 4 []

end Sys2Proof.Machine
end

