-- ==== Sys2Proof/Machine/Issue.lean ====
section
/-! DEFINITION. Choosing what issues: warps on a port (R183 to R185), lane sets of a warp (R167 to R172), P words (R73,
R74), trap-on-issue words (R76, R78), and what an issue counts (R171, R184, R185). -/

namespace Sys2Proof.Machine

/-- What a step is about to do: run an instruction or event in a state, or nothing further. -/
inductive Plan
  | run (i : Instr) (s : State)
  | done (s : State)

/-- Lanes of a warp that may issue (Table 7.1). -/
def Warp.runnable (w : Warp) : List Nat := (List.range 32).filter (fun l => (w.lane l).st == .runnable)

/-- The issuing set of an instruction at a position (R70): its repeat index and the position after it. -/
def curOf (w : Warp) (x : (Nat × Nat × Nat) × List Nat) (i : Instr) (words : Nat) : Cur :=
  { wid := w.wid, lanes := x.2, pc := x.1.1, half := x.1.2.1, idx := x.1.2.2, count := i.repeats
    nextPc := (x.1.1 + 8 * words) % 2 ^ 32, nextHalf := 0 }

/-- The issuing set of a half of a P word (R74). -/
def halfCur (w : Warp) (x : (Nat × Nat × Nat) × List Nat) (h : Nat) : Cur :=
  { wid := w.wid, lanes := x.2, pc := x.1.1, half := h, idx := 0, count := 1
    nextPc := if h == 0 then x.1.1 else (x.1.1 + 8) % 2 ^ 32, nextHalf := if h == 0 then 1 else 0 }

/-- Instructions that a unit may hold back (R286, R299, R316, R318, R319). -/
def needsUnit (opc : Nat) : Bool := opc == 0x2C0 || opc == 0x300 || opc == 0x305 || opc == 0x306

/-- An instruction goes on in some lane of its set: the unit it needs accepts it (R183). -/
def State.accepted (s : State) (w : Warp) (x : (Nat × Nat × Nat) × List Nat) (i : Instr) (c : Cur) : Bool :=
  match exec i { s with cur := some c } with
  | .next t =>
    (match t.warp? w.wid with
     | none => true
     | some y => x.2.any (fun l => (y.lane l).st != .runnable || t.position y (y.lane l) != x.1))
  | _ => true

/-- A lane set can issue (R183). -/
def State.setReady (s : State) (w : Warp) (x : (Nat × Nat × Nat) × List Nat) : Bool :=
  match s.fetch w x.1.1 with
  | .one i k => !needsUnit i.opcode || s.accepted w x (i.atRepeat x.1.2.2) (curOf w x i k)
  | _ => true

/-- The lane sets of a warp that can issue, in the order of R169. DESIGN CHOICE (assumption log 20): primary and secondary are
the first two of these, so a set that its unit holds back makes room for the next. -/
def State.readySets (s : State) (w : Warp) : List ((Nat × Nat × Nat) × List Nat) :=
  (s.orderedSets w w.runnable).filter (s.setReady w)

/-- A warp is ready (R183). -/
def State.issuable (s : State) (w : Warp) : Bool := s.mayRun w && !(s.readySets w).isEmpty

/-- The keys of R183: class, boost, effective level, demotion, age, placement. -/
def Warp.portKey (w : Warp) : List Nat :=
  [w.prioClass, if w.boosted then 0 else 1, 15 - (if w.demoted then w.prioLevel - 1 else w.prioLevel), if w.demoted then 1 else 0,
   w.readySince, w.placedAt, w.wid]

/-- The ready warps of a port in the order of R183. -/
def State.portOrder (s : State) (d c p : Nat) : List Warp :=
  sortBy (fun a b => lexLt a.portKey b.portKey) ((s.warpsOn d c).filter (fun w => w.port == p && s.issuable w))

/-- The next port with a ready warp that has not issued in this cycle. -/
def State.nextPort (s : State) : Option (Nat × Nat × Nat) :=
  let keys := (s.warps.filter (fun w => w.resident && !s.portsDone.contains (w.die, w.core, w.port) && s.issuable w)).map (fun w =>
    (w.die, w.core, w.port))
  (sortBy (fun a b => lexLt [a.1, a.2.1, a.2.2] [b.1, b.2.1, b.2.2]) keys).head?

/-- What the issue of so many lane sets of a warp, of lanes ls, counts: lanes passed over (R171), the boost of the warps
behind it (R184), and the issues of its block (R434). -/
def State.noteIssue (s : State) (w : Warp) (ls : List Nat) (sets : Nat) : State :=
  let lane (l : Nat) (x : Lane) : Lane :=
    if ls.contains l then { x with passed := 0, starved := false }
    else if x.st == .runnable then { x with passed := x.passed + 1 } else x
  let behind := (s.portOrder w.die w.core w.port).map (·.wid)
  let note (y : Warp) : Warp :=
    if y.wid == w.wid then
      { y with readyCycles := 0, boosted := false, lanes := (List.range y.lanes.length).map (fun l => lane l (y.lane l)) }
    else if behind.contains y.wid && y.prioClass ≤ w.prioClass then { y with readyCycles := y.readyCycles + 1 } else y
  ({ s with warps := s.warps.map note }).modBlock (w.block.getD 0) (fun b => { b with issues := b.issues + sets })

/-- A port has issued in this cycle. -/
def State.portUsed (s : State) (w : Warp) : State := { s with portsDone := (w.die, w.core, w.port) :: s.portsDone }

/-- A word is filled before the port can issue: its move comes first (R75). -/
def State.fillFirst (s : State) (w : Warp) (pc : Nat) : Plan :=
  .run (.instructionCacheFill w.die w.core w.ctx w.image.base pc) { s with agenda := .port w.die w.core w.port :: s.agenda }

/-- A trap-on-issue word parks its lane set (R76), with REPC as R70 has it for the repeats its prefix gives (R425). -/
def State.parkSet (s : State) (w : Warp) (x : (Nat × Nat × Nat) × List Nat) (code half opc faddr repeats : Nat) : State :=
  let r := (w.lane (x.2.headD 0)).repc
  s.park w.wid x.2 code x.1.1 half (if r == 0 then repeats else r) opc faddr 0

/-- The trap of a P word and its half (R73): the lowest code, 0 for none. -/
def State.pairTrap (s : State) (w : Warp) (h0 h1 : Option Instr) : Nat × Nat :=
  let own (h : Option Instr) : Nat := match h with
    | none => 0x02
    | some i => s.issueTrap w i
  let rules := match h0, h1 with
    | some i, some j => if pairLegal i j then 0 else 0x04
    | _, _ => 0
  match sortBy (fun a b => lexLt [a.1, a.2] [b.1, b.2]) ([(own h0, 0), (own h1, 1), (rules, 0)].filter (fun x => x.1 != 0)) with
  | [] => (0, 0)
  | x :: _ => x

/-- The F opcode of a half of a P word (Table 9.4); 0 for an unassigned one. -/
def halfOpcode (h : Option Instr) : Nat := (h.map (·.opcode)).getD 0

/-- Owned lines, or held registers, that make a P word wait as a whole (R73, R216, R256). -/
def State.pairWait (s : State) (w : Warp) (x : (Nat × Nat × Nat) × List Nat) (i j : Instr) : Option State :=
  let e := s.env i (halfCur w x 0) w
  let f := s.env j (halfCur w x 1) w
  let ks := s.hBlockers e ++ s.hBlockers f
  let hs := (s.namesHeld w e.p i ++ s.namesHeld w f.p j).eraseDups
  if !hs.isEmpty then some (s.suspend e { lanes := x.2, before := true, wait := .hold hs })
  else if !ks.isEmpty then some (s.suspendBefore e ks (s.hLanes e).2)
  else none

/-- Issue a P word in one lane set (R74): both halves, or half 1 alone where the lanes stand at it. -/
def State.pairPlan (s : State) (w : Warp) (x : (Nat × Nat × Nat) × List Nat) (h0 h1 : Option Instr) : Plan :=
  let s1 := (s.noteIssue w x.2 1).portUsed w
  let t := s.pairTrap w h0 h1
  if t.1 != 0 then .done (s1.parkSet w x t.1 t.2 (halfOpcode (if t.2 == 0 then h0 else h1)) 0 0)
  else
    match h0, h1 with
    | some i, some j =>
      if x.1.2.1 == 1 then .run j { s1 with cur := some (halfCur w x 1) }
      else
        match s1.pairWait w x i j with
        | some s2 => .done s2
        | none => .run i { s1 with cur := some (halfCur w x 0), secondary := some (halfCur w x 1) }
    | _, _ => .done s1

/-- Two instructions may issue in one cycle for two sets of a warp (R169, R170): neither is a trap-on-issue word (R76). -/
def dualIssue (i j : Instr) : Bool :=
  !i.badOperand && !j.badOperand && opClass i.opcode != opClass j.opcode && disjoint (banksOf i.regsRead) (banksOf j.regsRead)

/-- PART, RND and AXC of a warp. -/
def Warp.controls (w : Warp) : WarpRegs := ⟨w.part, w.rnd, w.axc⟩

/-- Issue one instruction for the primary set, and another for a secondary set where R169 allows it: the primary's effects
come first (R172), and the secondary reads the control registers as they were before (R135). -/
def State.onePlan (s : State) (w : Warp) (x : (Nat × Nat × Nat) × List Nat) (i : Instr) (k : Nat)
    (second : Option (((Nat × Nat × Nat) × List Nat) × Instr × Nat)) : Plan :=
  let i1 := i.atRepeat x.1.2.2
  let c1 := curOf w x i k
  match second with
  | none => .run i1 { (s.noteIssue w x.2 1).portUsed w with cur := some c1 }
  | some (y, j, m) =>
    let c2 : Cur := { curOf w y j m with regs := some w.controls }
    let s1 := (s.noteIssue w (x.2 ++ y.2) 2).portUsed w
    .run i1 { s1 with cur := some c1, secondary := some c2 }

/-- A port's turn: the chosen warp's first lane set issues what it finds at its PC. -/
def State.portPlan (s : State) (d c p : Nat) : Plan :=
  match s.portOrder d c p with
  | [] => .done { s with portsDone := (d, c, p) :: s.portsDone }
  | w :: _ =>
    match s.readySets w with
    | [] => .done (s.portUsed w)
    | x :: rest =>
      match s.fetch w x.1.1 with
      | .absent pc => s.fillFirst w pc
      | .trap code half opc faddr n => .done (((s.noteIssue w x.2 1).portUsed w).parkSet w x code half opc faddr n)
      | .pair h0 h1 => s.pairPlan w x h0 h1
      | .one i k =>
        match rest with
        | [] => s.onePlan w x i k none
        | y :: _ =>
          match s.fetch w y.1.1 with
          | .absent pc => s.fillFirst w pc
          | .one j m =>
            if dualIssue (i.atRepeat x.1.2.2) (j.atRepeat y.1.2.2) then s.onePlan w x i k (some (y, j, m))
            else s.onePlan w x i k none
          | _ => s.onePlan w x i k none

/-- The second issue of a cycle: half 1 of a P word or the other set's instruction, in those of its lanes that still stand
there. -/
def State.secondPlan (s : State) (c : Cur) : Plan :=
  let s1 := { s with secondary := none }
  match s.warp? c.wid with
  | none => .done s1
  | some w =>
    let ls := c.lanes.filter (fun l => (w.lane l).st == .runnable && s.position w (w.lane l) == (c.pc, c.half, c.idx))
    let s2 : State := { s1 with cur := some { c with lanes := ls } }
    if ls.isEmpty then .done s1
    else
      match s.fetch w c.pc with
      | .one i _ => .run (i.atRepeat c.idx) s2
      | .pair _ (some j) => .run j s2
      | _ => .done s1

/-- Instructions that end a spin when they act (R185): stores and atomics; queue, ring and deque operations and engine
operations (sample, traversal and texture requests among them), but not polls and waits that only read state; writes of a control register, SPS, DIG and PART among them (assumption log
21). -/
def breaksSpin (opc : Nat) : Bool :=
  isStoreOp opc ||
    [0x003, 0x004, 0x005, 0x00C, 0x00D, 0x00E, 0x010, 0x20B, 0x24A, 0x24B, 0x2C0, 0x2C4, 0x2C6, 0x2C8, 0x2C9, 0x2CA, 0x2CC,
     0x2CD, 0x2CE].contains opc ||
    [0x2D0, 0x2D1, 0x2D2, 0x2D3, 0x2D8, 0x2D9, 0x2DA, 0x300, 0x303, 0x305, 0x306, 0x307, 0x340, 0x341, 0x343, 0x34C, 0x34D,
     0x380, 0x381, 0x383, 0x344, 0x346, 0x348, 0x349, 0x34A].contains opc

/-- Some register of a lane of a warp changed. -/
def regsChanged (a b : Warp) : Bool := (List.range 32).any (fun l => (a.lane l).regs != (b.lane l).regs)

/-- The spin detector after a move (R185): before and after. A suspension ends the watch. -/
def State.watchSpin (t s : State) (i : Instr) (wid : Nat) : State :=
  match s.warp? wid, t.warp? wid with
  | some a, some b =>
    let acted := match s.cur with
      | some c => breaksSpin i.opcode && c.lanes.any (fun l => predTrue s a c.lanes l i.operands.pred)
      | none => false
    if acted || regsChanged a b then t.modWarp wid (fun w => { w with loopCount := 0, demoted := false })
    else if a.records.length < b.records.length then t.modWarp wid (fun w => { w with loopCount := 0 })
    else t
  | _, _ => t

/-- What follows a move: the spin detector, and the warps that have resumed in this cycle (R227). -/
def State.closeMove (t s : State) (i : Instr) : State :=
  match s.cur, i with
  | some c, _ => t.watchSpin s i c.wid
  | none, .recordResume wid _ => { t.watchSpin s i wid with resumed := wid :: t.resumed }
  | none, _ => t

end Sys2Proof.Machine
end

