-- ==== Sys2Proof/Machine/Settle.lean ====
section
/-! DEFINITION. What follows every move at once: waits that have ended (R216 to R225, R238, R269 to R272, R292 to R296,
R310, R313, R333, R338, R343, R347, R392, R399), warps that have ended (R34, R334, R427), launches that are over (R336). -/

namespace Sys2Proof.Machine

/-- Make the accesses of a suspended instruction again, from the operand words it read (R216, R219). -/
def State.tryAgain (s : State) (w : Warp) (r : Record) : Option Try :=
  match r.instr with
  | none => none
  | some i =>
    match i with
    | .ldSh _ => some (loadTry i true s w r.vals)
    | .ldSp _ => some (loadTry i false s w r.vals)
    | .stSh _ => some (storeTry i true (w.made + 1) s w r.vals)
    | .stSp _ => some (storeTry i false (w.made + 1) s w r.vals)
    | .ldmT _ => some (ldmTry i s w r.vals)
    | .atm _ => some (atomicTry i (w.made + 1) s w r.vals)
    | .atmCas _ => some (atomicTry i (w.made + 1) s w r.vals)
    | .waitAddr _ => some (waitTry i s w r.vals)
    | .bbarInit _ => some (bbarTry i s w r.vals)
    | .bbarAdd _ => some (bbarTry i s w r.vals)
    | .bbarRd _ => some (bbarTry i s w r.vals)
    | .bbarWait _ => some (bbarWaitTry i s w r.vals)
    | .prbStep _ => some (probeTry i s w r.vals)
    | .texQry _ => some (texQryTry i s w r.vals)
    | _ => none

/-- What came of trying again: results, a further wait, traps of some lanes. -/
def afterTry (w : Warp) (r : Record) (t : Try) : Option State :=
  let s1 := if t.traps.isEmpty then t.s else t.s.trapLanes w r t.traps
  let gone := r.lanes.all (fun l => t.traps.any (fun x => x.lane == l))
  match t.wait with
  | none => some (if gone then s1 else s1.ready w.wid r.seq t.ws)
  | some x =>
    if x == r.wait && t.traps.isEmpty then none
    else some (s1.modRecord w.wid r.seq (fun y => { y with wait := x, results := y.results ++ t.ws }))

/-- Try the accesses of a record again, where nothing is in their way any more. -/
def State.retry (s : State) (w : Warp) (r : Record) : Option State :=
  match s.tryAgain w r with
  | some t => afterTry w r t
  | none => some (s.readyStatus w.wid r 0)

/-- Go on with an access of a record under the registers with which it was issued (R31). -/
def State.tryUnder (s : State) (ctx : Nat) (o : OldRegs) (f : State → Option State) : Option State :=
  match s.ctx? ctx with
  | none => f s
  | some c => if o == {} then f s else (f (s.seenUnder ctx o)).map (fun t => t.modCtx ctx (·.under (c.like o)))

/-- Lanes of a record raise the pending fault of a copy (R292); entries that a task.done had reserved are returned (R333). -/
def State.trapWaiter (s : State) (w : Warp) (r : Record) (f : Nat × Nat) (handle : Nat) : State :=
  let s1 := match r.wait with
    | .taskDone _ k => s.under w.ctx r.old (fun s => s.dqReserve w w.core (fun x => x - BitVec.ofNat 32 k))
    | _ => s
  s1.trapRecord w r f.1 f.2 handle

/-- The pending fault of a copy is reported in records of its warp that wait at a point of R292, and the copy is retired. -/
def State.reportIn (s : State) (w : Warp) (o : EngineOp) (rs : List Record) : State :=
  match o.fault, o.kind with
  | some f, .copy c => (rs.foldl (fun s r => s.trapWaiter w r f c.handle) s).retireFaulted o
  | _, _ => s

/-- A warp may report a pending fault: it is on a core, not being switched out, and not halted (R436, R437, R443). -/
def State.reports (s : State) (w : Warp) : Bool := w.resident && !s.halted w && !s.stopped w

/-- Pending faults that waiting records have met are reported (R292), the earliest-issued copies first. -/
def State.settleFaults (s : State) : State :=
  s.ops.foldl (fun s o =>
    match s.op? o.oid, s.warp? o.wid with
    | some o, some w =>
      (match o.kind, o.fault with
       | .copy c, some _ =>
         let rs := w.faultWaiters o c
         if rs.isEmpty || !s.reports w then s else s.reportIn w o rs
       | _, _ => s)
    | _, _ => s) s

/-- The pending fault that a bbar.wait meets once the line of its barrier is free (R292). -/
def State.freedFault (s : State) (w : Warp) (r : Record) : Option EngineOp :=
  match r.instr with
  | some (.bbarWait o) => if !s.reports w then none
    else s.barrierFault w (!o.modBit 0) ((r.vals.map (fun v => v.b0.toNat)).headD 0) ((r.vals.map (·.a0)).headD 0)
  | _ => none

/-- A wait for a word (R271): the write event that satisfied it has been performed. -/
def State.settleWord (s : State) (w : Warp) (r : Record) (latch : Option Latch) : Option State :=
  let o := (r.instr.map (·.operands)).getD (Instr.operands (.nop ⟨.f, .reg 0, .reg 0, .reg 0, .always, 0, none, none⟩))
  match latch with
  | some y =>
    let done := y.wid == 0 || (match s.warp? y.wid with
      | none => true
      | some p => decide (y.iss ≤ p.prf))
    if done then some (s.ready w.wid r.seq (waitWrites o r.vals 0 y.val)) else none
  | none => none

/-- A record is the first that waits for its object. -/
def State.firstWaiter (s : State) (w : Warp) (r : Record) (f : Warp → Record → Bool) : Bool :=
  ((s.waiters f).head?.map (fun x => (x.1.wid, x.2.seq))) == some (w.wid, r.seq)

/-- Suspensions of one cycle are served by ascending die, core, warp and SEQ (R343). -/
def State.firstInQueue (s : State) (w : Warp) (r : Record) (push : Bool) (at_ : Nat) : Bool :=
  let xs := s.waiters (waitsQueue w.die at_ push)
  let ys := sortBy (fun (x y : Warp × Record) =>
    recordLt [x.2.suspendedAt, x.1.core, x.1.index] [y.2.suspendedAt, y.1.core, y.1.index] x.2.seq y.2.seq) xs
  (ys.head?.map (fun x => (x.1.wid, x.2.seq))) == some (w.wid, r.seq)

/-- A push that waits (R343). -/
def State.settlePush (s : State) (w : Warp) (r : Record) (at_ : Nat) : Option State :=
  let q := s.queueDesc w (at_ - s.spaceAddr w false 0)
  if s.firstInQueue w r true at_ && q.hasRoom r.lanes.length && !s.malformed w q then
    some ((s.pushEntries w q r.vals).readyStatus w.wid r 0)
  else none

/-- A pop that waits (R343). -/
def State.settlePop (s : State) (w : Warp) (r : Record) (at_ : Nat) : Option State :=
  let q := s.queueDesc w (at_ - s.spaceAddr w false 0)
  let k := r.lanes.length
  if s.firstInQueue w r false at_ && decide (k ≤ q.count) && s.popsPassed w.die q k && !s.malformed w q then
    (let p := s.popEntries w q ((r.instr.map (·.operands.d)).getD (.spc .zero)) r.lanes
     some (p.1.ready w.wid r.seq p.2))
  else none

/-- Engine operations have completed, or are gone. -/
def State.opsDone (s : State) (ops : List Nat) : Bool :=
  ops.all (fun k => match s.op? k with
    | none => true
    | some o => o.complete)

/-- The fence of task.done has ended (R333): claimed lanes get their status, the others end. In a halted context the record is
ready and has no effect any more (R448). -/
def State.settleDone (s : State) (w : Warp) (r : Record) (ops : List Nat) (k : Nat) : State :=
  let s1 := s.foldOps ops
  let own (l : Nat) : Bool := r.vals.any (fun v => v.lane == l && v.b0 == w.tcb)
  let rest := r.lanes.filter (fun l => !own l)
  let s2 := if rest.isEmpty then s1.freeRecord w.wid r.seq else s1.narrowRecord w.wid r.seq rest
  let e := s2.endDone w ((r.instr.map (·.operands.d)).getD (.spc .zero)) r.vals k r.ipc r.ihalf
  if s.halted w then s1.ready w.wid r.seq []
  else if rest.isEmpty then e.1 else e.1.ready w.wid r.seq e.2

/-- A block's sort phase (R393). -/
def State.settleSort (s : State) (w : Warp) : Option State :=
  match w.block with
  | some b => if s.sortReady b then some (s.sortComplete b) else none
  | none => none

/-- A queue entry for a record that waits on a matrix queue (R317), as it stands after a restore. -/
def State.settleMxq (s : State) (w : Warp) (r : Record) (q : Nat) : Option State :=
  let b := w.block.getD 0
  match (s.mxqOf w q).entries with
  | x :: xs =>
    if s.firstWaiter w r (waitsMxq b q) then
      some ((s.modMxq b q (fun m => { m with entries := xs })).ready w.wid r.seq
        (mxqWrites ((r.instr.map (·.operands.d)).getD (.spc .zero)) r.lanes x))
    else none
  | [] => none

/-- What a waiting record waits for has come (none while it has not). -/
def State.settleRecord (s : State) (w : Warp) (r : Record) : Option State :=
  let status (b : Bool) : Option State := if b then some (s.readyStatus w.wid r 0) else none
  match r.wait with
  | .nothing => none
  | .lines ks =>
    if ks.any s.isOwned then none
    else if r.before then some (s.ready w.wid r.seq [])
    else
      match s.freedFault w r with
      | some o => some (s.reportIn w o [r])
      | none => s.retry w r
  | .fill ls => if ls.all (s.holdsLine w.die w.core) then s.retry w r else none
  | .hold regs => if regs.any (s.heldRegs w.wid).contains then none else some (s.ready w.wid r.seq [])
  | .traversal => none
  | .texture => none
  | .gather => none
  | .atomic n => if n ≤ w.prf then some (s.ready w.wid r.seq []) else none
  | .word _ _ _ _ latch => s.settleWord w r latch
  | .copy h lost =>
    (match s.copyOf w.die w.core h, lost with
     | none, false => some ((s.foldHandle w h).readyStatus w.wid r 0)
     | _, _ => none)
  | .byteBarrier sp a tok => status (phasePassed (s.spaceWord (w.space (!sp)) (a + 4)) tok)
  | .barrier k tok => status (phasePassed (s.barrierOf w k).gen (BitVec.ofNat 32 tok))
  | .qPush a => s.settlePush w r a
  | .qPop a => s.settlePop w r a
  | .ring k i ph => status ((s.ringOf w k).slotPhase i == ph)
  | .task t kids => status (s.taskReached w t kids)
  | .ticket t => status (w.ticketDone t)
  | .mxq q => s.settleMxq w r q
  | .slot _ =>
    (match s.freeSlotFrom w.die Config.combineSlots 0, s.slotWaiters w.die with
     | some _, x :: _ => if x.1.wid == w.wid && x.2.seq == r.seq then some (s.grantWaiters w.die 1) else none
     | _, _ => none)
  | .det _ _ _ => none
  | .fence ops => if s.opsDone ops then some ((s.foldOps ops).readyStatus w.wid r 0) else none
  | .taskDone ops k => if s.opsDone ops then some (s.settleDone w r ops k) else none
  | .sortFence ops => if s.opsDone ops then some ((s.foldOps ops).rewait w.wid r.seq .sortPhase) else none
  | .sortPhase => s.settleSort w

/-- Waiting records that may be served, in the order in which they suspended. -/
def State.served (s : State) : List (Warp × Record) :=
  sortBy (fun (x y : Warp × Record) =>
    recordLt [x.2.suspendedAt, x.1.die, x.1.core, x.1.index] [y.2.suspendedAt, y.1.die, y.1.core, y.1.index] x.2.seq y.2.seq)
    ((s.waiters (fun _ _ => true)).filter (fun x => s.serves x.1))

/-- Serve waiting records until none can be served; the first argument bounds the number. -/
def State.settleRecords : Nat → State → State
  | 0, s => s
  | n + 1, s =>
    match s.served.findSome? (fun x => s.tryUnder x.1.ctx x.2.old (fun s =>
      s.foldInPlace x.1.wid x.2.seq (fun s => s.settleRecord x.1 x.2))) with
    | some t => State.settleRecords n t
    | none => s

/-- A warp whose lanes have all ended leaves once its engine operations have completed; a pending copy fault is reported
first, in the lanes that ended last (R34, R292). DESIGN CHOICE (assumption log 61): in a halted context none leaves, and the
dump finds it. -/
def State.endWarp (s : State) (w : Warp) : State :=
  let ops := s.ops.filter (fun o => o.wid == w.wid)
  if !w.allEnded || !w.resident || s.halted w || ops.any (fun o => !o.complete && o.fault.isNone) then s
  else
    match ops.find? (fun o => o.fault.isSome), w.exitWait with
    | some op, some x =>
      (match op.fault, op.kind with
       | some f, .copy c =>
         if s.reports w then
           ((s.modWarp w.wid (fun y => { y with exitWait := none })).park w.wid x.lanes f.1 x.pc x.half 0 x.opc f.2 c.handle).retireFaulted op
         else s
       | _, _ => s)
    | _, _ =>
      let s1 := s.foldOps (ops.map (·.oid))
      let s1 := ops.foldl (fun s o => s.loseHandle o) s1
      let s2 : State := { s1 with ops := s1.ops.filter (fun o => o.wid != w.wid) }
      match s2.warp? w.wid with
      | none => s2
      | some y =>
        match w.kind with
        | .task => s2.under w.ctx ((w.exitWait.map (·.old)).getD {}) (fun s => s.endTaskWarp y)
        | .handler => s2.endHandler y
        | _ => s2.leaveBlock y

/-- Everything that follows a move at once. -/
def State.settle (s : State) : State :=
  let n (s : State) : Nat := 4 * (s.waiters (fun _ _ => true)).length + 4
  let s0 := s.storeWords.escalateDue.settleFaults
  let s1 := (State.settleRecords (n s0) s0).drainFolds
  let s2 := s1.warps.foldl (fun s w => match s.warp? w.wid with
    | some y => s.endWarp y
    | none => s) s1
  let s3 := s2.launches.foldl (fun s l => s.checkLaunch l.lid) s2
  let s4 := s3.launches.foldl (fun s l => match l.rtCore with
    | some c => if s.rtWaits l.die c then s.leaveSet l.die c else s
    | none => s) s3
  let s5 := (((s4.takeHost []).settleUnits).storeWords).switchTick
  (State.settleRecords (n s5) s5).drainFolds.escalateDue

end Sys2Proof.Machine
end

