-- ==== Sys2Proof/Machine/Schedule.lean ====
section
/-! DEFINITION. What happens next: moves of the agenda, ports in order, and at the end of a cycle the events that are due,
one a step, until the clocks advance (R164, R172, R174, R227; R29, R350, R439, R473). Assumption log 2. -/

namespace Sys2Proof.Machine

/-- An event would change the state. -/
def State.changes (s : State) (i : Instr) : Bool :=
  match exec i s with
  | .next t => t != s
  | _ => false

/-- Events of warps that are due: joins, starvation, boost, demotion, stores, records that only an event completes. -/
def State.warpEvents (s : State) : List Instr :=
  s.warps.flatMap (fun w =>
    (if w.runnable.isEmpty && w.lowestJoin.isSome then [.joinRelease w.wid] else []) ++
    ((List.range 32).filter (fun l => decide (64 ≤ (w.lane l).passed) && !(w.lane l).starved)).map (fun l => .laneSetStarved w.wid l) ++
    (if 2048 ≤ w.readyCycles && !w.boosted then [.warpBoost w.wid] else []) ++
    (if 16 ≤ w.loopCount && !w.demoted then [.spinDemote w.wid] else []) ++
    (if w.prf < w.made then [.storePerformed w.wid] else []) ++
    (w.records.filter (fun r => r.state == .waiting)).flatMap (fun r => match r.wait with
      | .fill ls => ls.map (fun l => .scratchpadLineFill w.die w.core l)
      | .traversal => [.traversalReadComplete w.wid r.seq]
      | .texture => [.textureSampleComplete w.wid r.seq]
      | .gather => [.sampleGatherComplete w.wid r.seq]
      | .det _ _ _ => [.detRequestApply w.wid r.seq]
      | _ => []))

/-- Events of an engine operation. -/
def State.opEvents (s : State) (o : EngineOp) : List Instr :=
  let release := (s.linesOfOwner (.op o.oid)).map (fun k => Instr.engineLineRelease o.oid k)
  if o.complete || o.fault.isSome then []
  else
    match o.kind with
    | .copy c =>
      [.remoteLineAcquisition o.oid, .copyFault o.oid] ++ release ++
        (c.blocks ((s.seenUnder o.ctx o.old).copyLimit o c)).map (fun b => .copyBlockWritten o.oid b) ++ [.copyComplete o.oid]
    | .matrix _ => [.matrixStart o.oid, .mxqRowPush o.oid, .matrixComplete o.oid]
    | .clear _ _ _ => release
    | .forward _ _ => [.forwardedRecordArrival o.oid]
    | .put _ => [.putFirstByte o.oid, .putArrival o.oid]

/-- Events of the Combine Units. -/
def State.slotEvents (s : State) : List Instr :=
  (List.range 2).flatMap (fun d => ((s.die d).slots.filter (fun x => x.state == .opened || x.state == .closed)).flatMap (fun x =>
    [.combineDeadline d x.slot, .combineRelease d x.slot]))

/-- Deques of a context on a die hold an entry. -/
def State.tasksWait (s : State) (d ctx : Nat) : Bool :=
  (List.range Config.coresPerDie).any (fun c => (s.deque (coreWarp d c ctx) c).2 != 0 && s.dqCount (coreWarp d c ctx) c != 0)

/-- Events of launches, tasks, blocks and contexts. -/
def State.workEvents (s : State) : List Instr :=
  ((List.range 16).filter (fun q => (s.queue q).pending)).map (fun q => .launchRecordRead q) ++
  (List.range 2).flatMap (fun d =>
    (match s.placeOrder d with
     | l :: _ => (match s.rtCoreFor l with
       | some c => [Instr.rtPreempt d c]
       | none => []) ++ [Instr.blockPlace l.lid]
     | [] => []) ++
    (List.range Config.coresPerDie).flatMap (fun c => ((s.reenterers d c).head?.map (fun w => Instr.warpReenter w.wid)).toList) ++
    s.ctxs.flatMap (fun x =>
      ((s.undispatched x.id d).head?.map (fun y => Instr.handlerDispatch y.1.wid y.2.seq)).toList ++
      (if x.residentOn d && s.tasksWait d x.id then
        (List.range Config.coresPerDie).map (fun c => Instr.taskStart d c x.id) ++
          (List.range Config.coresPerDie).map (fun c => Instr.taskSteal d c x.id)
       else []))) ++
  s.blocks.flatMap (fun b => match b.residency with
    | .draining _ => [.drainTimeout b.bid]
    | .saving => [.blockSave b.bid]
    | _ => []) ++
  s.ctxs.flatMap (fun c => (if c.escalated.isSome && !c.dumped then [.coreDump c.id] else []) ++
    (if c.wdgEn then [.watchdogExpiry c.id] else []))

/-- Events of real time: picker ticks, bands, a point change, thermal control (R473); and the answer to a nonce (R472). -/
def State.timeEvents (s : State) : List Instr :=
  (List.range 2).flatMap (fun d =>
    let x := s.die d
    (if (x.render.pt + 1) * microsecond ≤ s.realTime then [.pickerTick d] else []) ++
    (if x.scans then
      [.bandScan d (if x.bandCount ≤ x.render.nextScan then 0 else x.render.nextScan),
       .bandRequest d (x.render.nextReq % x.bandCount)] else [])) ++
  (if s.modeDue.isSome then [.dvfsPointChange] else []) ++
  (if 100 ≤ s.temp && s.point < 2 && s.hotTicks + millisecond ≤ s.realTime then [.thermalDrop s.temp] else []) ++
  (if s.temp < 90 && 0 < s.point && s.coolTicks + 100 * millisecond ≤ s.realTime then [.thermalRise s.temp] else []) ++
  (if s.nonceDue then [.attestationRequest (s.mailbox.take 32)] else [])

/-- Timeouts (R224), and after them the records that resume, one of each warp in a cycle (R227). -/
def State.recordEvents (s : State) : List Instr :=
  s.warps.flatMap (fun w => (w.records.filter (s.timedOut w)).map (fun r => .waitTimeout w.wid r.seq)) ++
  (s.warps.filter (fun w => !s.resumed.contains w.wid)).flatMap (fun w =>
    (w.nextReady.map (fun r => Instr.recordResume w.wid r.seq)).toList)

/-- The next event that is due at the end of a cycle. Deadlines and releases of the Combine Units come before the instructions
of a cycle (R404), so that after these they wait for the next one. -/
def State.nextEvent (s : State) : Option Instr :=
  (s.warpEvents ++ s.ops.flatMap s.opEvents ++ (if s.portsDone.isEmpty then s.slotEvents else []) ++ s.workEvents ++ s.timeEvents ++ s.recordEvents).find? s.changes

/-- Length of a core clock cycle in units of 1/36 ns (Table 23.9). -/
def State.cycleTime (s : State) : Nat :=
  match s.belt, s.point with
  | false, 0 => 36
  | false, 1 => 45
  | false, _ => 60
  | true, 0 => 60
  | true, 1 => 80
  | true, _ => 120

/-- A warp at the end of a cycle: one that is not ready ages from the next (R183, R184). -/
def State.ageWarp (s : State) (w : Warp) : Warp :=
  if s.issuable w then w else { w with readySince := (s.die w.die).clkr + 1, readyCycles := 0 }

/-- A context at the end of a cycle: CLK and the watchdog count while it has a resident warp (R29, R439). -/
def State.ageCtx (s : State) (c : Context) : Context :=
  if s.warps.any (fun w => w.ctx == c.id && w.resident) then
    { c with clk := c.clk + 1, wdgCount := if c.wdgEn && c.wdgCount < 2 ^ c.wdgK.toNat then c.wdgCount + 1 else c.wdgCount }
  else c

/-- The clocks advance by one cycle; real time alone does when they are stopped (R473). -/
def State.tick (s : State) : State :=
  let s1 := { s with realTime := s.realTime + s.cycleTime }
  if s.clocksStopped then s1
  else
    { s1 with
      dies := s.dies.map (fun d => { d with clkr := d.clkr + 1, cores := d.cores.map (fun c => { c with released := [] }) })
      ctxs := s.ctxs.map s.ageCtx, warps := s.warps.map s.ageWarp, portsDone := [], resumed := [] }

/-- The end of a cycle. -/
def State.endCycle (s : State) : Plan :=
  if s.clocksStopped then .done s.tick
  else
    match s.nextEvent with
    | some i => .run i s
    | none => .done s.tick

/-- A port's turn: the deadlines and releases of the Combine Units that are due come before every instruction of the cycle
(R404). -/
def State.turnPlan (s : State) (d c p : Nat) : Plan :=
  match if s.portsDone.isEmpty then s.slotEvents.find? s.changes else none with
  | some i => .run i { s with agenda := .port d c p :: s.agenda }
  | none => s.portPlan d c p

/-- A move of the agenda: an instruction of the table is no event, and a port issues at most once in a cycle (R183). -/
def State.movePlan (s : State) : Move → Plan
  | .event i => if i.isa?.isSome then .done s else .run i s
  | .port d c p => if s.clocksStopped || s.portsDone.contains (d, c, p) then .done s else s.turnPlan d c p
  | .endCycle => s.endCycle

/-- What the machine does next: the second issue of a cycle, the agenda, the start of the device, a port, the end of the
cycle. -/
def State.plan (s : State) : Plan :=
  match s.secondary, s.agenda with
  | some c, _ => s.secondPlan c
  | none, m :: ms => ({ s with agenda := ms } : State).movePlan m
  | none, [] =>
    if s.bootState == 0 then .run (.deviceStart (some false)) s
    else if s.bootState < 4 then .run (.deviceStart none) s
    else if s.clocksStopped then .done s.tick
    else
      match s.nextPort with
      | some p => s.turnPlan p.1 p.2.1 p.2.2
      | none => s.endCycle

end Sys2Proof.Machine
end

