-- ==== Sys2Proof/Machine/Step.lean ====
section
/-! DEFINITION. One step of the machine, and an instruction placed where the next step issues it. -/

namespace Sys2Proof.Machine

/-- A move is over: what follows it has followed, and no lane set issues any more. -/
def State.finish (s : State) : State := { s.settle with cur := none }

/-- One step: what the plan names runs, and what follows it follows at once. -/
def step (s : State) : Host.Outcome State Fault Refusal :=
  match s.plan with
  | .done t => .next t.finish
  | .run i t =>
    match exec i t with
    | .next u => .next (u.closeMove t i).finish
    | .fault f => .fault f
    | .refused r => .refused r

/-- The context, block and warp that run a placed instruction: one block of one warp of context 1 on core 0 of die 0. -/
def State.placed (s : State) (ws : List Nat) : State :=
  let image : Image := { regs := 640, entry := 64, codesz := 64 + 8 * ws.length }
  let c : Context := { id := 1, ctxId := 1, dies := List.replicate 2 { dqb := List.replicate 32 0, dql := List.replicate 32 0 } }
  let lid := s.nextId
  let l : Launch := { lid := lid, kind := .queue 0 0, ctx := 1, die := 0, lrec := { cls := 2 }, image := image, tag := 1, phase := .started, nextBlock := 1 }
  let b := l.newBlock (lid + 1) 0 0
  let code := (List.range ws.length).map (fun k => ({ ctx := 1, base := 0, pc := 64 + 8 * k, word := BitVec.ofNat 64 (ws.getD k 0) } : CodeWord))
  let s1 : State :=
    { s with bootState := 4, ctxs := c :: s.ctxs.filter (fun x => x.id != 1), launches := s.launches ++ [l], blocks := s.blocks ++ [b]
             nextId := lid + 3 }
  let w := blockWarp l (lid + 1) 0 0 (0, .g) 1 (s1.freshWarp (lid + 2) 0 0 1 0 image 64 [] (fun _ => []))
  { s1.modCore 0 0 (fun x => { x with icache := code }) with
    warps := s1.warps ++ [w], cur := none, secondary := none, portsDone := [], agenda := [.port 0 0 0] }

/-- A state in which the next step issues the instruction whose bits are w; the words above nbits are 0 (assumption
log 1). -/
def State.withFetchWord (s : State) (nbits w : Nat) : State := s.placed (wordsOfNat 4 (w % 2 ^ nbits))

end Sys2Proof.Machine
end

