-- ==== Sys2Proof/Safety.lean ====
section
/-! DEFINITION. The terms in which claims about runs are made: a step that answers, memories in canonical form, the
instruction that a state is about to issue, what the machine shows of its lanes and memories, and what an instruction
that only writes registers leaves unchanged. -/

namespace Sys2Proof.Machine

/-- A step answers a next state: the run goes on. -/
def GoesOn (s : State) : Prop := ∃ t, step s = .next t

/-- Every memory of the machine is in its canonical form. -/
def State.memoryOk (s : State) : Bool :=
  Memory.wf s.dram && Memory.wf s.hostMem && s.dies.all (fun d => Memory.wf d.spad) &&
    s.blocks.all (fun b => Memory.wf b.shared && Memory.wf b.wb)

/-- The lanes of an issuing set whose predicate is true (R21). -/
def activeLanes (s : State) (i : Instr) (c : Cur) (w : Warp) : List Nat :=
  c.lanes.filter (fun l => predTrue s w c.lanes l i.operands.pred)

/-- An instruction of the table is about to issue in a set of runnable lanes of a warp, without an issue trap (R22) and
without a register that a matrix operation holds (R310). The warp is as the set reads it (R135): only a secondary set may find
PART, RND and AXC other than they stand. -/
structure Issuing (s : State) (i : Instr) (c : Cur) (w : Warp) : Prop where
  cur : s.cur = some c
  warp : (s.warp? c.wid).map (·.readBy c) = some w
  full : w.lanes.length = 32
  onDie : w.die < s.dies.length
  some : c.lanes ≠ []
  sorted : c.lanes.Pairwise (· < ·)
  runnable : ∀ l ∈ c.lanes, (w.lane l).st = .runnable
  noTrap : s.issueTrap w i = 0
  notHeld : s.namesHeld w (activeLanes s i c w) i = []

/-- A lane of a warp by their numbers; one that does not exist counts as ended. -/
def State.laneAt (s : State) (wid l : Nat) : Lane := ((s.warp? wid).map (fun w => w.lane l)).getD { st := .ended }
/-- A register of a lane of a warp. -/
def State.regAt (s : State) (wid l n : Nat) : Word := (s.laneAt wid l).reg n
/-- FPX of a lane of a warp. -/
def State.fpxAt (s : State) (wid l : Nat) : BitVec 6 := (s.laneAt wid l).fpx

/-- A byte of a die's scratchpad, of a block's shared memory, of its weight-buffer allocation. -/
def State.spadAt (s : State) (d a : Nat) : Byte := Cells.get (s.die d).spad a
def State.sharedAt (s : State) (b a : Nat) : Byte := ((s.block? b).map (fun x => Cells.get x.shared a)).getD 0
def State.weightAt (s : State) (b a : Nat) : Byte := ((s.block? b).map (fun x => Cells.get x.wb a)).getD 0

/-- Every byte of every memory reads as before. -/
structure SameMemory (s t : State) : Prop where
  dram : ∀ a, Cells.get t.dram a = Cells.get s.dram a
  host : ∀ a, Cells.get t.hostMem a = Cells.get s.hostMem a
  spad : ∀ d a, t.spadAt d a = s.spadAt d a
  shared : ∀ b a, t.sharedAt b a = s.sharedAt b a
  weight : ∀ b a, t.weightAt b a = s.weightAt b a

/-- A lane without its registers, flags, generator and position. -/
def Lane.still (x : Lane) : Lane := { x with regs := [], fpx := 0, gen := 0, pc := 0, half := 0, repc := 0 }

/-- A warp without its lanes: its control registers, accumulated counts, spill stack and records. -/
def Warp.still (w : Warp) : Warp := { w with lanes := [] }

/-- The machine without its warps: dies, contexts, queues, launches, blocks, engine operations, memories and what the host
sees. -/
def State.still (s : State) : State := { s with warps := [] }

/-- A register lies among n registers from a destination on; %zero holds none (R20). -/
def inDst (d : Operand) (n k : Nat) : Bool :=
  match d with
  | .reg b => decide (b ≤ k) && decide (k < b + n)
  | _ => false

/-- The frame of an instruction that writes only registers, FPX and generators of lanes of one warp: every register but
the registers K of those lanes, every flag and generator of other lanes, every lane's state, every control
register, spill stack and record of every warp, every byte of memory, and the rest of the machine are unchanged. -/
structure RegistersOnly (s t : State) (wid : Nat) (ls : List Nat) (K : Nat → Bool) : Prop where
  regs : ∀ v l k, ¬ (v = wid ∧ l ∈ ls ∧ K k = true) → t.regAt v l k = s.regAt v l k
  flags : ∀ v l, ¬ (v = wid ∧ l ∈ ls) → t.fpxAt v l = s.fpxAt v l
  gens : ∀ v l, ¬ (v = wid ∧ l ∈ ls) → (t.laneAt v l).gen = (s.laneAt v l).gen
  lanes : ∀ v l, (t.laneAt v l).still = (s.laneAt v l).still
  warps : t.warps.map Warp.still = s.warps.map Warp.still
  memory : SameMemory s t
  rest : t.still = s.still

/-- The lanes of an issuing set stand past their instruction, or at its next repeat (R61, R70), and every other lane stands
where it stood. -/
structure Moved (s t : State) (c : Cur) : Prop where
  past : c.count ≤ c.idx + 1 → ∀ l ∈ c.lanes, (t.laneAt c.wid l).pc = c.nextPc ∧ (t.laneAt c.wid l).half = c.nextHalf ∧
    (t.laneAt c.wid l).repc = 0
  again : c.idx + 1 < c.count → ∀ l ∈ c.lanes, (t.laneAt c.wid l).pc = (s.laneAt c.wid l).pc ∧
    (t.laneAt c.wid l).half = (s.laneAt c.wid l).half ∧ (t.laneAt c.wid l).repc = c.count - c.idx - 1
  others : ∀ v l, ¬ (v = c.wid ∧ l ∈ c.lanes) → (t.laneAt v l).pc = (s.laneAt v l).pc ∧
    (t.laneAt v l).half = (s.laneAt v l).half ∧ (t.laneAt v l).repc = (s.laneAt v l).repc

/-- No FPX and no generator of any lane changes. -/
def SameFlags (s t : State) : Prop :=
  ∀ v l, t.fpxAt v l = s.fpxAt v l ∧ (t.laneAt v l).gen = (s.laneAt v l).gen

/-- What an instruction does that in each active lane writes up to n words from its destination on and adds flags, and
nothing else: R relates a lane to the words it takes and the flags it sets. Generators do not move, and the set's lanes go
on. -/
structure Writes (s t : State) (i : Instr) (c : Cur) (w : Warp) (n : Nat) (R : Nat → List Word → BitVec 6 → Prop) : Prop where
  frame : RegistersOnly s t c.wid (activeLanes s i c w) (inDst i.operands.d n)
  moved : Moved s t c
  words : ∀ l ∈ activeLanes s i c w, ∃ ws fl, R l ws fl ∧ t.fpxAt c.wid l = s.fpxAt c.wid l ||| fl ∧
    (t.laneAt c.wid l).gen = (s.laneAt c.wid l).gen ∧
    ∀ b, i.operands.d = .reg b → ∀ k < ws.length, t.regAt c.wid l (b + k) = ws.getD k 0

/-- The words of operands A, B, C and of D as a source, in a lane at issue, read as integers (R18, R93, R101). -/
structure Sources where
  a : Word
  b : Word
  c : Word
  d : Word
  deriving DecidableEq, Repr

def State.sources (s : State) (o : Operands) (c : Cur) (w : Warp) (l : Nat) : Sources :=
  { a := operandWord s w c.lanes l .int o.a, b := operandWord s w c.lanes l .int o.b
    c := operandWord s w c.lanes l .int o.c, d := operandWord s w c.lanes l .int o.d }

/-- Every issue of an instruction answers a next state, in which each active lane has taken words and flags that R
relates to its state, the fields and the lane. -/
def Gives (mk : Operands → Instr) (n : Operands → Nat)
    (R : State → Operands → Cur → Warp → Nat → List Word → BitVec 6 → Prop) : Prop :=
  ∀ s o c w, Issuing s (mk o) c w → ∃ t, exec (mk o) s = .next t ∧ Writes s t (mk o) c w (n o) (R s o c w)

/-- One word, a function of the fields and of the operand words of the lane; no flag. -/
def GivesWord (mk : Operands → Instr) (f : Operands → Sources → Word) : Prop :=
  Gives mk (fun _ => 1) (fun s o c w l ws fl => ws = [f o (s.sources o c w l)] ∧ fl = 0)

/-- One word, a function of the warp, the fields and the operand words of the lane; no flag. -/
def GivesWordOf (mk : Operands → Instr) (f : Warp → Operands → Sources → Word) : Prop :=
  Gives mk (fun _ => 1) (fun s o c w l ws fl => ws = [f w o (s.sources o c w l)] ∧ fl = 0)

/-- One word and flags that are related to the fields and the operand words of the lane. -/
def GivesRel (mk : Operands → Instr) (R : Operands → Sources → Word → BitVec 6 → Prop) : Prop :=
  Gives mk (fun _ => 1) (fun s o c w l ws fl => ∃ v, ws = [v] ∧ R o (s.sources o c w l) v fl)

/-- The result v and flags fl of an arithmetic instruction of exact result r (R99): modulo 2^32, or under .sat clamped
to the range of the form, n telling whether it is unsigned; only a clamp sets a flag, FPX.ST. -/
def SatResult (n sat : Bool) (r : Int) (v : Word) (fl : BitVec 6) : Prop :=
  let lo : Int := if n then 0 else -(2 ^ 31)
  let hi : Int := if n then 2 ^ 32 - 1 else 2 ^ 31 - 1
  if sat = true ∧ r < lo then v = BitVec.ofInt 32 lo ∧ fl = fST
  else if sat = true ∧ hi < r then v = BitVec.ofInt 32 hi ∧ fl = fST
  else v = BitVec.ofInt 32 r ∧ fl = 0

/-- Three words hold a 72-bit value, bits 31:8 of the last 0 (R23). -/
def IsTriple (ws : List Word) (v : Int) : Prop :=
  ∃ x y z : Word, ws = [x, y, z] ∧ z.toNat < 256 ∧ ((x.toNat + 2 ^ 32 * y.toNat + 2 ^ 64 * z.toNat : Nat) : Int) = v

/-- The number that a decoded value stands for; none for a NaN and an infinity. -/
def FVal.rat : FVal → Option Rat
  | .fin n m e => some ((if n then -1 else 1) * (m : Rat) * (2 : Rat) ^ e)
  | _ => none

/-- A value, with its encoding, is the one that a rounding mode chooses for an exact number among the finite values of a
format (Table 2.3). -/
def Chosen (f : Fmt) (mode : Nat) (x v : Rat) (bits : Nat) : Prop :=
  match mode with
  | 0 => ∀ b y, b < 2 * f.signBit → (f.decode b).rat = some y →
      (x - v).abs ≤ (x - y).abs ∧ ((x - v).abs = (x - y).abs → y = v ∨ bits % 2 = 0)
  | 1 => v.abs ≤ x.abs ∧ 0 ≤ v * x ∧ ∀ b y, b < 2 * f.signBit → (f.decode b).rat = some y →
      0 ≤ y * x → y.abs ≤ x.abs → y.abs ≤ v.abs
  | 2 => x ≤ v ∧ ∀ b y, b < 2 * f.signBit → (f.decode b).rat = some y → x ≤ y → v ≤ y
  | _ => v ≤ x ∧ ∀ b y, b < 2 * f.signBit → (f.decode b).rat = some y → y ≤ x → y ≤ v

/-- A mode rounds a number away from zero, or to nearest, when it lies beyond the finite values (Table 2.4). -/
def ToInfinity (mode : Nat) (x : Rat) : Prop := mode = 0 ∨ (mode = 2 ∧ 0 < x) ∨ (mode = 3 ∧ x < 0)

/-- A number overflows a format in a mode: rounded with unbounded exponent range, its magnitude exceeds the largest
finite value (R50). -/
def Overflows (f : Fmt) (mode : Nat) (x : Rat) : Prop :=
  (mode = 0 ∧ (2 : Rat) ^ (f.bias + 1) - (2 : Rat) ^ (f.bias - f.mb - 1) ≤ x.abs) ∨
  (ToInfinity mode x ∧ (2 : Rat) ^ (f.bias + 1) - (2 : Rat) ^ (f.bias - f.mb) < x.abs ∧ mode ≠ 0) ∨
  (¬ ToInfinity mode x ∧ (2 : Rat) ^ (f.bias + 1) ≤ x.abs)

/-- A result is an exact nonzero number rounded once to a format by a mode, without saturation: Table 2.4's value with
FPX.OF and FPX.NX on overflow; else the chosen value, a zero with the number's sign, FPX.NX when it differs from the
number, and then FPX.UF when the number is below the smallest normal magnitude (R48 to R50, R56). -/
def RoundedOnce (f : Fmt) (mode : Nat) (x : Rat) (r : FRes) : Prop :=
  (Overflows f mode x ∧ ∃ beyond : Nat, (ToInfinity mode x → beyond = f.infBits) ∧ (¬ ToInfinity mode x → beyond = f.maxBits) ∧
    r.fl = fOF ||| fNX ∧ ((0 < x ∧ r.bits = beyond) ∨ (x < 0 ∧ r.bits = f.signBit + beyond))) ∨
  (¬ Overflows f mode x ∧ ∃ v, (f.decode r.bits).rat = some v ∧ Chosen f mode x v r.bits ∧
    (v = 0 → (f.decode r.bits).neg = decide (x < 0)) ∧
    (v = x → r.fl = 0) ∧ (v ≠ x → x.abs < (2 : Rat) ^ (1 - f.bias) → r.fl = fNX ||| fUF) ∧
    (v ≠ x → (2 : Rat) ^ (1 - f.bias) ≤ x.abs → r.fl = fNX))

/-- Elements of the operands of a floating-point instruction in a lane at issue, sign modifiers applied (R96, R97). -/
def State.elemsA (s : State) (i : Instr) (c : Cur) (w : Warp) (l : Nat) : List Nat := (s.env i c w).fa s l
def State.elemsB (s : State) (i : Instr) (c : Cur) (w : Warp) (l : Nat) : List Nat := (s.env i c w).fb s l
def State.elemsC (s : State) (i : Instr) (c : Cur) (w : Warp) (l : Nat) : List Nat := (s.env i c w).fc s l

/-- An instruction gives in each active lane one word of element results, each a function of the format, the effective
mode and the elements of A, B and C, with the union of their flags (R97). -/
def GivesElems (mk : Operands → Instr) (g : Operands → Fmt → Nat → Nat → Nat → Nat → FRes) : Prop :=
  Gives mk (fun _ => 1) (fun s o c w l ws fl =>
    let e := s.env (mk o) c w
    let rs := (List.range (s.elemsB (mk o) c w l).length).map (fun k =>
      g o (fmtOfTy e.ty) e.rm ((s.elemsA (mk o) c w l).getD k 0) ((s.elemsB (mk o) c w l).getD k 0)
        ((s.elemsC (mk o) c w l).getD k 0))
    ws = [ofElems e.ty (rs.map (·.bits))] ∧ fl = (rs.map (·.fl)).foldl (· ||| ·) 0)

/-- What a conversion does that in each active lane writes up to n words, adds flags and leaves a generator: R relates a
lane and its generator to words, flags and the new generator; the set's lanes go on. -/
structure Converts (s t : State) (i : Instr) (c : Cur) (w : Warp) (n : Nat)
    (R : Nat → Word → List Word → BitVec 6 → Word → Prop) : Prop where
  frame : RegistersOnly s t c.wid (activeLanes s i c w) (inDst i.operands.d n)
  moved : Moved s t c
  words : ∀ l ∈ activeLanes s i c w, ∃ ws fl, R l (s.laneAt c.wid l).gen ws fl (t.laneAt c.wid l).gen ∧
    t.fpxAt c.wid l = s.fpxAt c.wid l ||| fl ∧
    ∀ b, i.operands.d = .reg b → ∀ k < ws.length, t.regAt c.wid l (b + k) = ws.getD k 0

/-- Every issue of a conversion answers a next state: elements of the numbers xs, each converted by g with the generator
word of its step under .sr, packed into words by pack. -/
def GivesConversion (mk : Operands → Instr) (n : Nat) (α : Type)
    (xs : State → Operands → Cur → Warp → Nat → List α) (steps : Operands → Bool)
    (g : Operands → Nat → Nat → α → FRes) (pack : Operands → Sources → List Nat → List Word) : Prop :=
  ∀ s o c w, Issuing s (mk o) c w → ∃ t, exec (mk o) s = .next t ∧
    Converts s t (mk o) c w n (fun l gen ws fl gen' =>
      let mode := (s.env (mk o) c w).cvtMode
      let sr := mode == rmSr && steps o
      ∃ gs : List Word, gs.length = (xs s o c w l).length + 1 ∧ gs.getD 0 0 = gen ∧ gs.getLastD 0 = gen' ∧
        (∀ k < (xs s o c w l).length, gs.getD (k + 1) 0 = if sr then advance (gs.getD k 0) else gs.getD k 0) ∧
        let rs := (List.range (xs s o c w l).length).map (fun k =>
          ((xs s o c w l)[k]?).map (g o mode (gs.getD (k + 1) 0).toNat) |>.getD ⟨0, 0⟩)
        ws = pack o (s.sources o c w l) (rs.map (·.bits)) ∧ fl = (rs.map (·.fl)).foldl (· ||| ·) 0)

/-- The narrow conversions of Table 4.10: format, whether 8-bit and 4-bit sources give four elements, and where the
results go in D. -/
def conversionTable : List ((Operands → Instr) × Fmt × Bool × (Operands → Sources → List Nat → List Word)) :=
  [(Instr.cvtF16, fmtF16, false, fun _ _ xs => [putFields 0 16 0 xs]),
   (Instr.cvtBf16, fmtBf16, false, fun _ _ xs => [putFields 0 16 0 xs]),
   (Instr.cvtE4m3, fmtE4m3, true, fun o x xs => [if xs.length = 4 then putFields 0 8 0 xs else putFields x.d 8 (2 * cvtEl o) xs]),
   (Instr.cvtE5m2, fmtE5m2, true, fun o x xs => [if xs.length = 4 then putFields 0 8 0 xs else putFields x.d 8 (2 * cvtEl o) xs]),
   (Instr.cvtE2m1, fmtE2m1, true, fun o x xs => [putFields x.d 4 (xs.length * cvtEl o) xs])]

/-- A byte of an on-die memory. -/
def State.byteAt (s : State) (sp : Space) (a : Nat) : Byte :=
  match sp with
  | .shared b => s.sharedAt b a
  | .spad d => s.spadAt d a
  | .weight b => s.weightAt b a

/-- A little-endian number of n bytes of an on-die memory (R5). -/
def State.numberAt (s : State) (sp : Space) (a n : Nat) : Nat := bytesToNat ((List.range n).map (fun j => s.byteAt sp (a + j)))

/-- Every byte of every memory reads as before, but those that A picks of the on-die memories. -/
structure BytesKept (s t : State) (A : Space → Nat → Prop) : Prop where
  dram : ∀ a, Cells.get t.dram a = Cells.get s.dram a
  host : ∀ a, Cells.get t.hostMem a = Cells.get s.hostMem a
  onDie : ∀ sp a, ¬ A sp a → t.byteAt sp a = s.byteAt sp a

/-- A record without the store that a waited-for word's latch names (R271). -/
def Record.bare (r : Record) : Record :=
  match r.wait with
  | .word sh a c v _ => { r with wait := .word sh a c v none }
  | _ => r

/-- A warp without its lanes, the latches of its records, and what counts and folds its stores. -/
def Warp.bare (w : Warp) : Warp :=
  { w with lanes := [], records := w.records.map Record.bare, iss := 0, dig := 0, sites := [], folds := [] }

/-- A warp without its lanes and the latches of its records. -/
def Warp.latchless (w : Warp) : Warp := { w with lanes := [], records := w.records.map Record.bare }

/-- A warp without its lanes, its records, the number of the next record and the folds that wait their turn (R251). -/
def Warp.recordless (w : Warp) : Warp := { w with lanes := [], records := [], seqNext := 0, folds := [] }

/-- An engine operation without what it has read of its sources (R239). -/
def EngineOp.bare (o : EngineOp) : EngineOp := { o with early := [] }

/-- The machine without its warps, the bytes of its on-die memories, what engine operations have read of them, and the
count of free values. -/
def State.bare (s : State) : State :=
  { s with warps := [], ops := s.ops.map EngineOp.bare, fresh := 0
           blocks := s.blocks.map (fun b => { b with shared := [], wb := [] })
           dies := s.dies.map (fun d => { d with spad := [] }) }

/-- Registers outside K of lanes ls of a warp, and FPX, generator and state of every lane, are as before. -/
def LanesKept (s t : State) (wid : Nat) (ls : List Nat) (K : Nat → Bool) : Prop :=
  ∀ v l, (∀ k, ¬ (v = wid ∧ l ∈ ls ∧ K k = true) → t.regAt v l k = s.regAt v l k) ∧ t.fpxAt v l = s.fpxAt v l ∧
    (t.laneAt v l).gen = (s.laneAt v l).gen ∧ (t.laneAt v l).still = (s.laneAt v l).still

/-- The frame of an instruction that stores and writes registers K of lanes ls of its warp: the set's lanes go on; flags,
generators, states, control registers, spill stacks, records but for the latches of waited-for words, contexts, engines and
every byte outside A are as before; another warp's counts and digest keep, and outside a DET launch its own digest and
execution numbers. -/
structure Touches (s t : State) (c : Cur) (ls : List Nat) (K : Nat → Bool) (A : Space → Nat → Prop) : Prop where
  lanes : LanesKept s t c.wid ls K
  moved : Moved s t c
  bytes : BytesKept s t A
  warps : t.warps.map Warp.bare = s.warps.map Warp.bare
  others : ∀ v, v ≠ c.wid → (t.warp? v).map Warp.latchless = (s.warp? v).map Warp.latchless
  own : ∀ w, s.warp? c.wid = some w → s.isDet w = false → ∃ u, t.warp? c.wid = some u ∧ u.dig = w.dig ∧ u.sites = w.sites ∧ u.folds = w.folds
  rest : t.bare = s.bare

/-- ISS of a warp advances by n (R244). -/
def IssueCounts (s t : State) (wid n : Nat) : Prop :=
  ∀ w, s.warp? wid = some w → ∃ u, t.warp? wid = some u ∧ u.iss = w.iss + n

/-- The frame of an instruction that writes registers K of lanes ls of its warp and the warp's fields that g drops: every
other register, flag and lane state, every other warp, every byte of memory and the rest of the
machine keep. -/
structure Changes (s t : State) (wid : Nat) (ls : List Nat) (K : Nat → Bool) (g : Warp → Warp) : Prop where
  lanes : LanesKept s t wid ls K
  memory : SameMemory s t
  warps : t.warps.map g = s.warps.map g
  others : ∀ v, v ≠ wid → t.warp? v = s.warp? v
  rest : t.still = s.still

/-- A record captures lanes of a warp with live set LS (R218): generator, FPX and the registers of the live set as they stand,
every other register as 0; 0 names all registers of the footprint. -/
def Record.captures (r : Record) (s : State) (w : Warp) (ls : Nat) : Prop :=
  r.live = w.liveSet ls ∧ r.saved.map (·.lane) = r.lanes ∧ r.exempt = s.heldRegs w.wid ∧
    ∀ v ∈ r.saved, v.gen = (w.lane v.lane).gen ∧ v.fpx = (w.lane v.lane).fpx ∧
      ∀ n, Cells.get v.regs n = if n ∈ w.liveSet ls then (w.lane v.lane).reg n else 0

/-- Lanes of a warp are suspended in one waiting record with what they wait for, at most what it keeps of the instruction;
the record captures them with live set LS, and their registers, flags and generators stand as before. -/
def SuspendedIn (s t : State) (ls : Nat) (wid : Nat) (lanes : List Nat) (wait : Wait) (before : Bool)
    (results : List RegWrite) : Prop :=
  (∀ l ∈ lanes, (t.laneAt wid l).st = .suspended ∧ (∀ k, t.regAt wid l k = s.regAt wid l k) ∧
    t.fpxAt wid l = s.fpxAt wid l ∧ (t.laneAt wid l).gen = (s.laneAt wid l).gen) ∧
  ∃ w u r, s.warp? wid = some w ∧ t.warp? wid = some u ∧ r ∈ u.records ∧ r.state = .waiting ∧ r.lanes = lanes ∧
    r.wait = wait ∧ r.before = before ∧ r.results = results ∧ r.captures s w ls

/-- Byte a of its die's scratchpad is one of a record of a warp: spilled, or in a slot of the fault page (R205, R221). -/
def Record.bytesAt (r : Record) (w : Warp) (a : Nat) : Prop :=
  (∃ b n, r.place = .spill b n ∧ b ≤ a ∧ a < b + 320 + 128 * r.live.length) ∨
  (∃ k, r.place = .slot k ∧ w.slotAddr k ≤ a ∧ a < w.slotAddr k + 64)

/-- The bytes of a scratchpad in which records of warps lie: spilled records and slots of fault pages (R205, R221). -/
def State.recordBytes (s : State) : Space → Nat → Prop := fun sp a =>
  ∃ w ∈ s.warps, sp = .spad w.die ∧ ∃ r ∈ w.records,
    r.bytesAt w a

/-- The bytes in which the record of a warp with a sequence number lies. -/
def State.recordBytesOf (s : State) (wid seq : Nat) : Space → Nat → Prop := fun sp a =>
  ∃ w, s.warp? wid = some w ∧ sp = .spad w.die ∧ ∃ r ∈ w.records, r.seq = seq ∧ r.bytesAt w a

/-- The frame of an instruction that suspends lanes ls of its warp: every register, flag and generator, every other lane's
state, every byte outside A and the new record, every other warp but for its latches, what g keeps of the warps, and what h
keeps of the machine are as before. -/
structure SuspendFrame (s t : State) (wid : Nat) (ls : List Nat) (A : Space → Nat → Prop) (g : Warp → Warp)
    (h : State → State) : Prop where
  lanes : ∀ v l, (∀ k, t.regAt v l k = s.regAt v l k) ∧ t.fpxAt v l = s.fpxAt v l ∧
    (t.laneAt v l).gen = (s.laneAt v l).gen ∧ (¬ (v = wid ∧ l ∈ ls) → (t.laneAt v l).still = (s.laneAt v l).still)
  bytes : BytesKept s t (fun sp a => A sp a ∨ ∃ w, s.warp? wid = some w ∧ t.recordBytesOf wid w.seqNext sp a)
  warps : t.warps.map g = s.warps.map g
  others : ∀ v, v ≠ wid → (t.warp? v).map Warp.latchless = (s.warp? v).map Warp.latchless
  rest : h t.bare = h s.bare

/-- A record before it became ready with results. -/
def Record.unready (r : Record) : Record := { r with state := .waiting, wait := .nothing, results := [], readyAt := 0 }

/-- A record of so many lanes of an instruction finds room (R221). -/
def State.hasRoom (s : State) (w : Warp) (ls : Nat) : Prop := s.findRoom w (320 + 128 * (w.liveSet ls).length) ≠ none

/-- Offset and byte address of the access of a lane at issue (R254, R210). -/
def State.offsetAt (s : State) (o : Operands) (c : Cur) (w : Warp) (l : Nat) : Nat := offsetOf o (s.sources o c w l).b
def State.addressAt (s : State) (o : Operands) (c : Cur) (w : Warp) (shared : Bool) (l : Nat) : Nat :=
  s.spaceAddr w shared (s.offsetAt o c w l)

/-- Every active lane's access of z bytes passes R254 and meets no owned line (R238). -/
def State.accessesFree (s : State) (i : Instr) (c : Cur) (w : Warp) (shared : Bool) (z : Nat) : Prop :=
  ∀ l ∈ activeLanes s i c w, s.checkAccess w shared (s.offsetAt i.operands c w l) z z = 0 ∧
    s.ownedLines w shared (s.offsetAt i.operands c w l) z = []

/-- What a control register holds after a write of a word over an old value (Tables 1.4, 1.5): reserved bits read 0, a
reserved value of PART or RND keeps the old one, WDG.K is at least 10, and a read-only register keeps. -/
def writtenCsr (n : Nat) (old v : Word) : Word :=
  match n with
  | 0x00 => if 1 ≤ v.toNat % 8 ∧ v.toNat % 8 ≤ 5 then v &&& 7 else old
  | 0x01 => if v.toNat % 8 ≤ 4 then v &&& 7 else old
  | 0x02 => v &&& 0x3F
  | 0x03 => v &&& 3
  | 0x04 => v
  | 0x05 => v &&& 0xFFFFFFFC
  | 0x20 => v &&& 0xFFFF
  | 0x21 => v &&& 0x07FF0000
  | 0x22 => v &&& 0x0FFF0000
  | 0x23 => v &&& 0xFFFFFFC0
  | 0x24 => v &&& 0xFFFFFFC0
  | 0x25 => v &&& 0x07FFF000
  | 0x26 => v &&& 0x0FFFF000
  | 0x27 => v &&& 0xFFFFF000
  | 0x28 => v &&& 0x000FFFFF
  | 0x29 => v &&& 1
  | 0x2A => v &&& 0xFFFFFFF8
  | 0x2B => (v &&& 0x80000000) ||| BitVec.ofNat 32 (max 10 (v.toNat % 64))
  | 0x2C => v &&& 0x3F
  | _ => old

/-- A context has its copies of the registers for a die and a core of it. -/
def State.hasCopies (s : State) (w : Warp) : Prop :=
  ∃ x, s.ctx? w.ctx = some x ∧ w.die < x.dies.length ∧ w.core < (x.die w.die).dqb.length ∧ w.core < (x.die w.die).dql.length

/-- Lanes of a warp stand parked in one faulted record of trap, position, FADDR and EVENT. -/
def ParkedIn (t : State) (wid : Nat) (ls : List Nat) (trap pc half faddr event : Nat) : Prop :=
  (∀ l ∈ ls, (t.laneAt wid l).st = .parked) ∧
  ∃ w r, t.warp? wid = some w ∧ r ∈ w.records ∧ r.state = .faulted ∧ r.inPlace = true ∧ r.before = true ∧ r.lanes = ls ∧
    r.trap = trap ∧ r.pc = pc ∧ r.half = half ∧ r.faddr = faddr ∧ r.event = event

/-- The frame of a trap: every register and flag, every other lane's state, every other warp, every byte outside the
record's slot of the fault page, and the rest of the machine keep. -/
structure ParkFrame (s t : State) (w : Warp) (ls : List Nat) : Prop where
  lanes : ∀ v l, (∀ k, t.regAt v l k = s.regAt v l k) ∧ t.fpxAt v l = s.fpxAt v l ∧ (t.laneAt v l).gen = (s.laneAt v l).gen
  memory : (∀ a, Cells.get t.dram a = Cells.get s.dram a) ∧ (∀ a, Cells.get t.hostMem a = Cells.get s.hostMem a) ∧
    (∀ b a, t.sharedAt b a = s.sharedAt b a) ∧ ∀ b a, t.weightAt b a = s.weightAt b a
  quiet : (∀ v l, ¬ (v = w.wid ∧ l ∈ ls) → (t.laneAt v l).still = (s.laneAt v l).still) ∧
    (∀ d a, ¬ (d = w.die ∧ w.slotAddr w.freeSlot ≤ a ∧ a < w.slotAddr w.freeSlot + 64) → t.spadAt d a = s.spadAt d a) ∧
    (∀ v, v ≠ w.wid → t.warp? v = s.warp? v) ∧ t.warps.map Warp.recordless = s.warps.map Warp.recordless ∧
    { t.bare with arrivals := 0 } = { s.bare with arrivals := 0 }

/-- The machine without what an issue notes of releases and live tasks beside its TCBs and deque: the run of releases of one
core (R332), and the counts of live tasks of one context on the die (R336). -/
def State.besideTasks (m : State) (w : Warp) (core : Nat) : State :=
  (m.modCore w.die core (fun x => { x with released := [] })).modCtx w.ctx (fun x => x.modDie w.die (fun d => { d with tasks := [] }))

/-- The rendering units without the registers of Tables 16.1 and 16.2 that spk.prio writes and the tags of the launch
registers: the picker, the tile map, the rings, the Scan-Out Unit and the counts. -/
def Render.unwritten (r : Render) : Render :=
  { r with ownerV := false, ownerCtx := 0, rate := 0, wgt := 0, agesh := 0, sh := 0, lead := 0, th := 0, tw := 0, rayl := 0
           prbl := 0, maxw := 0, sbfb := 0, axl := 0, souEn := false, rql := 0, recl := 0, rayTag := 0, prbTag := 0, recTag := 0 }

/-- Lanes of a warp take a trap: they stand parked in one faulted record, and nothing else changes. -/
def Parks (s t : State) (w : Warp) (ls : List Nat) (trap pc half faddr event : Nat) : Prop :=
  ParkedIn t w.wid ls trap pc half faddr event ∧ ParkFrame s t w ls

/-- No byte of an on-die memory. -/
def nowhere : Space → Nat → Prop := fun _ _ => False

/-- The n bytes from byte a on of an on-die memory. -/
def bytesFrom (x : Space) (a n : Nat) : Space → Nat → Prop := fun sp b => sp = x ∧ a ≤ b ∧ b < a + n

/-- The frame of an instruction that acts on a unit: the set's lanes go on; every register outside K of the lanes ls of its
warp, every flag, generator and lane state, every byte outside A, what g keeps of the warps and what h keeps of the machine. -/
structure Frame (s t : State) (c : Cur) (ls : List Nat) (K : Nat → Bool) (A : Space → Nat → Prop) (g : Warp → Warp)
    (h : State → State) : Prop where
  lanes : LanesKept s t c.wid ls K
  moved : Moved s t c
  bytes : BytesKept s t A
  warps : t.warps.map g = s.warps.map g
  rest : h t.bare = h s.bare

/-- Lanes hold words from the destination of an instruction on. -/
def State.took (t : State) (i : Instr) (wid : Nat) (ls : List Nat) (ws : Nat → List Word) : Prop :=
  ∀ l ∈ ls, ∀ b, i.operands.d = .reg b → ∀ k < (ws l).length, t.regAt wid l (b + k) = (ws l).getD k 0

/-- The issuing lanes stand at their instruction as before it, and nothing else changed. -/
def HeldBack (s t : State) (i : Instr) (c : Cur) : Prop :=
  RegistersOnly s t c.wid [] (fun _ => false) ∧
    (∀ l ∈ c.lanes, (t.laneAt c.wid l).pc = c.pc ∧ (t.laneAt c.wid l).half = c.half ∧ (t.laneAt c.wid l).repc = c.repcAt i) ∧
    ∀ v l, ¬ (v = c.wid ∧ l ∈ c.lanes) → (t.laneAt v l).pc = (s.laneAt v l).pc ∧
      (t.laneAt v l).half = (s.laneAt v l).half ∧ (t.laneAt v l).repc = (s.laneAt v l).repc

/-- Every issue that meets a condition answers a next state, in which each active lane has taken words and flags that R
relates to its state, the fields and the lane. -/
def GivesWhen (mk : Operands → Instr) (ok : State → Operands → Cur → Warp → Prop) (n : Operands → Nat)
    (R : State → Operands → Cur → Warp → Nat → List Word → BitVec 6 → Prop) : Prop :=
  ∀ s o c w, Issuing s (mk o) c w → ok s o c w → ∃ t, exec (mk o) s = .next t ∧ Writes s t (mk o) c w (n o) (R s o c w)

/-- A wait with a status: where every active lane's wait is over or TO is 0, each active lane takes 0 or, where it is not
over, 1, and nothing else changes; where no active lane's wait is over, all wait for one thing, TO is not 0 and a record
finds room, they are suspended in one record that waits for it (R217, R222, R224). -/
def AwaitsStatus {α : Type} (mk : Operands → Instr) (ok : State → Operands → Cur → Warp → Prop) (key : Operands → Sources → α)
    (done : State → Operands → Cur → Warp → Sources → Bool) (wait : State → Operands → Cur → Warp → Sources → Wait) : Prop :=
  ∀ s o c w, Issuing s (mk o) c w → ok s o c w →
    let p := activeLanes s (mk o) c w
    let src (l : Nat) : Sources := s.sources o c w l
    ((∀ l ∈ p, done s o c w (src l) = true ∨ o.tmo = 0) → ∃ t, exec (mk o) s = .next t ∧
      Writes s t (mk o) c w 1 (fun l ws fl => fl = 0 ∧ ws = [if done s o c w (src l) then 0 else 1])) ∧
    ((∀ l ∈ p, done s o c w (src l) = false) → o.tmo ≠ 0 → p ≠ [] → (∀ l ∈ p, ∀ m ∈ p, key o (src l) = key o (src m)) →
      s.hasRoom w o.ls → ∃ t, exec (mk o) s = .next t ∧ SuspendedIn s t o.ls c.wid p (wait s o c w (src (p.headD 0))) false [])

/-- The word that the elected lane, the lowest active one, reads in B (R285). -/
def State.electedB (s : State) (i : Instr) (c : Cur) (w : Warp) : Word :=
  (s.sources i.operands c w ((activeLanes s i c w).headD 0)).b

/-- n bytes of an on-die memory. -/
def State.bytesAt (s : State) (sp : Space) (a n : Nat) : List Byte := (List.range n).map (fun j => s.byteAt sp (a + j))

/-- A TCB or descriptor of 64 bytes at a window offset passes R324. -/
def State.tcbOk (s : State) (w : Warp) (t : Nat) : Prop := t % 64 = 0 ∧ ∃ x, s.ctx? w.ctx = some x ∧ x.windowOk w.die t 64 false = true

/-- Every active lane names a TCB or descriptor that passes R324. -/
def State.tcbsOk (s : State) (i : Instr) (c : Cur) (w : Warp) : Prop :=
  ∀ l ∈ activeLanes s i c w, s.tcbOk w (s.sources i.operands c w l).b.toNat

/-- An on-die memory exists: the die, or the block. -/
def State.hasSpace (s : State) : Space → Prop
  | .spad d => d < s.dies.length
  | .shared b => (s.block? b).isSome = true
  | .weight b => (s.block? b).isSome = true

/-- No block's save image lies in a scratchpad (R437). -/
def State.noImages (s : State) : Prop := ∀ b ∈ s.blocks, b.imageLen = 0

/-- No warp, block, engine operation or launch of a context is left. -/
def State.goneOf (t : State) (ctx : Nat) : Prop :=
  (∀ w ∈ t.warps, w.ctx ≠ ctx) ∧ (∀ b ∈ t.blocks, b.ctx ≠ ctx) ∧ (∀ o ∈ t.ops, o.ctx ≠ ctx) ∧ ∀ l ∈ t.launches, l.ctx ≠ ctx

/-- An engine operation is complete, or gone. -/
def State.opOver (t : State) (oid : Nat) : Prop := ∀ x ∈ t.ops, x.oid = oid → x.complete = true

/-- A warp stands at entry (R32): its 32 lanes are runnable at a PC with v0 upward holding words and every other register
0, FPX clear and the generators seeded. -/
def Warp.atEntry (w : Warp) (entry : Nat) (vs : List Word) : Prop :=
  w.lanes.length = 32 ∧ w.records = [] ∧ ∀ l < 32, (w.lane l).st = .runnable ∧ (w.lane l).pc = entry ∧ (w.lane l).half = 0 ∧
    (w.lane l).repc = 0 ∧ (w.lane l).fpx = 0 ∧ (w.lane l).gen = seedLane w.seed l ∧ ∀ k, (w.lane l).reg k = vs.getD k 0

end Sys2Proof.Machine
end

