-- ==== Sys2Proof/Certificates/Slice0/Obligations.lean ====
section
/-! DEFINITION. The statements about the T9 model for the provers, by family of the opcode table. -/

open Sys2Proof Sys2Proof.Machine

/-- Every issue of and, or, xor, andn, orn, mov, sel, bset and bclr without an issue trap or a held register answers a
next state in which each lane whose predicate is true has in D the word that Table 4.3 gives, no flag is set, every
lane of the set stands past the instruction or at its next repeat, and nothing but D of those lanes and positions
changes. Every issue of popc, clz and brev answers a next state in which each active lane takes the number of 1 bits
of b, the number of its leading 0 bits (32 for 0), or b with its bits in reverse order. No flag is set and nothing
else changes. Every issue of imin, imax, icmp and imulh answers a next state in which each active lane takes the
lesser or greater word, its old D with bit K replaced by the condition of Table 4.4, or bits 63:32 of the product,
signed or unsigned with .n. No flag is set and nothing else changes. (R92, R98, R103, R20, R21,
04_sequential_instructions.md Table 4.3, R101, 04_sequential_instructions.md Tables 4.3 and 4.4) -/
def Obligations.IntegerLogicResults : Prop :=
  (GivesWord .and (fun _ x => x.a &&& x.b) ∧
  GivesWord .or (fun _ x => x.a ||| x.b) ∧
  GivesWord .xor (fun _ x => x.a ^^^ x.b) ∧
  GivesWord .andn (fun _ x => x.a &&& ~~~x.b) ∧
  GivesWord .orn (fun _ x => x.a ||| ~~~x.b) ∧
  GivesWord .mov (fun _ x => x.b) ∧
  GivesWord .sel (fun o x => if x.c.getLsbD (bitsOf o.xm 10 5) then x.a else x.b) ∧
  GivesWord .bset (fun _ x => x.a ||| BitVec.ofNat 32 (2 ^ (x.b.toNat % 32))) ∧
  GivesWord .bclr (fun _ x => x.a &&& ~~~BitVec.ofNat 32 (2 ^ (x.b.toNat % 32)))) ∧
  (GivesWord .popc (fun _ x => BitVec.ofNat 32 ((List.range 32).countP (fun i => x.b.getLsbD i))) ∧
  GivesRel .clz (fun _ x v fl => fl = 0 ∧ v.toNat ≤ 32 ∧ x.b.toNat < 2 ^ (32 - v.toNat) ∧
    (x.b = 0 → v = 32) ∧ (x.b ≠ 0 → 2 ^ (31 - v.toNat) ≤ x.b.toNat ∧ v.toNat < 32)) ∧
  GivesRel .brev (fun _ x v fl => fl = 0 ∧ ∀ i < 32, v.getLsbD i = x.b.getLsbD (31 - i))) ∧
  (GivesWord .imin (fun o x => if intOf (o.modBit 0) x.a ≤ intOf (o.modBit 0) x.b then x.a else x.b) ∧
  GivesWord .imax (fun o x => if intOf (o.modBit 0) x.b ≤ intOf (o.modBit 0) x.a then x.a else x.b) ∧
  GivesRel .icmp (fun o x v fl => fl = 0 ∧ ∀ i < 32, v.getLsbD i =
    if i = bitsOf o.xm 0 5 then icond (o.mods 0 3) (intOf (o.modBit 3) x.a) (intOf (o.modBit 3) x.b)
    else x.d.getLsbD i) ∧
  GivesWord .imulh (fun o x => BitVec.ofInt 32 ((intOf (o.modBit 0) x.a * intOf (o.modBit 0) x.b).fdiv (2 ^ 32))))

/-- Every issue of iadd, isub, imul, imad and iabs answers a next state in which each active lane takes in D the exact
result modulo 2^32, or under .sat the result clamped to the signed range, or to the unsigned range with .n, where a
clamp sets FPX.ST and nothing else sets a flag. (R99) -/
def Obligations.SaturatingArithmetic : Prop :=
  GivesRel .iadd (fun o x v fl => SatResult (o.modBit 0) (o.modBit 1) (intOf (o.modBit 0) x.a + intOf (o.modBit 0) x.b) v fl) ∧
  GivesRel .isub (fun o x v fl => SatResult (o.modBit 0) (o.modBit 1) (intOf (o.modBit 0) x.a - intOf (o.modBit 0) x.b) v fl) ∧
  GivesRel .imul (fun o x v fl => SatResult (o.modBit 0) (o.modBit 1) (intOf (o.modBit 0) x.a * intOf (o.modBit 0) x.b) v fl) ∧
  GivesRel .imad (fun o x v fl => SatResult (o.modBit 0) (o.modBit 1)
    (intOf (o.modBit 0) x.a * intOf (o.modBit 0) x.b + intOf (o.modBit 0) x.c) v fl) ∧
  GivesRel .iabs (fun o x v fl => SatResult false (o.modBit 1) (x.b.toInt.natAbs : Int) v fl)

/-- Every issue of imadw answers a next state in which each active lane takes the 64-bit value of the product plus the
pair C modulo 2^64 in d and d+1; every issue of iaddx one in which it takes the sum a + b + (c and 1) modulo 2^32,
or its carry out with .hi. No flag is set. Every issue of idiv and irem answers a next state: division by 0 gives
all ones and the dividend; otherwise the quotient is rounded toward zero and the remainder is the dividend minus the
divisor times it, signed or unsigned, with the signed least number over -1 giving itself and 0. No flag is set and
nothing else changes. Every issue of va.add, va.sub and va.mov answers a next state in which each active lane takes
in three registers the 72-bit value R108 gives, with bits 31:8 of the third register 0; va.cmp replaces bit K of D
by the condition on the triples as unsigned numbers. No flag is set and nothing else changes. (R100, R102, R108) -/
def Obligations.WideArithmeticAndDivision : Prop :=
  (Gives .imadw (fun _ => 2) (fun s o c w l ws fl => fl = 0 ∧
    ∃ lo hi : Word, ws = [lo, hi] ∧
      ((lo.toNat + 2 ^ 32 * hi.toNat : Nat) : Int) =
        (intOf (o.modBit 0) (s.sources o c w l).a * intOf (o.modBit 0) (s.sources o c w l).b +
          (((operandWords s w c.lanes l 2 (!o.modBit 0) o.c).getD 0 0).toNat : Int) +
          2 ^ 32 * (((operandWords s w c.lanes l 2 (!o.modBit 0) o.c).getD 1 0).toNat : Int)) % 2 ^ 64) ∧
  GivesWord .iaddx (fun o x =>
    if o.modBit 2 then BitVec.ofNat 32 ((x.a.toNat + x.b.toNat + x.c.toNat % 2) / 2 ^ 32) else x.a + x.b + (x.c &&& 1))) ∧
  (GivesWord .idiv (fun o x => if x.b = 0 then 0xFFFFFFFF else if o.modBit 0 then x.a / x.b else BitVec.sdiv x.a x.b) ∧
  GivesWord .irem (fun o x => if x.b = 0 then x.a else if o.modBit 0 then x.a % x.b else BitVec.srem x.a x.b) ∧
  BitVec.sdiv (0x80000000 : Word) 0xFFFFFFFF = 0x80000000 ∧ BitVec.srem (0x80000000 : Word) 0xFFFFFFFF = 0 ∧
  (∀ n : Bool, ∀ a b : Word, b ≠ 0 →
    (if n then a % b else BitVec.srem a b) = a - b * (if n then a / b else BitVec.sdiv a b))) ∧
  (Gives .vaAdd (fun _ => 3) (fun s o c w l ws fl => fl = 0 ∧ IsTriple ws
    (((vaOf (operandWords s w c.lanes l 3 (!o.modBit 0) o.a) : Int) + intOf (o.modBit 0) (s.sources o c w l).b) % 2 ^ 72)) ∧
  Gives .vaSub (fun _ => 3) (fun s o c w l ws fl => fl = 0 ∧ IsTriple ws
    (((vaOf (operandWords s w c.lanes l 3 true o.a) : Int) - vaOf (operandWords s w c.lanes l 3 true o.b)) % 2 ^ 72)) ∧
  Gives .vaMov (fun _ => 3) (fun s o c w l ws fl => fl = 0 ∧ IsTriple ws (vaOf (operandWords s w c.lanes l 3 true o.b))) ∧
  Gives .vaCmp (fun _ => 1) (fun s o c w l ws fl => fl = 0 ∧ ∃ v : Word, ws = [v] ∧ ∀ i < 32, v.getLsbD i =
    if i = bitsOf o.xm 0 5 then
      icond (o.mods 0 3) (vaOf (operandWords s w c.lanes l 3 true o.a)) (vaOf (operandWords s w c.lanes l 3 true o.b))
    else (s.sources o c w l).d.getLsbD i))

/-- Every issue of shl, shr, sar, rol, ror and fsh answers a next state in which each active lane takes the word that
Table 4.3 and R106 give, the amount taken from the low bits of b. No flag is set and nothing else changes. Every
issue of bfx and bfi answers a next state: bit i of bfx's word is bit pos + i of a for i below w, where a place
outside the word reads 0, or bit 31 of a with .i, and above w it is 0, or the field's top bit with .i and w > 0;
bfi's word is c with bits pos to pos + w - 1 that lie in the word replaced by the low bits of a. No flag is set and
nothing else changes. Every issue of lgc3 answers a next state in which bit i of the word each active lane takes in
D is bit a_i + 2 b_i + 4 c_i of the byte in XM 17:10; no flag is set and nothing else changes. (R105, R106, R107,
R104) -/
def Obligations.ShiftsRotatesAndFields : Prop :=
  (GivesWord .shl (fun _ x => if x.b.toNat % 64 < 32 then x.a <<< (x.b.toNat % 64) else 0) ∧
  GivesWord .shr (fun _ x => if x.b.toNat % 64 < 32 then x.a >>> (x.b.toNat % 64) else 0) ∧
  GivesWord .sar (fun _ x => x.a.sshiftRight (min (x.b.toNat % 64) 31)) ∧
  GivesRel .rol (fun _ x v fl => fl = 0 ∧ ∀ i < 32, v.getLsbD ((i + x.b.toNat) % 32) = x.a.getLsbD i) ∧
  GivesRel .ror (fun _ x v fl => fl = 0 ∧ ∀ i < 32, v.getLsbD i = x.a.getLsbD ((i + x.b.toNat) % 32)) ∧
  GivesWord .fsh (fun o x =>
    if o.modBit 0 then ((x.a ++ x.c : BitVec 64) <<< (x.b.toNat % 32)).extractLsb' 32 32
    else ((x.c ++ x.a : BitVec 64) >>> (x.b.toNat % 32)).extractLsb' 0 32)) ∧
  (GivesRel .bfx (fun o x v fl => fl = 0 ∧ ∀ i < 32, v.getLsbD i =
    (let w := min (x.b.toNat / 256 % 256) 32
     let bit (p : Nat) : Bool := if p < 32 then x.a.getLsbD p else o.modBit 0 && x.a.getLsbD 31
     if i < w then bit (x.b.toNat % 256 + i) else o.modBit 0 && w != 0 && bit (x.b.toNat % 256 + (w - 1)))) ∧
  GivesRel .bfi (fun _ x v fl => fl = 0 ∧ ∀ i < 32, v.getLsbD i =
    if x.b.toNat % 256 ≤ i ∧ i < x.b.toNat % 256 + min (x.b.toNat / 256 % 256) 32 then x.a.getLsbD (i - x.b.toNat % 256)
    else x.c.getLsbD i)) ∧
  (GivesRel .lgc3 (fun o x v fl => fl = 0 ∧ ∀ i < 32,
    v.getLsbD i = bitOf (bitsOf o.xm 10 8)
      ((if x.a.getLsbD i then 1 else 0) + 2 * (if x.b.getLsbD i then 1 else 0) + 4 * (if x.c.getLsbD i then 1 else 0))))

/-- Every issue of fadd, fsub, fmul, fma, fms, fnma, fscale and fdot2 answers a next state in which each active lane
takes in D the word of element results, each the one rounding (Fmt.addVals, mulVals, fmaVals and the two special
forms) of the exact result by the effective mode, FPX gains the union of the elements' flags, and nothing else
changes. fscale's result is a times two to the b rounded once, or a itself for a zero and an infinity; fdot2's is
the exact sum of both products and c rounded once, an infinity, or the canonical NaN. (R95, R96, R97, R109, R110,
R115) -/
def Obligations.FloatArithmeticResults : Prop :=
  GivesElems .fadd (fun _ f m a b _ => f.addVals m (f.decode a) (f.decode b)) ∧
  GivesElems .fsub (fun _ f m a b _ => f.addVals m (f.decode a) (f.decode b).flip) ∧
  GivesElems .fmul (fun _ f m a b _ => f.mulVals m (f.decode a) (f.decode b)) ∧
  GivesElems .fma (fun _ f m a b c => f.fmaVals m (f.decode a) (f.decode b) (f.decode c)) ∧
  GivesElems .fms (fun _ f m a b c => f.fmaVals m (f.decode a) (f.decode b) (f.decode c).flip) ∧
  GivesElems .fnma (fun _ f m a b c => f.fmaVals m (f.decode a).flip (f.decode b) (f.decode c)) ∧
  Gives .fscale (fun _ => 1) (fun s o c w l ws fl =>
    let r := fscaleEl (s.env (.fscale o) c w).rm ((s.elemsA (.fscale o) c w l).getD 0 0) (s.sources o c w l).b
    ws = [BitVec.ofNat 32 r.bits] ∧ fl = r.fl) ∧
  Gives .fdot2 (fun _ => 1) (fun s o c w l ws fl =>
    let e := s.env (.fdot2 o) c w
    let r := fdot2El (fmtOfTy e.ty) e.rm (s.elemsA (.fdot2 o) c w l) (s.elemsB (.fdot2 o) c w l)
      (fmtF32.signMod o.xm 14 (operandWord s w c.lanes l .f32 o.c).toNat)
    ws = [BitVec.ofNat 32 r.bits] ∧ fl = r.fl) ∧
  (∀ mode < 4, ∀ (a : Nat) (b : Word), let r := fscaleEl mode a b
    (∀ q, (fmtF32.decode a).rat = some q → q ≠ 0 → RoundedOnce fmtF32 mode (q * (2 : Rat) ^ b.toInt) r) ∧
    ((fmtF32.decode a).isZero = true ∨ (fmtF32.decode a).isInf = true → r = ⟨a, 0⟩) ∧
    ∀ g, fmtF32.decode a = .nan g → r = ⟨fmtF32.nan, if g then fNV else 0⟩) ∧
  (∀ f ∈ [fmtF16, fmtBf16], ∀ mode < 4, ∀ a0 a1 b0 b1 c : Nat,
    let r := fdot2El f mode [a0, a1] [b0, b1] c
    let x := [f.decode a0, f.decode a1, f.decode b0, f.decode b1, fmtF32.decode c]
    let wrong (u v : FVal) : Bool := (u.isZero && v.isInf) || (u.isInf && v.isZero)
    let invalid : Bool := wrong (f.decode a0) (f.decode b0) || wrong (f.decode a1) (f.decode b1)
    let infinite (n : Bool) : Bool := ((f.decode a0).isInf || (f.decode b0).isInf) && ((f.decode a0).neg != (f.decode b0).neg) == n ||
      ((f.decode a1).isInf || (f.decode b1).isInf) && ((f.decode a1).neg != (f.decode b1).neg) == n ||
      (fmtF32.decode c).isInf && (fmtF32.decode c).neg == n
    (∀ p0 p1 q0 q1 z, (f.decode a0).rat = some p0 → (f.decode a1).rat = some p1 → (f.decode b0).rat = some q0 →
      (f.decode b1).rat = some q1 → (fmtF32.decode c).rat = some z →
      (p0 * q0 + p1 * q1 + z ≠ 0 → RoundedOnce fmtF32 mode (p0 * q0 + p1 * q1 + z) r) ∧
      (p0 * q0 + p1 * q1 + z = 0 → (fmtF32.decode r.bits).isZero = true ∧ r.fl = 0)) ∧
    (x.any FVal.isNan = true → r.bits = fmtF32.nan ∧ (x.any FVal.isSig = true ∨ invalid = true → r.fl = fNV)) ∧
    (invalid = true → r = ⟨fmtF32.nan, fNV⟩) ∧
    (x.any FVal.isNan = false → invalid = false → infinite true = true → infinite false = true → r = ⟨fmtF32.nan, fNV⟩) ∧
    (x.any FVal.isNan = false → invalid = false → ∀ n, infinite n = true → infinite (!n) = false →
      r = ⟨(if n then fmtF32.signBit else 0) + fmtF32.infBits, 0⟩))

/-- For FP32, FP16, BF16 and E5M2, every mode but .sr and every exact nonzero number, the rounding of the model is Table
2.4's value with FPX.OF and FPX.NX when the number overflows, and otherwise the finite value that Table 2.3 chooses,
a rounded zero keeping the sign, with FPX.NX exactly when the value differs from the number and FPX.UF exactly when
the number is then below the smallest normal magnitude. (R35, R36, R48, R49, R50, R56, 02_number_formats.md Tables
2.3 and 2.4) -/
def Obligations.RoundingIsCorrect : Prop :=
  ∀ f ∈ [fmtF32, fmtF16, fmtBf16, fmtE5m2], ∀ mode < 4, ∀ (neg : Bool) (m : Nat) (e : Int), m ≠ 0 →
    RoundedOnce f mode ((if neg then -1 else 1) * (m : Rat) * (2 : Rat) ^ e) (f.round mode false 0 ⟨neg, m, e, false⟩)

/-- For finite operands of a format and every mode, fadd's result is the rounding of an exact number that equals the
sum, or the zero of the sign R49 gives; fmul's the rounding of the exact product, and fma's that of the exact
product plus the addend. For FP32, FP16 and BF16 and every mode: a NaN operand of a sum, product, fused product,
quotient or square root gives the canonical NaN, which sets FPX.NV exactly when an operand signals, unless a product
within is invalid; infinities of opposite signs summed, and zero times infinity either way, also inside a fused
product with a quiet NaN addend, give the canonical NaN and set FPX.NV. (R49, R109, R110, R39) -/
def Obligations.ExactSumsAndNans : Prop :=
  (∀ f ∈ [fmtF32, fmtF16, fmtBf16], ∀ mode < 4, ∀ (a b c : Nat) (x y z : Rat),
    (f.decode a).rat = some x → (f.decode b).rat = some y → (f.decode c).rat = some z →
    (∃ u : Exact, u.sticky = false ∧ (FVal.fin u.neg u.m u.e).rat = some (x + y) ∧
      f.addVals mode (f.decode a) (f.decode b) = f.round mode false 0 u ∧
      (x + y = 0 → (f.decode a).neg ≠ (f.decode b).neg → u.neg = decide (mode = 3))) ∧
    (∃ u : Exact, u.sticky = false ∧ (FVal.fin u.neg u.m u.e).rat = some (x * y) ∧
      f.mulVals mode (f.decode a) (f.decode b) = f.round mode false 0 u ∧
      u.neg = ((f.decode a).neg != (f.decode b).neg)) ∧
    (∃ u : Exact, u.sticky = false ∧ (FVal.fin u.neg u.m u.e).rat = some (x * y + z) ∧
      f.fmaVals mode (f.decode a) (f.decode b) (f.decode c) = f.round mode false 0 u)) ∧
  (∀ f ∈ [fmtF32, fmtF16, fmtBf16], ∀ mode < 4, ∀ x y z : FVal,
    (x.isNan || y.isNan → f.addVals mode x y = ⟨f.nan, sigFlag [x, y]⟩ ∧
      f.mulVals mode x y = ⟨f.nan, sigFlag [x, y]⟩ ∧ f.divVals mode x y = ⟨f.nan, sigFlag [x, y]⟩ ∧
      f.fmaVals mode x y z = ⟨f.nan, sigFlag [x, y, z]⟩) ∧
    (x.isNan → f.sqrtVal mode x = ⟨f.nan, sigFlag [x]⟩) ∧
    (z.isNan → mulInvalid x y = false → f.fmaVals mode x y z = ⟨f.nan, sigFlag [x, y, z]⟩) ∧
    (∀ n, f.addVals mode (.inf n) (.inf (!n)) = ⟨f.nan, fNV⟩) ∧
    (∀ n m e, f.mulVals mode (.inf n) (.fin m 0 e) = ⟨f.nan, fNV⟩ ∧ f.mulVals mode (.fin m 0 e) (.inf n) = ⟨f.nan, fNV⟩ ∧
      f.fmaVals mode (.inf n) (.fin m 0 e) (.nan false) = ⟨f.nan, fNV⟩ ∧
      f.fmaVals mode (.fin m 0 e) (.inf n) (.nan false) = ⟨f.nan, fNV⟩))

/-- Every issue of fmin, fmax, fminmag, fmaxmag, fclamp and fmov answers a next state with the element results of R111,
and those are an operand bit for bit or the canonical NaN: the other operand where exactly one is a NaN, an operand
that no operand is below (above) otherwise, the zero of the negative (positive) sign among zeros, with FPX.NV
exactly for a signalling NaN. fminmag and fmaxmag give the operand of lesser or greater magnitude without a flag,
and what fmin or fmax gives on equal magnitudes and for a NaN. Every issue of fclass, frnd, fgetx and ffrac answers
a next state: fclass gives the element's class bit and no flag; frnd the integral value that the mode chooses, an
integral element and an infinity as they stand, without a flag but FPX.NV of a signalling NaN; fgetx the exponent of
the leading bit of a finite nonzero b, and the three special words with their flags otherwise; ffrac the exact
fraction with the sign of b. (R96, R97, R109, R111, R110, R113, R114) -/
def Obligations.FloatSelectResults : Prop :=
  (GivesElems .fmin (fun _ f _ a b _ => f.minMax false a b) ∧
  GivesElems .fmax (fun _ f _ a b _ => f.minMax true a b) ∧
  GivesElems .fminmag (fun _ f _ a b _ => f.minMaxMag false a b) ∧
  GivesElems .fmaxmag (fun _ f _ a b _ => f.minMaxMag true a b) ∧
  GivesElems .fclamp (fun _ f _ a b c =>
    ⟨(f.minMax false (f.minMax true a b).bits c).bits, (f.minMax true a b).fl ||| (f.minMax false (f.minMax true a b).bits c).fl⟩) ∧
  Gives .fmov (fun _ => 1) (fun s o c w l ws fl => fl = 0 ∧ ws = [ofElems (s.env (.fmov o) c w).ty (s.elemsB (.fmov o) c w l)]) ∧
  ∀ f ∈ [fmtF32, fmtF16, fmtBf16], ∀ (isMax : Bool) (a b : Nat),
    let x := f.decode a
    let y := f.decode b
    let r := f.minMax isMax a b
    let v := f.decode r.bits
    r.fl = (if x.isSig || y.isSig then fNV else 0) ∧
    (x.isNan → y.isNan → r.bits = f.nan) ∧ (x.isNan → ¬ y.isNan → r.bits = b) ∧ (¬ x.isNan → y.isNan → r.bits = a) ∧
    (¬ x.isNan → ¬ y.isNan → (r.bits = a ∨ r.bits = b) ∧
      (isMax → ¬ v.lt x ∧ ¬ v.lt y) ∧ (¬ isMax → ¬ x.lt v ∧ ¬ y.lt v) ∧
      (x.isZero → y.isZero → x.neg ≠ y.neg → v.neg = !isMax)) ∧
    (let ax := f.decode (f.clearSign a)
     let ay := f.decode (f.clearSign b)
     (∀ p, x.rat = some p → ax.rat = some p.abs) ∧ (∀ n, x = .inf n → ax = .inf false) ∧
     (x.isNan ∨ y.isNan ∨ ax.eq ay = true → f.minMaxMag isMax a b = f.minMax isMax a b) ∧
     (¬ x.isNan → ¬ y.isNan → (ax.lt ay → f.minMaxMag isMax a b = ⟨if isMax then b else a, 0⟩) ∧
       (ay.lt ax → f.minMaxMag isMax a b = ⟨if isMax then a else b, 0⟩)))) ∧
  (Gives .fclass (fun _ => 1) (fun s o c w l ws fl => fl = 0 ∧
    ws = [ofElems (s.env (.fclass o) c w).ty ((s.elemsB (.fclass o) c w l).map (fclassEl (fmtOfTy (s.env (.fclass o) c w).ty)))]) ∧
  (∀ f ∈ [fmtF32, fmtF16, fmtBf16], ∀ x, (∀ g, f.decode x = .nan g → fclassEl f x = 2 ^ if g then 8 else 9) ∧
    (∀ n, f.decode x = .inf n → fclassEl f x = 2 ^ if n then 0 else 7) ∧
    ∀ n m e, f.decode x = .fin n m e → fclassEl f x = 2 ^
      if m = 0 then (if n then 3 else 4)
      else if (m : Rat) * 2 ^ e < 2 ^ (1 - f.bias : Int) then (if n then 2 else 5) else if n then 1 else 6) ∧
  GivesElems .frnd (fun _ f m _ b _ => frndEl f m b) ∧
  (∀ f ∈ [fmtF32, fmtF16, fmtBf16], ∀ mode < 4, ∀ x < 2 * f.signBit, let r := frndEl f mode x
    (∀ g, f.decode x = .nan g → r = ⟨f.nan, if g then fNV else 0⟩) ∧ ((f.decode x).isInf = true → r = ⟨x, 0⟩) ∧
    ∀ q, (f.decode x).rat = some q → r.fl = 0 ∧ (f.decode r.bits).neg = (f.decode x).neg ∧
      ((∃ k : Int, q = k) → r.bits = x) ∧ ∃ k : Int, (f.decode r.bits).rat = some (k : Rat) ∧
        (mode = 0 → (q - k).abs ≤ 1 / 2 ∧ ((q - k).abs = 1 / 2 → k % 2 = 0)) ∧
        (mode = 1 → (q - k).abs < 1 ∧ (k : Rat).abs ≤ q.abs) ∧ (mode = 2 → q ≤ k ∧ (k : Rat) < q + 1) ∧
        (mode = 3 → (k : Rat) ≤ q ∧ q < k + 1)) ∧
  Gives .fgetx (fun _ => 1) (fun s o c w l ws fl =>
    match fmtF32.decode ((s.elemsB (.fgetx o) c w l).getD 0 0) with
    | .nan _ => ws = [0x80000000] ∧ fl = fNV
    | .inf _ => ws = [0x7FFFFFFF] ∧ fl = 0
    | .fin _ m e => (m = 0 → ws = [0x80000000] ∧ fl = fDZ) ∧
        (m ≠ 0 → fl = 0 ∧ ∃ k : Nat, ws = [BitVec.ofInt 32 (k + e)] ∧ 2 ^ k ≤ m ∧ m < 2 ^ (k + 1))) ∧
  GivesElems .ffrac (fun _ f _ _ b _ => ffracEl f b) ∧
  (∀ f ∈ [fmtF32, fmtF16, fmtBf16], ∀ x m e n, f.decode x = .fin n m e → (ffracEl f x).fl = 0 ∧ (f.decode (ffracEl f x).bits).neg = n ∧
    ∃ k : Nat, (f.decode (ffracEl f x).bits).rat = (f.decode x).rat.map (fun v => v - (if n then -(k : Rat) else k)) ∧
      ∀ y, (f.decode (ffracEl f x).bits).rat = some y → y.abs < 1))

/-- Every issue of fcmp and of fcmp.ax answers a next state in which each active lane takes its old D with bit K (and
bit K + 1 for a packed type) replaced by the exact condition on the elements; FPX.NV is set by a signalling NaN, and
by any NaN under .lt, .le, .gt and .ge, and nothing else changes. For fcmp.ax this holds whatever AXC.LEVEL is.
(R112, R117) -/
def Obligations.FloatCompareResults : Prop :=
  let compares (mk : Operands → Instr) : Prop := Gives mk (fun _ => 1) (fun s o c w l ws fl =>
    let f := fmtOfTy (s.env (mk o) c w).ty
    let xs := (s.elemsA (mk o) c w l).map f.decode
    let ys := (s.elemsB (mk o) c w l).map f.decode
    let k := bitsOf o.xm 0 5
    let cond := o.mods 2 3
    let pair (j : Nat) : FVal × FVal := (xs.getD j (.nan false), ys.getD j (.nan false))
    let unordered (j : Nat) : Bool := (pair j).1.isNan || (pair j).2.isNan
    let holds (j : Nat) : Bool := match cond with
      | 0 => (pair j).1.eq (pair j).2
      | 1 => unordered j || !(pair j).1.eq (pair j).2
      | 2 => (pair j).1.lt (pair j).2
      | 3 => (pair j).1.le (pair j).2
      | 4 => (pair j).2.lt (pair j).1
      | 5 => (pair j).2.le (pair j).1
      | 6 => unordered j
      | _ => !unordered j
    (∃ v : Word, ws = [v] ∧ ∀ i < 32, v.getLsbD i =
      if k ≤ i ∧ i < k + xs.length then holds (i - k) else (s.sources o c w l).d.getLsbD i) ∧
    fl = if (List.range xs.length).any (fun j => (pair j).1.isSig || (pair j).2.isSig ||
      (unordered j && decide (2 ≤ cond) && decide (cond ≤ 5))) then fNV else 0)
  compares .fcmp ∧ compares .fcmpAx

/-- Every issue of rcp, rsqrt, sqrt, exp2, log2, sin, cos, tanh, fdiv and sigm answers a next state in which each active
lane takes the word of element results that SFun.apply gives for the form, the rounding mode of the exact sqrt and
fdiv (.rn for every other), the type and the elements of A and B, with the union of their flags; nothing else
changes. In the approximate form the raw value is free within the bound (assumption log 7). For FP32, FP16 and BF16,
in both forms and every mode, the special functions of the infinities, the zeros and the NaNs are those of Table
4.12 with their flags, log2 of 1 is +0, and fdiv gives the canonical NaN with FPX.NV for 0/0 and infinity over
infinity, a signed infinity with FPX.DZ for a finite nonzero value over a zero, and a signed zero for a finite value
over an infinity. (R126, R127, R97, R128) -/
def Obligations.SpecialFunctionResults : Prop :=
  (let fn (mk : Operands → Instr) (g : SFun) : Prop := Gives mk (fun _ => 1) (fun s o c w l ws fl =>
    let e := s.env (mk o) c w
    let mode := if o.modBit 5 = true ∧ (g = .sqrt ∨ g = .fdiv) then e.rm else 0
    let rs := (List.range (s.elemsB (mk o) c w l).length).map (fun k =>
      g.apply (fmtOfTy e.ty) (o.modBit 5) mode e.ty ((s.elemsA (mk o) c w l).getD k 0) ((s.elemsB (mk o) c w l).getD k 0))
    ws = [ofElems e.ty (rs.map (·.bits))] ∧ fl = (rs.map (·.fl)).foldl (· ||| ·) 0)
  fn .rcp .rcp ∧ fn .rsqrt .rsqrt ∧ fn .sqrt .sqrt ∧ fn .exp2 .exp2 ∧ fn .log2 .log2 ∧
  fn .sin .sin ∧ fn .cos .cos ∧ fn .tanh .tanh ∧ fn .fdiv .fdiv ∧ fn .sigm .sigm) ∧
  (∀ f ∈ [fmtF32, fmtF16, fmtBf16], ∀ (exact : Bool) (mode ty a b : Nat),
    let ap (g : SFun) : FRes := g.apply f exact mode ty a b
    let sg (n : Bool) : Nat := if n then f.signBit else 0
    let one : Nat := f.bias.toNat * 2 ^ f.mb
    let half : Nat := (f.bias.toNat - 1) * 2 ^ f.mb
    let invalid : FRes := ⟨f.nan, fNV⟩
    (∀ sig, f.decode b = .nan sig → ∀ g ∈ [SFun.rcp, .rsqrt, .sqrt, .exp2, .log2, .sin, .cos, .tanh, .sigm],
      ap g = ⟨f.nan, if sig then fNV else 0⟩) ∧
    ((f.decode a).isNan || (f.decode b).isNan → ap .fdiv = ⟨f.nan, sigFlag [f.decode a, f.decode b]⟩) ∧
    (f.decode b = .inf true → ap .rcp = ⟨sg true, 0⟩ ∧ ap .rsqrt = invalid ∧ ap .sqrt = invalid ∧ ap .exp2 = ⟨0, 0⟩ ∧
      ap .log2 = invalid ∧ ap .sin = invalid ∧ ap .cos = invalid ∧ ap .tanh = ⟨sg true + one, 0⟩ ∧ ap .sigm = ⟨0, 0⟩) ∧
    (f.decode b = .inf false → ap .rcp = ⟨0, 0⟩ ∧ ap .rsqrt = ⟨0, 0⟩ ∧ ap .sqrt = ⟨f.infBits, 0⟩ ∧ ap .exp2 = ⟨f.infBits, 0⟩ ∧
      ap .log2 = ⟨f.infBits, 0⟩ ∧ ap .sin = invalid ∧ ap .cos = invalid ∧ ap .tanh = ⟨one, 0⟩ ∧ ap .sigm = ⟨one, 0⟩) ∧
    (∀ n e, f.decode b = .fin n 0 e → ap .rcp = ⟨sg n + f.infBits, fDZ⟩ ∧ ap .rsqrt = ⟨sg n + f.infBits, fDZ⟩ ∧
      ap .sqrt = ⟨sg n, 0⟩ ∧ ap .exp2 = ⟨one, 0⟩ ∧ ap .log2 = ⟨sg true + f.infBits, fDZ⟩ ∧ ap .sin = ⟨sg n, 0⟩ ∧
      ap .cos = ⟨one, 0⟩ ∧ ap .tanh = ⟨sg n, 0⟩ ∧ ap .sigm = ⟨half, 0⟩) ∧
    (∀ m e, m ≠ 0 → f.decode b = .fin true m e → ap .rsqrt = invalid ∧ ap .sqrt = invalid ∧ ap .log2 = invalid) ∧
    (b = one → ap .log2 = ⟨0, 0⟩) ∧
    (∀ x y, f.decode a = .inf x → f.decode b = .inf y → ap .fdiv = invalid) ∧
    (∀ x y k m e g, f.decode a = .fin x m e → f.decode b = .fin y k g → k = 0 →
      ap .fdiv = if m = 0 then invalid else ⟨sg (x != y) + f.infBits, fDZ⟩) ∧
    (∀ x y m e, f.decode a = .fin x m e → f.decode b = .inf y → ap .fdiv = ⟨sg (x != y), 0⟩))

/-- Every issue of cvt.f32, cvt.f16, cvt.bf16, cvt.e4m3, cvt.e5m2, cvt.e2m1, cvt.int and cvt.rgb answers a next state in
which each active lane takes the elements of Table 4.10, converted in order and placed as the table says, other
bytes or nibbles of D kept; FPX gains the union of the flags; under .sr the lane's generator steps once before each
element that narrows, and it does not move otherwise; nothing else changes. (R49, R51, R52, R118, R119, R120, R121,
R122, R125) -/
def Obligations.ConversionResults : Prop :=
  (∀ (mk : Operands → Instr) (f : Fmt) (four : Bool) (pack : Operands → Sources → List Nat → List Word),
    (mk, f, four, pack) ∈ conversionTable →
    GivesConversion mk 1 FVal (fun s o c w l => (s.env (mk o) c w).cvtElems s four l)
      (fun o => !isWidening (cvtS o) f)
      (fun o mode rnd x => f.convert (if isWidening (cvtS o) f then 0 else mode) (o.modBit 3) rnd x) pack) ∧
  GivesConversion .cvtF32 1 FVal
    (fun s o c w l => [cvtVal (cvtS o) (operandWord s w c.lanes l (cvtTy (cvtS o)) o.b) (cvtEl o)])
    (fun o => !isWidening (cvtS o) fmtF32)
    (fun o mode rnd x => fmtF32.convert (if isWidening (cvtS o) fmtF32 then 0 else mode) (o.modBit 3) rnd x)
    (fun _ _ xs => [BitVec.ofNat 32 (xs.getD 0 0)]) ∧
  GivesConversion .cvtInt 1 FVal
    (fun s o c w l => [cvtVal (cvtS o) (operandWord s w c.lanes l (cvtTy (cvtS o)) o.b) (cvtEl o)]) (fun _ => true)
    (fun o mode rnd x => toIntType (cvtIt o) mode rnd x) (fun _ _ xs => [BitVec.ofNat 32 (xs.getD 0 0)]) ∧
  GivesConversion .cvtRgb 1 (Fmt × FVal)
    (fun s o c w l => [(fmtColour6, fmtF32.decode (operandWord s w c.lanes l .f32 o.a).toNat),
      (fmtColour6, fmtF32.decode (operandWord s w c.lanes l .f32 o.b).toNat),
      (fmtColour5, fmtF32.decode (operandWord s w c.lanes l .f32 o.c).toNat)]) (fun _ => true)
    (fun o mode rnd x => colourChannel x.1 mode (o.modBit 3) rnd x.2)
    (fun _ _ xs => [BitVec.ofNat 32 (xs.getD 0 0 + xs.getD 1 0 * 2 ^ 11 + xs.getD 2 0 * 2 ^ 22)])

/-- Every issue of cvt.mxf4, cvt.mxi8 and cvt.mxi4 answers a next state in which each active lane takes the 32 elements
of its window, packed from D on, then the scale with upper bits 0 (R44, R45), the flags and the generator of the
block conversion; every issue of cvt.unmx one in which it takes the FP32 value of the element, with one step of the
generator for an E2M1 block under .sr and none otherwise (assumption log 30), and of cvt.unrgb the FP32 value of the
channel without a flag, or of an infinite channel under .sat the largest finite value of its sign with FPX.ST
(assumption log 24); nothing else changes. (R44, R45, R47, R53, R123, R124, R119) -/
def Obligations.BlockConversionResults : Prop :=
  let block (mk : Operands → Instr) (n bits regs : Nat) (conv : Nat → Bool → Word → List FVal → Nat × CvtAcc) : Prop :=
    ∀ s o c w, Issuing s (mk o) c w → ∃ t, exec (mk o) s = .next t ∧
      Converts s t (mk o) c w n (fun l gen ws fl gen' =>
        let xs := (operandWords s w c.lanes l 32 false o.a).map (fun v => fmtF32.decode v.toNat)
        let r := conv (s.env (mk o) c w).cvtMode (o.modBit 3) gen xs
        ws = packWords bits r.2.outs regs ++ [BitVec.ofNat 32 r.1] ∧ fl = r.2.fl ∧ gen' = r.2.gen)
  block .cvtMxf4 5 4 4 mxBlock ∧ block .cvtMxi8 9 8 8 (mxiBlock 127) ∧ block .cvtMxi4 5 4 4 (mxiBlock 7) ∧
  GivesConversion .cvtUnmx 1 (Nat × List Word)
    (fun s o c w l => [((s.sources o c w l).b.toNat % 32, operandWords s w c.lanes l 9 false o.a)]) (fun o => cvtS o == 0)
    (fun o mode rnd x => unmxWord (cvtS o) x.1 mode (o.modBit 3) rnd x.2) (fun _ _ xs => [BitVec.ofNat 32 (xs.getD 0 0)]) ∧
  Gives .cvtUnrgb (fun _ => 1) (fun s o c w l ws fl =>
    let b := (s.sources o c w l).b.toNat
    let x : Fmt × Nat := match cvtEl o with
      | 0 => (fmtColour6, b % 2 ^ 11)
      | 1 => (fmtColour6, b / 2 ^ 11 % 2 ^ 11)
      | _ => (fmtColour5, b / 2 ^ 22)
    if o.modBit 3 = true ∧ (x.1.decode x.2 = .inf true ∨ x.1.decode x.2 = .inf false) then
      fl = fST ∧ ws = [if (x.1.decode x.2).neg then 0xFF7FFFFF else 0x7F7FFFFF]
    else fl = 0 ∧ ws = [BitVec.ofNat 32 (x.1.widen x.2)])

/-- Every issue of smx.mul, smx.mad, smx.add, smx.scl, smx.tr, smx.id and smx.sym answers a next state in which each
active lane takes in the window D the elements of R148 to R150: the chain of fused products in ascending k with one
rounding each, the sum, the scaled element, the transpose, the scaled identity, the symmetric part or the mirrored
lower triangle. FPX gains the union of the flags of the steps (R144); tr, id and sym.lo set none; nothing else
changes. (R141, R144, R145, R146, R148, R149, R150) -/
def Obligations.SmallMatrixElements : Prop :=
  let step (z : FRes) (fl : BitVec 6) : Nat × BitVec 6 := (z.bits, fl ||| z.fl)
  let mulStep (x y : Nat) (fl : BitVec 6) : Nat × BitVec 6 := step (fmtF32.mulVals rmRn (fmtF32.decode x) (fmtF32.decode y)) fl
  let addStep (x y : Nat) : Nat × BitVec 6 := step (fmtF32.addVals rmRn (fmtF32.decode x) (fmtF32.decode y)) 0
  let fmaStep (x y : Nat) (z : Nat × BitVec 6) : Nat × BitVec 6 :=
    step (fmtF32.fmaVals rmRn (fmtF32.decode x) (fmtF32.decode y) (fmtF32.decode z.1)) z.2
  let are (m n : Nat) (ws : List Word) (fl : BitVec 6) (e : Nat → Nat → Nat × BitVec 6) : Prop :=
    ws.length = m * n ∧ (∀ i < m, ∀ j < n, ws.getD (i * n + j) 0 = BitVec.ofNat 32 (e i j).1) ∧
      fl = ((List.range m).flatMap (fun i => (List.range n).map (fun j => (e i j).2))).foldl (· ||| ·) 0
  let el (s : State) (c : Cur) (w : Warp) (l n : Nat) (x : Operand) (cols i j : Nat) : Nat :=
    ((operandWords s w c.lanes l n false x).getD (i * cols + j) 0).toNat
  let product (mk : Operands → Instr) (mad : Bool) : Prop := Gives mk (fun o => o.smxM * o.smxN) (fun s o c w l ws fl =>
    let m := o.smxM
    let n := o.smxN
    let k := o.smxK
    let a (i t : Nat) : Nat := if o.modBit 0 then el s c w l (m * k) o.a m t i else el s c w l (m * k) o.a k i t
    let b (t j : Nat) : Nat := if o.modBit 1 then el s c w l (k * n) o.smxB k j t else el s c w l (k * n) o.smxB n t j
    are m n ws fl (fun i j =>
      ((List.range k).drop (if mad then 0 else 1)).foldl (fun z t => fmaStep (negIf (o.modBit 2) (a i t)) (b t j) z)
        (if mad then (el s c w l (m * n) o.smxE n i j, 0) else mulStep (a i 0) (b 0 j) 0)))
  product .smxMul false ∧ product .smxMad true ∧
  Gives .smxAdd (fun o => o.smxM * o.smxN) (fun s o c w l ws fl =>
    are o.smxM o.smxN ws fl (fun i j =>
      addStep (el s c w l (o.smxM * o.smxN) o.a o.smxN i j) (negIf (o.modBit 2)
        (if o.modBit 1 then el s c w l (o.smxM * o.smxN) o.smxB o.smxM j i else el s c w l (o.smxM * o.smxN) o.smxB o.smxN i j)))) ∧
  Gives .smxScl (fun o => o.smxM * o.smxN) (fun s o c w l ws fl =>
    are o.smxM o.smxN ws fl (fun i j =>
      mulStep (negIf (o.modBit 2) (el s c w l (o.smxM * o.smxN) o.a o.smxN i j)) (operandWord s w c.lanes l .f32 o.smxB).toNat 0)) ∧
  Gives .smxTr (fun o => o.smxM * o.smxN) (fun s o c w l ws fl => fl = 0 ∧
    ws.length = o.smxN * o.smxM ∧ ∀ i < o.smxM, ∀ j < o.smxN, ws.getD (j * o.smxM + i) 0 =
      (operandWords s w c.lanes l (o.smxM * o.smxN) false o.a).getD (i * o.smxN + j) 0) ∧
  Gives .smxId (fun o => o.smxM * o.smxN) (fun s o c w l ws fl => fl = 0 ∧
    ws.length = o.smxM * o.smxN ∧ ∀ i < o.smxM, ∀ j < o.smxN, ws.getD (i * o.smxN + j) 0 =
      if i = j then operandWord s w c.lanes l .f32 o.smxB else 0) ∧
  Gives .smxSym (fun o => o.smxN * o.smxN) (fun s o c w l ws fl => (o.modBit 0 → fl = 0) ∧
    are o.smxN o.smxN ws fl (fun i j =>
      let a (x y : Nat) : Nat := el s c w l (o.smxN * o.smxN) o.a o.smxN x y
      if o.modBit 0 then (a (max i j) (min i j), 0) else if i = j then (a i j, 0)
      else
        let z := addStep (a (min i j) (max i j)) (a (max i j) (min i j))
        mulStep z.1 0x3F000000 z.2))

/-- Every issue of smx.chol and smx.lu answers a next state in which each active lane takes the factor in the window D,
then for smx.lu the permutation word in the register of field B, then the status word in that of field E; every
issue of smx.sol one in which it takes the solution for every right-hand side in the window D; FPX gains the flags
of the steps, the set's lanes go on, and nothing else changes. SmallMatrixFactorisations says what smxCholesky,
smxLuFactor and the solves form. (R141, R151, R152, R153, R154, R155) -/
def Obligations.SmallMatrixFactors : Prop :=
  let factor (mk : Operands → Instr) (perm : Bool) (f : Nat → Mat → Factor) : Prop :=
    ∀ s o c w, Issuing s (mk o) c w → ∃ t, exec (mk o) s = .next t ∧
      RegistersOnly s t c.wid (activeLanes s (mk o) c w)
        (fun k => inDst o.d (o.smxN * o.smxN) k || (perm && inDst o.smxB 1 k) || inDst o.smxE 1 k) ∧ Moved s t c ∧
      ∀ l ∈ activeLanes s (mk o) c w,
        let r := f o.smxN ((operandWords s w c.lanes l (o.smxN * o.smxN) false o.a).map (·.toNat))
        t.fpxAt c.wid l = s.fpxAt c.wid l ||| r.fl ∧ (t.laneAt c.wid l).gen = (s.laneAt c.wid l).gen ∧
        ∀ k, t.regAt c.wid l k =
          ((((s.laneAt c.wid l).writeDst o.d (r.w.map (BitVec.ofNat 32))).writeDst o.smxB
            (if perm then [BitVec.ofNat 32 (permWord r.perm)] else [])).writeDst o.smxE [BitVec.ofNat 32 r.status]).reg k
  factor .smxChol false smxCholesky ∧ factor .smxLu true smxLuFactor ∧
  Gives .smxSol (fun o => o.smxM * o.smxN) (fun s o c w l ws fl =>
    let r := smxSolve o.smxM o.smxN (o.mods 0 2) (operandWord s w c.lanes l .int o.smxE).toNat
      ((operandWords s w c.lanes l (o.smxM * o.smxM) false o.a).map (·.toNat))
      ((operandWords s w c.lanes l (o.smxM * o.smxN) false o.smxB).map (·.toNat))
    ws = r.1.map (BitVec.ofNat 32) ∧ fl = r.2)

/-- The factor of smxCholesky, the matrix, permutation and status of smxLuFactor and the solution of smxSolve, which the
instructions write (SmallMatrixFactors), are those of R151 to R155: each element of a Cholesky column is the chain
of fused products in ascending k, with the root of a usable pivot, quotients below it, 1.0 and zeros for a bad one
and zeros above; each column of smx.lu takes the greatest key with ties to the lower row, swaps rows and
permutation, and eliminates, or puts 1.0 and zeros for a bad pivot; each right-hand side is permuted for .lu, and
solved forward, backward or both; the flags are the union of those of the steps, and the status word names NaNs, bad
pivots and the first of them. (R144, R151, R152, R153, R154, R155) -/
def Obligations.SmallMatrixFactorisations : Prop :=
  let val : Nat → FVal := fmtF32.decode
  let mag (x : FVal) : FVal := match x with
    | .fin _ m e => .fin false m e
    | .inf _ => .inf false
    | .nan g => .nan g
  let chain (xs : List (Nat × Nat)) (z : Nat) : FRes := xs.foldl (fun (acc : FRes) x =>
    let r := fmtF32.fmaVals 0 (val x.1).flip (val x.2) (val acc.bits)
    ⟨r.bits, acc.fl ||| r.fl⟩) ⟨z, 0⟩
  let quot (x y : Nat) : FRes := fmtF32.divVals 0 (val x) (val y)
  let union (xs : List (BitVec 6)) : BitVec 6 := xs.foldl (· ||| ·) 0
  let below (n j : Nat) : List Nat := (List.range n).filter (fun i => decide (j < i))
  let status (st n : Nat) (nan other : Bool) (bad : Nat → Bool) (bit : Nat) : Prop :=
    st % 256 = (if nan then 4 else 0) + (if other then bit else 0) ∧
    (∀ j < n, bad j = true → (∀ k < j, bad k = false) → st / 256 = j) ∧ ((∀ j < n, bad j = false) → st / 256 = 0)
  (∀ (n : Nat) (a : Mat), a.length = n * n →
    let f := smxCholesky n a
    let w (i j : Nat) : Nat := f.w.getD (i * n + j) 0
    let src (i j : Nat) : Nat := a.getD (i * n + j) 0
    let sum (i j : Nat) : FRes := chain ((List.range j).map (fun k => (w i k, w j k))) (src i j)
    let nonpos (j : Nat) : Bool := (val (sum j j).bits).le (.fin false 0 0)
    let bad (j : Nat) : Bool := (val (sum j j).bits).isNan || nonpos j
    f.w.length = n * n ∧ (∀ j < n, ∀ i < j, w i j = 0) ∧
    (∀ j < n, bad j = true → w j j = 0x3F800000 ∧ ∀ i ∈ below n j, w i j = 0) ∧
    (∀ j < n, bad j = false → w j j = (fmtF32.sqrtVal 0 (val (sum j j).bits)).bits ∧
      ∀ i ∈ below n j, w i j = (quot (sum i j).bits (w j j)).bits) ∧
    f.fl = union ((List.range n).map (fun j => (sum j j).fl ||| (if bad j then 0 else
      (fmtF32.sqrtVal 0 (val (sum j j).bits)).fl ||| union ((below n j).map (fun i => (sum i j).fl ||| (quot (sum i j).bits (w j j)).fl))))) ∧
    status f.status n ((List.range n).any (fun i => (List.range (i + 1)).any (fun j => (val (src i j)).isNan)) ||
      (List.range n).any (fun j => (val (sum j j).bits).isNan)) ((List.range n).any nonpos) bad 1) ∧
  (∀ (n : Nat) (a : Mat), a.length = n * n → ∃ (W : Nat → Nat → Nat → Nat) (P : Nat → Nat → Nat) (r : Nat → Nat),
    let f := smxLuFactor n a
    let lower (x y : Nat) : Bool := !(val y).isNan && ((val x).isNan || (mag (val x)).lt (mag (val y)))
    let sw (j i : Nat) : Nat := if i = j then r j else if i = r j then j else i
    let v (j i k : Nat) : Nat := W j (sw j i) k
    let q (j : Nat) : Nat := v j j j
    let small (j : Nat) : Bool := (mag (val (q j))).lt (.fin false 1 (-126))
    let bad (j : Nat) : Bool := (val (q j)).isNan || small j
    let upd (j i k : Nat) : FRes := fmtF32.fmaVals 0 (val (quot (v j i j) (q j)).bits).flip (val (v j j k)) (val (v j i k))
    f.w.length = n * n ∧ f.perm.length = n ∧
    (∀ i < n, P 0 i = i ∧ P n i = f.perm.getD i 0 ∧ ∀ k < n, W 0 i k = a.getD (i * n + k) 0 ∧ W n i k = f.w.getD (i * n + k) 0) ∧
    (∀ j < n, j ≤ r j ∧ r j < n ∧ (∀ i < n, j ≤ i → lower (W j (r j) j) (W j i j) = false) ∧
      (∀ i < r j, j ≤ i → lower (W j i j) (W j (r j) j) = true) ∧
      ∀ i < n, P (j + 1) i = P j (sw j i) ∧ ∀ k < n, W (j + 1) i k =
        if i < j ∨ k < j ∨ (i = j ∧ j < k) then v j i k
        else if bad j = true then (if k ≠ j then v j i k else if i = j then 0x3F800000 else 0)
        else if i = j then v j i k
        else if k = j then (quot (v j i j) (q j)).bits else (upd j i k).bits) ∧
    f.fl = union ((List.range n).map (fun j => if bad j then 0 else union ((below n j).map (fun i =>
      (quot (v j i j) (q j)).fl ||| union ((below n j).map (fun k => (upd j i k).fl)))))) ∧
    status f.status n (a.any (fun x => (val x).isNan) || (List.range n).any (fun j => (val (q j)).isNan)) ((List.range n).any small) bad 2 ∧
    (n ≤ 8 → permWord f.perm < 2 ^ (3 * n) ∧ ∀ i < n, permWord f.perm / 2 ^ (3 * i) % 8 = f.perm.getD i 0)) ∧
  (∀ (n cols form perm : Nat) (f b : Mat), form < 4 → ∃ y z : Nat → Nat → Nat,
    let out := smxSolve n cols form perm f b
    let el (i j : Nat) : Nat := f.getD (i * n + j) 0
    let pr (i : Nat) : Nat := if form = 1 ∧ perm / 2 ^ (3 * i) % 8 < n then perm / 2 ^ (3 * i) % 8 else i
    let start (c i : Nat) : Nat := b.getD (pr i * cols + c) 0
    let fwd (c i : Nat) : FRes := chain ((List.range i).map (fun t => (el i t, y c t))) (start c i)
    let bwd (c i : Nat) : FRes := chain ((below n i).map (fun t => (if form = 1 then el i t else el t i, z c t))) (y c i)
    out.1.length = n * cols ∧
    (∀ c < cols, ∀ i < n, out.1.getD (i * cols + c) 0 = z c i ∧
      y c i = (if form = 3 then start c i else if form = 1 then (fwd c i).bits else (quot (fwd c i).bits (el i i)).bits) ∧
      z c i = (if form = 2 then y c i else (quot (bwd c i).bits (el i i)).bits)) ∧
    out.2 = union ((List.range cols).map (fun c => union ((List.range n).map (fun i =>
      (if form = 3 then 0 else if form = 1 then (fwd c i).fl else (fwd c i).fl ||| (quot (fwd c i).bits (el i i)).fl) |||
      (if form = 2 then 0 else (bwd c i).fl ||| (quot (bwd c i).bits (el i i)).fl))))))

/-- Every issue of vote, elect, bcast, shf, prm, cmpct, rank and lsel answers a next state in which each active lane
takes the word of R192 to R197 and R202, formed from the lanes of its tile whose predicate is true and from no other
lane, with the fallback of R189 where the source is absent. No flag is set and nothing else changes. (R189, R192,
R193, R194, R195, R196, R197, R202, R203) -/
def Obligations.CrossLaneSelection : Prop :=
  let size (w : Warp) : Nat := 2 ^ w.part.toNat
  let group (s : State) (i : Instr) (c : Cur) (w : Warp) (l : Nat) : List Nat :=
    (activeLanes s i c w).filter (fun m => m / size w == l / size w)
  let kbit (s : State) (o : Operands) (c : Cur) (w : Warp) (m : Nat) : Bool := (s.sources o c w m).b.getLsbD (bitsOf o.xm 0 5)
  let fallback (s : State) (o : Operands) (c : Cur) (w : Warp) (l : Nat) (z : Bool) : Word := if z then 0 else (s.sources o c w l).a
  Gives .vote (fun _ => 1) (fun s o c w l ws fl => fl = 0 ∧ ∃ v : Word, ws = [v] ∧
    let g := group s (.vote o) c w l
    match o.mods 0 3 with
    | 0 => ∀ i < 32, v.getLsbD i = (decide (i ∈ g) && kbit s o c w i)
    | 1 => v = if ∀ m ∈ g, kbit s o c w m = true then 1 else 0
    | 2 => v = if ∃ m ∈ g, kbit s o c w m = true then 1 else 0
    | 3 => v = if ∀ m ∈ g, ∀ m' ∈ g, (s.sources o c w m).b = (s.sources o c w m').b then 1 else 0
    | _ => v = BitVec.ofNat 32 (g.countP (kbit s o c w))) ∧
  Gives .elect (fun _ => 1) (fun s o c w l ws fl => fl = 0 ∧
    ws = [if (if o.modBit 0 then ∀ m ∈ group s (.elect o) c w l, m ≤ l else ∀ m ∈ group s (.elect o) c w l, l ≤ m) then 1 else 0]) ∧
  Gives .bcast (fun _ => 1) (fun s o c w l ws fl => fl = 0 ∧ ∃ e ∈ group s (.bcast o) c w l, ws = [(s.sources o c w e).b] ∧
    (if o.modBit 0 then ∀ m ∈ group s (.bcast o) c w l, m ≤ e else ∀ m ∈ group s (.bcast o) c w l, e ≤ m)) ∧
  Gives .shf (fun _ => 1) (fun s o c w l ws fl => fl = 0 ∧
    let b := (s.sources o c w l).b.toNat
    let t := l % size w
    let source (u : Nat) : Word :=
      if l / size w * size w + u ∈ group s (.shf o) c w l then (s.sources o c w (l / size w * size w + u)).a
      else fallback s o c w l (o.modBit 2)
    ws = [match o.mods 0 2 with
      | 0 => source (b % size w)
      | 1 => if b ≤ t then source (t - b) else fallback s o c w l (o.modBit 2)
      | 2 => if t + b < size w then source (t + b) else fallback s o c w l (o.modBit 2)
      | _ => if Nat.xor t b < size w then source (Nat.xor t b) else fallback s o c w l (o.modBit 2)]) ∧
  Gives .prm (fun _ => 1) (fun s o c w l ws fl => fl = 0 ∧
    let g := group s (.prm o) c w l
    let sends (m : Nat) : Prop := (s.sources o c w m).b.toNat % size w = l % size w
    (∀ m ∈ g, sends m → (∀ m' ∈ g, sends m' → m ≤ m') → ws = [(s.sources o c w m).a]) ∧
    ((∀ m ∈ g, ¬ sends m) → ws = [fallback s o c w l (o.modBit 0)])) ∧
  Gives .cmpct (fun _ => 1) (fun s o c w l ws fl => fl = 0 ∧
    let chosen := (group s (.cmpct o) c w l).filter (kbit s o c w)
    ws = [if l % size w < chosen.length then (s.sources o c w (chosen.getD (l % size w) 0)).a
      else fallback s o c w l (o.modBit 0)]) ∧
  Gives .rank (fun _ => 1) (fun s o c w l ws fl => fl = 0 ∧
    ws = [BitVec.ofNat 32 ((group s (.rank o) c w l).countP (fun m => decide (m < l) &&
      (if o.modBit 0 then (s.sources o c w m).b == (s.sources o c w l).b else kbit s o c w m)))]) ∧
  Gives .lsel (fun _ => 1) (fun s o c w l ws fl => fl = 0 ∧
    ws = [if (s.sources o c w l).b.getLsbD l then (s.sources o c w l).a else (s.sources o c w l).c])

/-- Every issue of match answers a next state in which each active lane takes the mask of the lanes of its group whose
key equals its own (for .f32 zeros match and NaNs match), or with .all whether that is the whole group, and no flag;
every issue of red, scan and sscan one in which it takes the chain of Table 8.3's operation over the values of its
group, or of its segment up to it, left to right, with the union of the flags of the steps that formed the value.
Nothing else changes. (R189, R198, R199, R200, R203) -/
def Obligations.CrossLaneReductions : Prop :=
  let size (w : Warp) : Nat := 2 ^ w.part.toNat
  let group (s : State) (i : Instr) (c : Cur) (w : Warp) (l : Nat) : List Nat :=
    (activeLanes s i c w).filter (fun m => m / size w == l / size w)
  let value (s : State) (o : Operands) (c : Cur) (w : Warp) (m : Nat) : Word :=
    operandWord s w c.lanes m (combineTy (o.mods 0 4)) o.b
  Gives .matchKeys (fun _ => 1) (fun s o c w l ws fl => fl = 0 ∧
    let key (m : Nat) : Word := operandWord s w c.lanes m (if o.mods 0 2 = 1 then .f32 else .int) o.b
    let same (m : Nat) : Prop := key m = key l ∨ (o.mods 0 2 = 1 ∧
      (((fmtF32.decode (key m).toNat).isNan ∧ (fmtF32.decode (key l).toNat).isNan) ∨
       ((fmtF32.decode (key m).toNat).isZero ∧ (fmtF32.decode (key l).toNat).isZero)))
    let g := group s (.matchKeys o) c w l
    ∃ v : Word, ws = [v] ∧
      ((o.modBit 2 = false → ∀ i < 32, v.getLsbD i = true ↔ i ∈ g ∧ same i) ∧
       (o.modBit 2 = true → (∀ m ∈ g, same m) → v = 1) ∧ (o.modBit 2 = true → ¬ (∀ m ∈ g, same m) → v = 0))) ∧
  Gives .red (fun _ => 1) (fun s o c w l ws fl =>
    (ws, fl) = ([(chain (o.mods 0 4) ((group s (.red o) c w l).map (value s o c w))).1],
      (chain (o.mods 0 4) ((group s (.red o) c w l).map (value s o c w))).2)) ∧
  Gives .scan (fun _ => 1) (fun s o c w l ws fl =>
    let r := chain (o.mods 0 4) (((group s (.scan o) c w l).filter (fun m => if o.modBit 4 then decide (m < l) else decide (m ≤ l))).map
      (value s o c w))
    ws = [r.1] ∧ fl = r.2) ∧
  Gives .sscan (fun _ => 1) (fun s o c w l ws fl =>
    let g := group s (.sscan o) c w l
    let head (m : Nat) : Bool := (s.sources o c w m).a.getLsbD (bitsOf o.xm 0 5)
    let segment := g.filter (fun m => (if o.modBit 4 then decide (m < l) else decide (m ≤ l)) &&
      g.all (fun h => !(head h && decide (h ≤ l)) || decide (h ≤ m)))
    let r := chain (o.mods 0 4) (segment.map (value s o c w))
    ws = [r.1] ∧ fl = r.2) ∧
  (∀ op x, chain op [x] = (x, 0)) ∧ (∀ op, chain op [] = (combineIdentity op, 0))

/-- Every issue of part answers a next state. Where the active lanes are exactly the lanes of the warp that have not
ended and all read the same size 2, 4, 8, 16 or 32, PART takes its code and each of them takes the previous tile
size in D; otherwise PART stays and each active lane takes 0. Nothing else changes, and no trap is raised. (R201) -/
def Obligations.PartIsChecked : Prop :=
  ∀ s o c w, Issuing s (.part o) c w →
    let p := activeLanes s (.part o) c w
    let good (k : Nat) : Prop := 1 ≤ k ∧ k ≤ 5 ∧ p ≠ [] ∧ p = w.liveLanes ∧ ∀ l ∈ p, (s.sources o c w l).b = BitVec.ofNat 32 (2 ^ k)
    (∀ k, good k → ∃ u, exec (.part o) s = .next (u.modWarp c.wid (fun x => { x with part := BitVec.ofNat 3 k })) ∧
      Writes s u (.part o) c w 1 (fun _ ws fl => ws = [BitVec.ofNat 32 (2 ^ w.part.toNat)] ∧ fl = 0)) ∧
    ((∀ k, ¬ good k) → ∃ t, exec (.part o) s = .next t ∧ Writes s t (.part o) c w 1 (fun _ ws fl => ws = [0] ∧ fl = 0))

/-- Where no active lane's access traps or meets an owned line, and for ld.sp every line is in the core's scratchpad
cache, every issue of ld.sh and ld.sp answers a next state in which each active lane takes from D on the register
image of Table 11.2 of the bytes at its address, which is the little-endian number, sign-extended for .i8 and .i16;
every issue of ld.par one in which it takes the word of the argument block, 0 beyond its end; every issue of pref.sp
one in which no register and no byte changes. No flag is set and nothing else changes. Where every active lane's
access passes R254 and a record finds room, an F or X form of ld.sh or ld.sp of which some access meets a line that
an engine owns answers a next state in which the active lanes are suspended in one waiting record that waits for
those lines; one of ld.sp that meets none but misses a line of the core's scratchpad cache suspends them waiting for
the missing lines. An H form of ld.sh or st.sh of which some access that passes R254 meets an owned line suspends
its whole issuing set before itself, waiting for those lines. In every case the record captures exactly the live set
that LS names, with generators and FPX, all registers of the footprint before the instruction (R218), and no
register, flag or byte outside the record changes. (R5, R254, R255, R257, R258, R262, R263, R212, R217, R218, R238,
R256) -/
def Obligations.LoadResults : Prop :=
  ((∀ (shared : Bool) (mk : Operands → Instr), (shared, mk) ∈ [(true, Instr.ldSh), (false, Instr.ldSp)] →
    ∀ s o c w, Issuing s (mk o) c w → s.accessesFree (mk o) c w shared (szBytes (o.mods 0 3)) →
      (shared = false → s.missing w (szBytes (o.mods 0 3)) ((activeLanes s (mk o) c w).map (s.offsetAt o c w)) = []) →
      ∃ t, exec (mk o) s = .next t ∧ Writes s t (mk o) c w (szRegs (o.mods 0 3)) (fun l ws fl => fl = 0 ∧
        let z := szBytes (o.mods 0 3)
        let n := s.numberAt (w.space shared) (s.addressAt o c w shared l) z
        (o.mods 0 3 = 2 → ws = [(BitVec.ofNat 8 n).signExtend 32]) ∧ (o.mods 0 3 = 4 → ws = [(BitVec.ofNat 16 n).signExtend 32]) ∧
        (o.mods 0 3 ≠ 2 → o.mods 0 3 ≠ 4 → ws.length = szRegs (o.mods 0 3) ∧
          ∀ k < ws.length, ws.getD k 0 = BitVec.ofNat 32 (n / 2 ^ (32 * k))))) ∧
  GivesWordOf .ldPar (fun w _ x => w.args.getD x.b.toNat 0) ∧
  (∀ s o c w, Issuing s (.prefSp o) c w → ∃ t, exec (.prefSp o) s = .next t ∧
    RegistersOnly s t c.wid [] (fun _ => false) ∧ SameFlags s t ∧ Moved s t c)) ∧
  ((∀ (shared : Bool) (mk : Operands → Instr), (shared, mk) ∈ [(true, Instr.ldSh), (false, Instr.ldSp)] →
    ∀ s o c w, Issuing s (mk o) c w → activeLanes s (mk o) c w ≠ [] → o.form ≠ .h → s.hasRoom w o.ls →
      (∀ l ∈ activeLanes s (mk o) c w, s.checkAccess w shared (s.offsetAt o c w l) (szBytes (o.mods 0 3)) (szBytes (o.mods 0 3)) = 0) →
      let p := activeLanes s (mk o) c w
      let ks := s.blockers w shared (szBytes (o.mods 0 3)) (p.map (s.offsetAt o c w))
      let ms := s.missing w (szBytes (o.mods 0 3)) (p.map (s.offsetAt o c w))
      (ks ≠ [] → ∃ t, exec (mk o) s = .next t ∧ SuspendFrame s t c.wid p nowhere Warp.recordless id ∧
        SuspendedIn s t o.ls c.wid p (.lines ks) false []) ∧
      (ks = [] → shared = false → ms ≠ [] → ∃ t, exec (mk o) s = .next t ∧ SuspendFrame s t c.wid p nowhere Warp.recordless id ∧
        SuspendedIn s t o.ls c.wid p (.fill ms) false [])) ∧
  (∀ mk ∈ [Instr.ldSh, Instr.stSh], ∀ s o c w, Issuing s (mk o) c w → o.form = .h → s.hasRoom w 0 →
      let z := szBytes (o.mods 0 3)
      let good := (activeLanes s (mk o) c w).filter (fun l => s.checkAccess w true (s.offsetAt o c w l) z z == 0)
      let ks := s.blockers w true z (good.map (s.offsetAt o c w))
      ks ≠ [] → ∃ t, exec (mk o) s = .next t ∧ SuspendFrame s t c.wid c.lanes nowhere Warp.recordless id ∧
        SuspendedIn s t 0 c.wid c.lanes (.lines ks) true []))

/-- Where no active lane's access traps or meets an owned line or a save image, every issue of st.sh and st.sp answers a
next state in which each byte of a lane's access that no higher active lane's access covers is the byte of its data
registers, ISS has counted the instruction, no register or flag changes and every byte outside the accesses is as
before. That ISS counts at the issue, and that a store takes its place in the order there, is the model's reading
(assumption log 18). In a DET launch, where no earlier fold waits its turn, st.sp steps the warp's digest for each
active lane in ascending order and each aligned word its store touches, with the word's offset above the stored
bytes in place and 0 in the others; st.sh folds nothing. (R5, R244, R250, R251, R254, R255, R257, R258) -/
def Obligations.StoreResults : Prop :=
  ∀ (shared : Bool) (mk : Operands → Instr), (shared, mk) ∈ [(true, Instr.stSh), (false, Instr.stSp)] →
    ∀ s o c w, Issuing s (mk o) c w → s.accessesFree (mk o) c w shared (szBytes (o.mods 0 3)) →
      let p := activeLanes s (mk o) c w
      let z := szBytes (o.mods 0 3)
      let addr (l : Nat) : Nat := s.addressAt o c w shared l
      let covers (l a : Nat) : Prop := addr l ≤ a ∧ a < addr l + z
      let data (l j : Nat) : Byte :=
        BitVec.ofNat 8 ((((operandWords s w c.lanes l (szRegs (o.mods 0 3)) false o.a).getD (j / 4) 0).toNat) / 2 ^ (8 * (j % 4)))
      let part (l a : Nat) : Byte := let x := s.offsetAt o c w l; if x ≤ a ∧ a < x + z then data l (a - x) else 0
      let pair (l k : Nat) : Dword := let a := s.offsetAt o c w l / 4 * 4 + 4 * k
        BitVec.ofNat 32 a ++ (part l (a + 3) ++ part l (a + 2) ++ part l (a + 1) ++ part l a)
      (∀ l ∈ p, s.inImage (w.space shared) (addr l) z = false) →
      ∃ t, exec (mk o) s = .next t ∧
        Touches s t c [] (fun _ => false) (fun sp a => sp = w.space shared ∧ ∃ l ∈ p, covers l a) ∧
        (∀ l ∈ p, ∀ j < z, (∀ m ∈ p, l < m → ¬ covers m (addr l + j)) →
          t.byteAt (w.space shared) (addr l + j) = data l j) ∧
        IssueCounts s t c.wid (if p = [] then 0 else 1) ∧
        (s.isDet w = true → w.folds = [] → ∃ u, t.warp? c.wid = some u ∧ u.folds = [] ∧ u.dig = if shared then w.dig
          else p.foldl (fun d l => (List.range (max 1 (z / 4))).foldl (fun d k => digestStep d (pair l k)) d) w.dig)

/-- In every issue of ld.sh, ld.sp, st.sh and st.sp the answer is a next state in which each active lane whose access
fails the check of R254 is parked in a faulted record at the instruction, with trap 0x10 outside the window or in
the spill area, 0x11 beyond shared memory, else 0x12 for misalignment, and the offset of the record's lowest lane as
FADDR; the lane's registers keep. (R10, R208, R210, R211, R223, R254, R425) -/
def Obligations.AccessTraps : Prop :=
  ∀ (shared : Bool) (mk : Operands → Instr),
    (shared, mk) ∈ [(true, Instr.ldSh), (false, Instr.ldSp), (true, Instr.stSh), (false, Instr.stSp)] →
    ∀ s o c w, Issuing s (mk o) c w → (o.form = .h → s.hBlockers (s.env (mk o) c w) = []) →
      ∃ t, exec (mk o) s = .next t ∧ ∀ l ∈ activeLanes s (mk o) c w,
        let z := szBytes (o.mods 0 3)
        let off (m : Nat) : Nat := s.offsetAt o c w m
        let inside (m : Nat) : Prop := if shared then off m + z ≤ s.sharedLimit w
          else ∃ x, s.ctx? w.ctx = some x ∧ x.windowOk w.die (off m) z w.supervisor = true
        let code (m : Nat) : Nat → Prop := fun k =>
          (¬ inside m ∧ k = if shared then 0x11 else 0x10) ∨ (inside m ∧ off m % z ≠ 0 ∧ k = 0x12)
        ∀ k, code l k → ∃ u r, t.warp? c.wid = some u ∧ r ∈ u.records ∧ l ∈ r.lanes ∧ r.state = .faulted ∧ r.trap = k ∧
          r.pc = c.pc ∧ r.half = c.half ∧ r.faddr = off (r.lanes.headD 0) ∧ (t.laneAt c.wid l).st = .parked ∧
          ∀ n, t.regAt c.wid l n = s.regAt c.wid l n

/-- Where every row read passes its check and meets no owned line, every issue of ldm.t answers a next state in which
each active lane takes column (lane mod 16) of rows 8h to 8h + 7 of every tile, h being the lane's half of the warp,
where a row whose supplying lane is inactive reads as zeros; where every element of the windows of the active lanes
passes its check and meets no owned line, every issue of smx.ld.sh one in which it takes the words at base + i RS +
j ES modulo 2^32. No flag is set and nothing else changes. Where every element of the windows of the active lanes
passes its check and meets no owned line, every issue of smx.st.sh answers a next state in which each element's word
stands at base + i RS + j ES modulo 2^32 unless a later element of the lane or a higher active lane's window covers
it, every byte outside the windows is as before, and no register or flag changes. That ISS counts one for the
instruction, and that all its elements are stored in one step, is the model's reading (assumption log 18). (R156,
R157, R256, R259, R260, R244) -/
def Obligations.WindowAccessResults : Prop :=
  ((∀ s o c w, Issuing s (.ldmT o) c w →
    let p := activeLanes s (.ldmT o) c w
    let n := o.mods 0 2 + 1
    (∀ l ∈ p, l < 16 * n → s.checkAccess w true (s.offsetAt o c w l) 32 32 = 0 ∧ s.ownedLines w true (s.offsetAt o c w l) 32 = []) →
    let e (i r k : Nat) : Nat := if 16 * i + r ∈ p then s.numberAt (w.space true) (s.offsetAt o c w (16 * i + r) + 2 * k) 2 else 0
    ∃ t, exec (.ldmT o) s = .next t ∧ Writes s t (.ldmT o) c w (4 * n) (fun l ws fl => fl = 0 ∧ ws.length = 4 * n ∧
      ∀ i < n, ∀ k < 4, ws.getD (4 * i + k) 0 = BitVec.ofNat 32
        (e i (8 * (l / 16) + 2 * k + 1) (l % 16) * 2 ^ 16 + e i (8 * (l / 16) + 2 * k) (l % 16)))) ∧
  (∀ s o c w, Issuing s (.smxLdSh o) c w →
    let p := activeLanes s (.smxLdSh o) c w
    let es (l : Nat) : Nat := if o.modBit 0 then (s.sources { o with b := o.smxE } c w l).b.toNat % 2 ^ 16 else 4
    let rs (l : Nat) : Nat := if o.modBit 0 then (s.sources { o with b := o.smxE } c w l).b.toNat / 2 ^ 16 else 4 * o.smxN
    let addr (l i j : Nat) : Nat := ((s.sources { o with b := o.smxB } c w l).b.toNat + i * rs l + j * es l) % 2 ^ 32
    (∀ l ∈ p, ∀ i < o.smxM, ∀ j < o.smxN, s.checkAccess w true (addr l i j) 4 4 = 0 ∧ s.ownedLines w true (addr l i j) 4 = []) →
    ∃ t, exec (.smxLdSh o) s = .next t ∧ Writes s t (.smxLdSh o) c w (o.smxM * o.smxN) (fun l ws fl => fl = 0 ∧
      ws.length = o.smxM * o.smxN ∧ ∀ i < o.smxM, ∀ j < o.smxN,
        ws.getD (i * o.smxN + j) 0 = BitVec.ofNat 32 (s.numberAt (w.space true) (addr l i j) 4)))) ∧
  (∀ s o c w, Issuing s (.smxStSh o) c w →
    let p := activeLanes s (.smxStSh o) c w
    let es (l : Nat) : Nat := if o.modBit 0 then (s.sources { o with b := o.smxE } c w l).b.toNat % 2 ^ 16 else 4
    let rs (l : Nat) : Nat := if o.modBit 0 then (s.sources { o with b := o.smxE } c w l).b.toNat / 2 ^ 16 else 4 * o.smxN
    let addr (l q : Nat) : Nat :=
      ((s.sources { o with b := o.smxB } c w l).b.toNat + q / o.smxN * rs l + q % o.smxN * es l) % 2 ^ 32
    let size := o.smxM * o.smxN
    (∀ l ∈ p, ∀ q < size, s.checkAccess w true (addr l q) 4 4 = 0 ∧ s.ownedLines w true (addr l q) 4 = []) →
    ∃ t, exec (.smxStSh o) s = .next t ∧
      IssueCounts s t c.wid (if p = [] then 0 else 1) ∧
      Touches s t c [] (fun _ => false)
        (fun sp a => sp = w.space true ∧ ∃ l ∈ p, ∃ q < size, addr l q ≤ a ∧ a < addr l q + 4) ∧
      ∀ l ∈ p, ∀ q < size, (∀ m ∈ p, ∀ r < size, (l < m ∨ (l = m ∧ q < r)) → addr m r ≠ addr l q) →
        t.numberAt (w.space true) (addr l q) 4 = ((operandWords s w c.lanes l size false o.a).getD q 0).toNat)

/-- With an active lane and SPS in range, every issue of spl.push answers a next state in which SPS is lower by 4n and
the words of A to A + n - 1 of each active lane stand from the new SPS on; every issue of spl.pop one in which each
active lane takes the n words from SPS on and SPS is higher by 4n; spl.rd gives the word at SPS + b where that is a
multiple of 4 up to 0x3FC. No other stack word, register or flag changes. With an active lane and SPS out of range
spl.push and spl.pop park the active lanes with trap 0x13 and change nothing else. (R205, R206, R264, R265) -/
def Obligations.SpillStackResults : Prop :=
  (∀ s o c w, Issuing s (.splPush o) c w →
    let p := activeLanes s (.splPush o) c w
    let n := o.mods 0 3 + 1
    p ≠ [] → 4 * n ≤ w.sps.toNat → w.sps.toNat ≤ 0x400 →
    ∃ t x, exec (.splPush o) s = .next t ∧
      Moved s t c ∧ Changes s t c.wid [] (fun _ => false) (fun x => { x with lanes := [], spill := [], sps := 0 }) ∧
      t.warp? c.wid = some x ∧ x.sps = w.sps - BitVec.ofNat 32 (4 * n) ∧
      ∀ l < 32, ∀ k, x.spillWord (4 * k) l =
        if l ∈ p ∧ w.sps.toNat / 4 - n ≤ k ∧ k < w.sps.toNat / 4 then
          (operandWords s w c.lanes l n false o.a).getD (k - (w.sps.toNat / 4 - n)) 0
        else w.spillWord (4 * k) l) ∧
  (∀ s o c w, Issuing s (.splPop o) c w →
    let n := o.mods 0 3 + 1
    activeLanes s (.splPop o) c w ≠ [] → w.sps.toNat + 4 * n ≤ 0x400 →
    ∃ u, exec (.splPop o) s = .next (u.modWarp c.wid (fun x => { x with sps := x.sps + BitVec.ofNat 32 (4 * n) })) ∧
      Writes s u (.splPop o) c w n (fun l ws fl => fl = 0 ∧
        ws = (List.range n).map (fun j => w.spillWord (w.sps.toNat + 4 * j) l))) ∧
  (∀ s o c w, Issuing s (.splRd o) c w →
    (∀ l ∈ activeLanes s (.splRd o) c w, (w.sps + (s.sources o c w l).b).toNat % 4 = 0 ∧ (w.sps + (s.sources o c w l).b).toNat ≤ 0x3FC) →
    ∃ t, exec (.splRd o) s = .next t ∧ Writes s t (.splRd o) c w 1 (fun l ws fl => fl = 0 ∧
      ws = [w.spillWord (w.sps + (s.sources o c w l).b).toNat l])) ∧
  (∀ mk push, (mk, push) ∈ [(Instr.splPush, true), (Instr.splPop, false)] → ∀ s o c w, Issuing s (mk o) c w →
    let p := activeLanes s (mk o) c w
    let n := o.mods 0 3 + 1
    p ≠ [] → (if push then w.sps.toNat < 4 * n ∨ 0x400 < w.sps.toNat else 0x400 < w.sps.toNat + 4 * n) →
    ∃ t, exec (mk o) s = .next t ∧ Parks s t w p 0x13 c.pc c.half 0 0)

/-- Where no active lane's access traps or meets an owned line, outside a DET launch and a save image, every issue of
atm and atm.cas on shared memory, or with %zero in D, answers a next state in which, for each word reached, the
lanes that reach it in ascending order take in D the old values of R267 and the word becomes R267's: combined first
for the combining operations, one lane after another for the sequential ones and atm.cas; nothing else changes but
ISS, which counts one. With a register in D on the scratchpad at user level and room for the record, the words
change in the same way and the active lanes are suspended with those old values to be written at resumption, and
nothing else changes but ISS. A is read as f32 by .add.f32, .min.f32 and .max.f32. That ISS counts one for the
instruction is the model's reading (assumption log 18). For the integer and logical combining operations the values
are those of lanes applied one at a time. (R18, R244, R254, R266, R267, R268, R269) -/
def Obligations.AtomicResults : Prop :=
  let group (s : State) (i : Instr) (c : Cur) (w : Warp) (l : Nat) : List Nat :=
    (activeLanes s i c w).filter (fun m => atmOffset i (s.sources i.operands c w m).b == atmOffset i (s.sources i.operands c w l).b)
  let addr (s : State) (i : Instr) (c : Cur) (w : Warp) (l : Nat) : Nat :=
    s.spaceAddr w (atmShared i) (atmOffset i (s.sources i.operands c w l).b)
  let a (s : State) (i : Instr) (c : Cur) (w : Warp) (k : Nat) : Word :=
    let op := i.operands.mods 0 4
    operandWord s w c.lanes k (if i.opcode = 0x248 ∧ (op = 1 ∨ op = 6 ∨ op = 7) then .f32 else .int) i.operands.a
  let outcome (s : State) (i : Instr) (c : Cur) (w : Warp) (l : Nat) : List Word × Word :=
    let m := BitVec.ofNat 32 (s.numberAt (w.space (atmShared i)) (addr s i c w l) 4)
    let op := i.operands.mods 0 4
    let oneByOne (g : Word → Nat → Word) : List Word × Word :=
      (group s i c w l).foldl (fun acc k => (acc.1 ++ [acc.2], g acc.2 k)) ([], m)
    if i.opcode = 0x249 then oneByOne (fun y k => if y = a s i c w k then (s.sources i.operands c w k).c else y)
    else if op ≤ 10 then combineLanes op m ((group s i c w l).map (a s i c w))
    else oneByOne (fun y k => atmNew op y (a s i c w k))
  let stored (s : State) (i : Instr) (c : Cur) (w : Warp) : Space → Nat → Prop := fun x b =>
    x = w.space (atmShared i) ∧ ∃ l ∈ activeLanes s i c w, addr s i c w l ≤ b ∧ b < addr s i c w l + 4
  (∀ mk ∈ [Instr.atm, Instr.atmCas], ∀ s o c w, Issuing s (mk o) c w →
    let i := mk o
    let p := activeLanes s i c w
    let sp := w.space (atmShared i)
    s.isDet w = false →
    (∀ l ∈ p, s.checkAccess w (atmShared i) (atmOffset i (s.sources o c w l).b) 4 4 = 0 ∧
      s.ownedLines w (atmShared i) (atmOffset i (s.sources o c w l).b) 4 = [] ∧ s.inImage sp (addr s i c w l) 4 = false) →
    (atmShared i = true ∨ o.d = .spc .zero → ∃ t, exec i s = .next t ∧
      IssueCounts s t c.wid (if p = [] then 0 else 1) ∧ Touches s t c p (inDst o.d 1) (stored s i c w) ∧
      ∀ l ∈ p, t.numberAt sp (addr s i c w l) 4 = (outcome s i c w l).2.toNat ∧
        ∀ b, o.d = .reg b → t.regAt c.wid l b = (outcome s i c w l).1.getD ((group s i c w l).idxOf l) 0) ∧
    (atmShared i = false → w.supervisor = false → ∀ b, o.d = .reg b → p ≠ [] → s.hasRoom w o.ls → ∃ t results n, exec i s = .next t ∧
      SuspendedIn s t o.ls c.wid p (.atomic n) false results ∧ IssueCounts s t c.wid 1 ∧
      SuspendFrame s t c.wid p (stored s i c w) (fun x => { x.recordless with iss := 0 }) id ∧
      (∀ l ∈ p, t.numberAt sp (addr s i c w l) 4 = (outcome s i c w l).2.toNat ∧
        ({ lane := l, reg := b, val := (outcome s i c w l).1.getD ((group s i c w l).idxOf l) 0 } : RegWrite) ∈ results))) ∧
  (∀ op ∈ [0, 2, 3, 4, 5, 8, 9, 10], ∀ m xs, xs ≠ [] → (combineLanes op m xs).2 = xs.foldl (atmNew op) m ∧
    ∀ k < xs.length, (combineLanes op m xs).1.getD k 0 = (xs.take k).foldl (atmNew op) m)

/-- Where no active lane's access traps or meets an owned line: if every active lane's word satisfies COND or TO is 0,
every issue of wait.addr answers a next state in which each active lane takes 0 or, where COND fails, 1 in d and the
word in d + 1, and nothing else changes; if TO is not 0, the words of all active lanes fail COND and they name one
offset and one value, and a record finds room, they are suspended in one record that waits on that word and value.
(R217, R254, R270, R271) -/
def Obligations.WaitAddrResults : Prop :=
  ∀ s o c w, Issuing s (.waitAddr o) c w → s.accessesFree (.waitAddr o) c w (o.modBit 5) 4 →
    let p := activeLanes s (.waitAddr o) c w
    let word (l : Nat) : Word := BitVec.ofNat 32 (s.numberAt (w.space (o.modBit 5)) (s.addressAt o c w (o.modBit 5) l) 4)
    let holds (l : Nat) : Bool :=
      let v := (s.sources o c w l).a
      match o.mods 0 3 with
      | 0 => word l == v
      | 1 => word l != v
      | 2 => decide (v ≤ word l)
      | 3 => decide (word l < v)
      | 4 => decide ((word l - v).toNat < 2 ^ 31)
      | _ => (word l &&& v) != 0
    ((∀ l ∈ p, holds l = true ∨ o.tmo = 0) → ∃ t, exec (.waitAddr o) s = .next t ∧
      Writes s t (.waitAddr o) c w 2 (fun l ws fl => fl = 0 ∧ ws = [if holds l then 0 else 1, word l])) ∧
    ((∀ l ∈ p, holds l = false) → o.tmo ≠ 0 → p ≠ [] →
      (∀ l ∈ p, ∀ m ∈ p, s.offsetAt o c w l = s.offsetAt o c w m ∧ (s.sources o c w l).a = (s.sources o c w m).a) →
      s.hasRoom w o.ls → ∃ t, exec (.waitAddr o) s = .next t ∧
        SuspendedIn s t o.ls c.wid p (.word (o.modBit 5) (s.addressAt o c w (o.modBit 5) (p.headD 0)) (o.mods 0 3)
          (s.sources o c w (p.headD 0)).a none) false [])

/-- Every issue of nop answers a next state in which the set's lanes go on and nothing else changes; of br one in which
each active lane stands at 8 times the immediate from the X head, half 0, and the other lanes of the set at the
following position; of brx, where every active lane's target is a multiple of 8, at its target; of call and callx,
where one word can be pushed, so too, with the offset of the following word pushed once for the warp; of ret, where
one word can be popped and is a multiple of 8 in every active lane, at the popped offset with SPS higher by 4. No
register, flag or byte changes otherwise. A lane of brx, or of a callx that has room, whose target is no multiple of
8, and a lane of ret whose popped word is none, is parked with trap 0x12 and that offset as FADDR (for brx by the
model's choice, assumption log 15); where that is every active lane, nothing else changes. A call without room for
one word, and a ret without one to pop, park every active lane with trap 0x13 and change nothing else. The lanes of
the set that are not active stand at the following position, and every other lane where it stood. (R68, R129, R130,
R131, R206, R264) -/
def Obligations.ControlFlowResults : Prop :=
  let loops (x : Warp) : Warp := { x with lanes := [], loopPc := 0, loopCount := 0 }
  let stack (x : Warp) : Warp := { x with lanes := [], spill := [], sps := 0 }
  let head (o : Operands) (c : Cur) : Nat := (((c.nextPc : Int) - 16 + 8 * (BitVec.ofNat 32 o.immNat).toInt) % 2 ^ 32).toNat
  let stands (x : Lane) (pc half repc : Nat) : Prop := x.pc = pc ∧ x.half = half ∧ x.repc = repc
  let at_ (s t : State) (c : Cur) (ls : List Nat) (f : Nat → Nat) : Prop := ∀ l,
    (l ∈ ls → stands (t.laneAt c.wid l) (f l) 0 0) ∧
    (l ∉ ls → l ∈ c.lanes → stands (t.laneAt c.wid l) c.nextPc c.nextHalf 0) ∧
    (l ∉ c.lanes → stands (t.laneAt c.wid l) (s.laneAt c.wid l).pc (s.laneAt c.wid l).half (s.laneAt c.wid l).repc)
  let last (c : Cur) : Prop := c.count ≤ c.idx + 1
  let pushed (w x : Warp) (p : List Nat) (v : Word) : Prop := x.sps = w.sps - 4 ∧ ∀ l < 32, ∀ k,
    x.spillWord (4 * k) l = if l ∈ p ∧ k + 1 = w.sps.toNat / 4 then v else w.spillWord (4 * k) l
  (∀ s o c w, Issuing s (.nop o) c w → ∃ t, exec (.nop o) s = .next t ∧ RegistersOnly s t c.wid [] (fun _ => false) ∧ SameFlags s t ∧
    Moved s t c) ∧
  (∀ s o c w, Issuing s (.br o) c w → last c → ∃ t, exec (.br o) s = .next t ∧
    Changes s t c.wid [] (fun _ => false) loops ∧ at_ s t c (activeLanes s (.br o) c w) (fun _ => head o c)) ∧
  (∀ s o c w, Issuing s (.brx o) c w → last c → (∀ l ∈ activeLanes s (.brx o) c w, (s.sources o c w l).b.toNat % 8 = 0) →
    ∃ t, exec (.brx o) s = .next t ∧ Changes s t c.wid [] (fun _ => false) loops ∧
      at_ s t c (activeLanes s (.brx o) c w) (fun l => (s.sources o c w l).b.toNat)) ∧
  (∀ s o c w, Issuing s (.call o) c w → last c → head o c % 8 = 0 → 4 ≤ w.sps.toNat → w.sps.toNat ≤ 0x400 →
    activeLanes s (.call o) c w ≠ [] → ∃ t x, exec (.call o) s = .next t ∧ Changes s t c.wid [] (fun _ => false) stack ∧
      at_ s t c (activeLanes s (.call o) c w) (fun _ => head o c) ∧ t.warp? c.wid = some x ∧
      pushed w x (activeLanes s (.call o) c w) (BitVec.ofNat 32 c.nextPc)) ∧
  (∀ s o c w, Issuing s (.callx o) c w → last c → (∀ l ∈ activeLanes s (.callx o) c w, (s.sources o c w l).b.toNat % 8 = 0) →
    4 ≤ w.sps.toNat → w.sps.toNat ≤ 0x400 → activeLanes s (.callx o) c w ≠ [] →
    ∃ t x, exec (.callx o) s = .next t ∧ Changes s t c.wid [] (fun _ => false) stack ∧
      at_ s t c (activeLanes s (.callx o) c w) (fun l => (s.sources o c w l).b.toNat) ∧ t.warp? c.wid = some x ∧
      pushed w x (activeLanes s (.callx o) c w) (BitVec.ofNat 32 c.nextPc)) ∧
  (∀ s o c w, Issuing s (.ret o) c w → last c → w.sps.toNat + 4 ≤ 0x400 → activeLanes s (.ret o) c w ≠ [] →
    (∀ l ∈ activeLanes s (.ret o) c w, (w.spillWord w.sps.toNat l).toNat % 8 = 0) →
    ∃ t x, exec (.ret o) s = .next t ∧ Changes s t c.wid [] (fun _ => false) stack ∧
      at_ s t c (activeLanes s (.ret o) c w) (fun l => (w.spillWord w.sps.toNat l).toNat) ∧
      t.warp? c.wid = some x ∧ x.sps = w.sps + 4 ∧ x.spill = w.spill) ∧
  (∀ s o c w, Issuing s (.call o) c w → head o c % 8 = 0 → w.sps.toNat < 4 ∨ 0x400 < w.sps.toNat → activeLanes s (.call o) c w ≠ [] →
    ∃ t, exec (.call o) s = .next t ∧ Parks s t w (activeLanes s (.call o) c w) 0x13 c.pc c.half 0 0) ∧
  (∀ s o c w, Issuing s (.callx o) c w → (∀ l ∈ activeLanes s (.callx o) c w, (s.sources o c w l).b.toNat % 8 = 0) →
    w.sps.toNat < 4 ∨ 0x400 < w.sps.toNat → activeLanes s (.callx o) c w ≠ [] →
    ∃ t, exec (.callx o) s = .next t ∧ Parks s t w (activeLanes s (.callx o) c w) 0x13 c.pc c.half 0 0) ∧
  (∀ s o c w, Issuing s (.ret o) c w → 0x400 < w.sps.toNat + 4 → activeLanes s (.ret o) c w ≠ [] →
    ∃ t, exec (.ret o) s = .next t ∧ Parks s t w (activeLanes s (.ret o) c w) 0x13 c.pc c.half 0 0) ∧
  (∀ s o c w, Issuing s (.ret o) c w → w.sps.toNat + 4 ≤ 0x400 →
    let word (l : Nat) : Nat := (w.spillWord w.sps.toNat l).toNat
    let bad := (activeLanes s (.ret o) c w).filter (fun l => word l % 8 != 0)
    bad ≠ [] → ∃ t, exec (.ret o) s = .next t ∧ ParkedIn t c.wid bad 0x12 c.pc c.half (word (bad.headD 0)) 0 ∧
      (bad = activeLanes s (.ret o) c w → ParkFrame s t w bad)) ∧
  (∀ mk ∈ [Instr.brx, Instr.callx], ∀ s o c w, Issuing s (mk o) c w → mk o = .brx o ∨ 4 ≤ w.sps.toNat ∧ w.sps.toNat ≤ 0x400 →
    let bad := (activeLanes s (mk o) c w).filter (fun l => (s.sources o c w l).b.toNat % 8 != 0)
    bad ≠ [] → ∃ t, exec (mk o) s = .next t ∧ ParkedIn t c.wid bad 0x12 c.pc c.half (s.sources o c w (bad.headD 0)).b.toNat 0 ∧
      (bad = activeLanes s (mk o) c w → ParkFrame s t w bad))

/-- Every issue of exit with an active lane answers a next state in which the active lanes have ended, or, where they
are the last lanes of a task warp that has no engine operation to wait for and whose deque has room for its
successors, the warp has left the machine; every issue of join one in which the active lanes are held at the join;
of yield with an active lane one in which the warp's age starts in the next cycle; of trap and brk with an active
lane one in which the active lanes are parked in one record at the instruction, with trap 0x3F and the low 16 bits
of the lowest lane's argument, or 0x3E. Registers, flags and, but for what an escalation does, every byte outside
the new record's slot of the fault page, every other warp and the rest of the machine keep. (R34, R129, R132, R133,
R173, R184, R425) -/
def Obligations.LaneEndsHoldsAndTraps : Prop :=
  (∀ s o c w, Issuing s (.exit o) c w → activeLanes s (.exit o) c w ≠ [] →
    (w.kind ≠ .task ∨ ∃ l ∈ w.liveLanes, l ∉ activeLanes s (.exit o) c w) →
    ∃ t, exec (.exit o) s = .next t ∧ (∀ l ∈ activeLanes s (.exit o) c w, (t.laneAt c.wid l).st = .ended) ∧
      (∀ v l, ¬ (v = c.wid ∧ l ∈ activeLanes s (.exit o) c w) → (t.laneAt v l).still = (s.laneAt v l).still) ∧
      (∀ v l k, t.regAt v l k = s.regAt v l k) ∧ SameFlags s t ∧ SameMemory s t ∧
      ((∀ l ∈ w.liveLanes, l ∈ activeLanes s (.exit o) c w) → ∃ x, t.warp? c.wid = some x ∧
        x.exitWait = some { lanes := activeLanes s (.exit o) c w, pc := c.pc, half := c.half, opc := 0x006 }) ∧ Moved s t c ∧
      (∀ v, v ≠ c.wid → t.warp? v = s.warp? v) ∧ { t.still with blocks := [] } = { s.still with blocks := [] }) ∧
  (∀ s o c w, Issuing s (.exit o) c w → w.kind = .task → activeLanes s (.exit o) c w ≠ [] →
    (∀ l ∈ w.liveLanes, l ∈ activeLanes s (.exit o) c w) → s.dqRoom w w.core (s.tcbNsucc w w.tcb.toNat) = true →
    (∀ x ∈ s.ops, x.wid ≠ c.wid) → ∃ t, exec (.exit o) s = .next t ∧ t.warp? c.wid = none) ∧
  (∀ s o c w, Issuing s (.join o) c w → ∃ t, exec (.join o) s = .next t ∧
    (∀ l ∈ activeLanes s (.join o) c w, (t.laneAt c.wid l).st = .held ∧ (t.laneAt c.wid l).pc = c.pc) ∧
    (∀ v l, ¬ (v = c.wid ∧ l ∈ activeLanes s (.join o) c w) → (t.laneAt v l).still = (s.laneAt v l).still) ∧
    (∀ v l k, t.regAt v l k = s.regAt v l k) ∧ SameFlags s t ∧ SameMemory s t ∧ t.warps.map Warp.still = s.warps.map Warp.still ∧ t.still = s.still) ∧
  (∀ s o c w, Issuing s (.yield o) c w → activeLanes s (.yield o) c w ≠ [] → ∃ t x, exec (.yield o) s = .next t ∧
    Moved s t c ∧ Changes s t c.wid [] (fun _ => false) (fun y => { y with lanes := [], readySince := 0 }) ∧
    t.warp? c.wid = some x ∧ x.readySince = (s.die w.die).clkr + 1) ∧
  (∀ s o c w, Issuing s (.trap o) c w → activeLanes s (.trap o) c w ≠ [] → ∃ t, exec (.trap o) s = .next t ∧
    ParkedIn t c.wid (activeLanes s (.trap o) c w) 0x3F c.pc c.half 0
      ((s.sources o c w ((activeLanes s (.trap o) c w).headD 0)).b.toNat % 2 ^ 16) ∧
    ParkFrame s t w (activeLanes s (.trap o) c w)) ∧
  (∀ s o c w, Issuing s (.brk o) c w → activeLanes s (.brk o) c w ≠ [] → ∃ t, exec (.brk o) s = .next t ∧
    Parks s t w (activeLanes s (.brk o) c w) 0x3E c.pc c.half 0 0)

/-- Every issue of csr.rd answers a next state in which each active lane takes the register's value, and for DIG the
warp's DIGH its upper half; of csr.wr, of csr.set and of csr.clr one in which the register, as it stands in the warp
(also where a secondary set reads PART, RND or AXC as they were before its primary), holds what the words of the
active lanes leave, written in ascending order of lane, its old value with the lanes' bits set, or without them, as
Tables 1.4 and 1.5 let it be written, in the lane for FPX; no general register changes, SEED reseeds every lane and
rewrites the warp's spilled records, and no other byte changes; no other register, flag, warp, context or unit
changes, but accesses, operations and task ends issued before go on under the old window, deque and root, and what
the core released lies in the old deque (R31). clk.rd gives the 64-bit count, pc.rd the PC of the instruction, and
dig.fold, where no earlier fold waits its turn, steps the digest once for each active lane in ascending order. (R25,
R27, R28, R31, R51, R218, R134, R135, R136, R137, R138, R140) -/
def Obligations.ControlRegisterResults : Prop :=
  (∀ s o c w, Issuing s (.csrRd o) c w → ∃ u t, exec (.csrRd o) s = .next t ∧
    Writes s u (.csrRd o) c w 1 (fun l ws fl => fl = 0 ∧ ws = [s.csrValue w l (o.mods 0 6)]) ∧
    (o.mods 0 6 ≠ 0x08 → t = u) ∧
    (o.mods 0 6 = 0x08 → activeLanes s (.csrRd o) c w ≠ [] →
      t = u.modWarp c.wid (fun x => { x with digh := BitVec.extractLsb' 32 32 x.dig }))) ∧
  (∀ mk ∈ [Instr.csrWr, Instr.csrSet, Instr.csrClr], ∀ s o c w, Issuing s (mk o) c w → activeLanes s (mk o) c w ≠ [] → s.hasCopies w →
    let p := activeLanes s (mk o) c w
    let n := o.mods 0 6
    let b (l : Nat) : Word := (s.sources o c w l).b
    let keeps : Prop := n = 0x21 ∨ n = 0x22 ∨ n = 0x23 ∨ n = 0x24 ∨ n = 0x25 ∨ n = 0x26 ∨ n = 0x29
    let free (x : Warp) : Warp := { x with
      records := x.records.map (fun r => { r with old := {} }), exitWait := x.exitWait.map (fun e => { e with old := {} }) }
    let own (x : Warp) : Warp := { x with
      lanes := [], part := 0, rnd := 0, axc := 0, seed := 0, sps := 0, prioClass := 0, prioLevel := 0
      records := x.records.map (fun r => { r with saved := [] }) }
    let beside (m : State) : State :=
      { m.modCore w.die w.core (fun k => { k with released := [] }) with ctxs := [], ops := m.ops.map (fun e => { e with old := {} }) }
    let plain (x : Context) : Context := { x with
      ctxId := 0, ttb0 := 0, ttb1 := 0, ttb2 := 0, root := 0, tlb := [], trapv := 0, wdgEn := false, wdgK := 0, wdgCount := 0
      dies := x.dies.map (fun d => { d with spb := 0, spl := 0, csab := 0, csal := 0, dqb := [], dql := [] }) }
    let new (ls : List Nat) (old : Word) : Word := if (mk o).opcode = 0x00C then ls.foldl (fun x l => writtenCsr n x (b l)) old
      else writtenCsr n old <| if (mk o).opcode = 0x00D then ls.foldl (fun x l => x ||| b l) old else ls.foldl (fun x l => x &&& ~~~b l) old
    ∃ t x v, exec (mk o) s = .next t ∧ t.warp? c.wid = some x ∧ s.warp? c.wid = some v ∧
      (n ≠ 0x02 → n ≠ 0x06 → ∀ l < 32, t.csrValue x l n = new p (s.csrValue v l n)) ∧
      (n = 0x02 → ∀ l ∈ p, t.csrValue x l n = new [l] (s.csrValue v l n)) ∧
      (∀ m, m ≠ n → m ≠ 0x06 → ∀ l < 32, t.csrValue x l m = s.csrValue v l m) ∧
      (∀ v l k, t.regAt v l k = s.regAt v l k) ∧ Moved s t c ∧ (∀ v l, (t.laneAt v l).still = (s.laneAt v l).still) ∧
      (n ≠ 0x04 → SameMemory s t) ∧ (n = 0x04 → BytesKept s t (fun sp a => sp = .spad w.die ∧ ∃ r ∈ w.records, ∃ d z,
        r.place = .spill d z ∧ d ≤ a ∧ a < d + 320 + 128 * r.live.length)) ∧
      (n ≠ 0x02 → n ≠ 0x04 → SameFlags s t) ∧ (∀ v l, ¬ (n = 0x02 ∧ v = c.wid ∧ l ∈ p) → t.fpxAt v l = s.fpxAt v l) ∧
      (∀ v l, ¬ (n = 0x04 ∧ v = c.wid) → (t.laneAt v l).gen = (s.laneAt v l).gen) ∧
      (n < 0x20 ∨ n = 0x2C → t.bare = s.bare) ∧ beside t.bare = beside s.bare ∧
      (∀ k, k ≠ w.ctx → t.ctx? k = s.ctx? k) ∧ (t.ctx? w.ctx).map plain = (s.ctx? w.ctx).map plain ∧
      (∀ y z, s.ctx? w.ctx = some y → t.ctx? w.ctx = some z → (n ≠ 0x29 → z.root = y.root ∧ z.tlb = y.tlb) ∧
        (∀ d, d ≠ w.die → z.die d = y.die d) ∧ ∀ k, k ≠ w.core →
          (z.die w.die).dqb.getD k 0 = (y.die w.die).dqb.getD k 0 ∧ (z.die w.die).dql.getD k 0 = (y.die w.die).dql.getD k 0) ∧
      (¬ keeps → t.ops = s.ops ∧ ∀ v, v ≠ c.wid → t.warp? v = s.warp? v) ∧
      (∀ v, v ≠ c.wid → (t.warp? v).map free = (s.warp? v).map free) ∧ own (free x) = own (free v) ∧
      (n ≠ 0x04 → x.records.map (·.saved) = v.records.map (·.saved)) ∧
      (n = 0x04 → ∀ l < 32, (t.laneAt c.wid l).gen = seedLane (t.csrValue x l 0x04) l)) ∧
  (∀ s o c w, Issuing s (.clkRd o) c w → ∃ t, exec (.clkRd o) s = .next t ∧ Writes s t (.clkRd o) c w 2 (fun _ ws fl => fl = 0 ∧
    let k := if w.supervisor then (s.die w.die).clkr else s.ctxClk w.ctx
    ws = [BitVec.ofNat 32 k, BitVec.ofNat 32 (k / 2 ^ 32)])) ∧
  (∀ s o c w, Issuing s (.digFold o) c w → w.folds = [] → ∃ t x, exec (.digFold o) s = .next t ∧
    Moved s t c ∧ Changes s t c.wid [] (fun _ => false) (fun y => { y with lanes := [], dig := 0 }) ∧ t.warp? c.wid = some x ∧
    x.dig = (activeLanes s (.digFold o) c w).foldl (fun d l => digestStep d ((s.sources o c w l).b ++ (s.sources o c w l).a)) w.dig) ∧
  (∀ s o c w, Issuing s (.pcRd o) c w → ∃ t, exec (.pcRd o) s = .next t ∧
    Writes s t (.pcRd o) c w 1 (fun _ ws fl => fl = 0 ∧ ws = [BitVec.ofNat 32 c.pc]))

/-- For a handler warp whose one active lane names an offset inside the window: where a faulted record of its context
lies there, hdl.resume answers a next state in which the record's lanes are runnable at its PC, or past the
instruction for traps 0x3E and 0x3F, hdl.kill one in which they have ended, and hdl.esc one in which the context has
escalated that record; D takes 0, no other register, no flag and no byte of main, host or shared memory or of a
weight buffer changes. Where none lies there D takes 1 and nothing else changes. (R139, R34, R426, R427, R443) -/
def Obligations.HandlerInstructionResults : Prop :=
  ∀ mk ∈ [Instr.hdlResume, Instr.hdlKill, Instr.hdlEsc], ∀ s o c w l, Issuing s (mk o) c w → activeLanes s (mk o) c w = [l] →
    (∃ x, s.ctx? w.ctx = some x ∧ x.windowOk w.die (s.sources o c w l).b.toNat 1 true = true) →
    (s.faultedAt w (s.sources o c w l).b.toNat = none → ∃ t, exec (mk o) s = .next t ∧
      Writes s t (mk o) c w 1 (fun _ ws fl => fl = 0 ∧ ws = [1])) ∧
    (∀ v r, s.faultedAt w (s.sources o c w l).b.toNat = some (v, r) → v.wid ≠ c.wid → v.lanes.length = 32 → r.lanes.Nodup →
      (∀ k ∈ r.lanes, k < 32) → s.warp? v.wid = some v → ∃ t, exec (mk o) s = .next t ∧
        (∀ b, o.d = .reg b → t.regAt c.wid l b = 0) ∧ SameFlags s t ∧
        (∀ u k n, ¬ (u = c.wid ∧ k = l ∧ inDst o.d 1 n = true) → t.regAt u k n = s.regAt u k n) ∧
        (∀ a, Cells.get t.dram a = Cells.get s.dram a) ∧ (∀ a, Cells.get t.hostMem a = Cells.get s.hostMem a) ∧
        (∀ b a, t.sharedAt b a = s.sharedAt b a ∧ t.weightAt b a = s.weightAt b a) ∧
        (mk o = .hdlResume o → ∀ k ∈ r.lanes, (t.laneAt v.wid k).st = .runnable ∧ (t.laneAt v.wid k).half = r.half ∧
          (t.laneAt v.wid k).repc = r.repc ∧
          (t.laneAt v.wid k).pc = if r.trap = 0x3E ∨ r.trap = 0x3F then r.pc + s.fBytesAt v r.pc else r.pc) ∧
        (mk o = .hdlKill o → ∀ k ∈ r.lanes, (t.laneAt v.wid k).st = .ended) ∧
        (mk o = .hdlEsc o → (∀ x, s.ctx? w.ctx = some x → x.escalated = none) →
          (t.ctx? w.ctx).bind (·.escalated) = some (v.wid, r.seq)))

/-- With an active lane and a descriptor that passes its check and meets no owned line, every issue of bcp and wb.load
answers a next state: one that Table 13.4 rejects gives 0 and its reason; one whose ranges pass, while a slot of the
core is free, gives a handle of the next sequence number and the lowest free slot with 0, and the copy stands in
that slot with the descriptor's bytes, owning or waiting for the lines of a destination on its die; an empty copy
without a completion word, outside a DET launch, is complete at once; one whose ranges fail parks the active lanes
with the lowest trap. While no slot is free the lanes stand at the instruction as before, whatever the descriptor.
Nothing else changes. (R279, R280, R285, R286, R287, R290, R319, R236) -/
def Obligations.CopyInstructionResults : Prop :=
  ∀ mk weights, (mk, weights) ∈ [(Instr.bcp, false), (Instr.wbLoad, true)] → ∀ s o c w, Issuing s (mk o) c w →
    let p := activeLanes s (mk o) c w
    let off := (s.electedB (mk o) c w).toNat
    let d := s.bytesAt (w.space w.ownsShared) (s.spaceAddr w w.ownsShared off) 64
    let units (m : State) : State :=
      { m.modCore w.die w.core (fun x => { x with copySeq := [] }) with ops := [], nextId := 0, owned := [] }
    (s.freeCopySlot w.die w.core = none → ∃ t, exec (mk o) s = .next t ∧ HeldBack s t (mk o) c) ∧
    (p ≠ [] → s.checkAccess w w.ownsShared off 64 64 = 0 → s.ownedLines w w.ownsShared off 64 = [] →
    s.freeCopySlot w.die w.core ≠ none →
    (copyReason w d weights ≠ 0 → ∃ t, exec (mk o) s = .next t ∧
      Writes s t (mk o) c w 2 (fun _ ws fl => fl = 0 ∧ ws = [0, BitVec.ofNat 32 (copyReason w d weights)])) ∧
    (copyReason w d weights = 0 → ∀ x, firstLowest (s.copyTraps w d weights) = some x → ∃ t, exec (mk o) s = .next t ∧
      Parks s t w p x.1 c.pc c.half x.2 0) ∧
    (copyReason w d weights = 0 → s.copyTraps w d weights = [] → ∀ k, s.freeCopySlot w.die w.core = some k →
      let seq := nextSeq ((s.core w.die w.core).copySeq.get k)
      (cpTotal d ≠ 0 → ∃ t xs x y, exec (mk o) s = .next t ∧ t.took (mk o) c.wid p (fun _ => [BitVec.ofNat 32 (seq.toNat * 64 + k), 0]) ∧
        t.ops = xs ++ [x] ∧ xs.map EngineOp.bare = s.ops.map EngineOp.bare ∧ x.kind = .copy y ∧ x.wid = c.wid ∧ x.die = w.die ∧ x.core = w.core ∧ x.ctx = w.ctx ∧
        x.colour = o.col ∧ x.complete = false ∧ x.fault = none ∧ y.desc = d ∧ y.weights = weights ∧ y.slot = k ∧ y.seq = seq.toNat ∧
        ((dirSides (cpDir d)).2 ≠ .other → ∀ key ∈ y.lines x, t.isOwned key = true) ∧
        Frame s t c p (inDst o.d 2) nowhere Warp.still units) ∧
      (cpTotal d = 0 → cpCw d = false → s.isDet w = false → (∀ x ∈ s.ops, x.oid < s.nextId) → ∃ t, exec (mk o) s = .next t ∧
        t.took (mk o) c.wid p (fun _ => [BitVec.ofNat 32 (seq.toNat * 64 + k), 0]) ∧ t.ops = s.ops ∧
        Frame s t c p (inDst o.d 2) nowhere Warp.still units)))

/-- Every issue of bcp.wait, fence.c, mm.wait, bar.wait, task.wait and bbar.wait, with no faulted or unfolded operation
of the warp where it waits for operations and with accesses that pass and meet no owned line where it reads memory,
goes on with status 0 in the lanes whose copy, operations, ticket, phase, task or children are done, with 1 under TO
0 in the others, and where none is done and TO is not 0 suspends the active lanes that wait for one thing in one
record. bcp.wait in the issuing warp on a copy whose fault is pending parks its lanes with that trap, its address
and the handle, and retires the copy. That task.wait reads a task control block at once, also where an engine
operation owns its line, is the model's choice (assumption log 33). (R180, R182, R241, R272, R292, R294, R295, R296,
R300, R313, R338) -/
def Obligations.StatusWaitResults : Prop :=
  let still (s : State) (_ : Operands) (c : Cur) (_ : Warp) : Prop := ∀ x ∈ s.ops, x.wid = c.wid → x.complete = false ∧ x.fault = none
  let mine (s : State) (c : Cur) (m : Nat) : List EngineOp := s.ops.filter (fun x => x.wid == c.wid && bitOf m x.colour)
  let tcb (s : State) (w : Warp) (x : Sources) : Nat := s.spaceAddr w false x.b.toNat
  let at_ (s : State) (o : Operands) (w : Warp) (x : Sources) : Nat := s.spaceAddr w (!o.modBit 0) x.b.toNat
  AwaitsStatus .bcpWait still (fun _ x => x.b) (fun s _ _ w x => (s.copyOf w.die w.core x.b.toNat).isNone)
    (fun _ _ _ _ x => .copy x.b.toNat false) ∧
  AwaitsStatus .fenceC still (fun _ x => x.b.toNat % 256) (fun s _ c _ x => (mine s c (x.b.toNat % 256)).isEmpty)
    (fun s _ c _ x => .fence ((mine s c (x.b.toNat % 256)).map (·.oid))) ∧
  AwaitsStatus .mmWait (fun _ _ _ _ => True) (fun _ x => x.b) (fun _ _ _ w x => decide ((w.matC - x.b).toNat < 2 ^ 31))
    (fun _ _ _ _ x => .ticket x.b) ∧
  AwaitsStatus .barWait (fun _ _ _ _ => True) (fun _ x => x.b)
    (fun s o _ w x => decide (((s.barrierOf w (o.mods 0 4)).gen - x.b - 1).toNat < 2 ^ 31))
    (fun _ o _ _ x => .barrier (o.mods 0 4) x.b.toNat) ∧
  AwaitsStatus .taskWait (fun s o c w => s.tcbsOk (.taskWait o) c w) (fun _ x => x.b)
    (fun s o _ w x => if o.modBit 0 then decide (s.numberAt (.spad w.die) (tcb s w x + 62) 2 = 0)
      else decide ((s.byteAt (.spad w.die) (tcb s w x + 45)).toNat / 16 = 5 ∨ (s.byteAt (.spad w.die) (tcb s w x + 45)).toNat / 16 = 6))
    (fun _ o _ _ x => .task x.b.toNat (o.modBit 0)) ∧
  AwaitsStatus .bbarWait
    (fun s o c w => (∀ x ∈ s.ops, x.wid = c.wid → x.fault = none) ∧ ∀ l ∈ activeLanes s (.bbarWait o) c w,
      s.checkAccess w (!o.modBit 0) (s.sources o c w l).b.toNat 16 16 = 0 ∧
      s.ownedLines w (!o.modBit 0) (s.sources o c w l).b.toNat 16 = [])
    (fun _ x => (x.b, x.a))
    (fun s o _ w x => decide ((BitVec.ofNat 32 (s.numberAt (w.space (!o.modBit 0)) (at_ s o w x + 4) 4) - x.a - 1).toNat < 2 ^ 31))
    (fun s o _ w x => .byteBarrier (o.modBit 0) (at_ s o w x) x.a) ∧
  (∀ s o c w, Issuing s (.bcpWait o) c w → ∀ op f h, activeLanes s (.bcpWait o) c w ≠ [] →
    (∀ l ∈ activeLanes s (.bcpWait o) c w, (s.sources o c w l).b = h) → s.copyOf w.die w.core h.toNat = some op → op.fault = some f →
    op.wid = c.wid → ∃ t, exec (.bcpWait o) s = .next t ∧
      ParkedIn t c.wid (activeLanes s (.bcpWait o) c w) f.1 c.pc c.half f.2 h.toNat ∧
      (∀ v l k, t.regAt v l k = s.regAt v l k) ∧ SameFlags s t ∧ ∀ x ∈ t.ops, x.oid ≠ op.oid)

/-- Every issue of bcp.st, mm.st, mxq.len, hng.rd, spk.rd and cmb.stat, and every issue of q.len, task.st and bbar.rd
whose accesses pass (and for bbar.rd meet no owned line), answers a next state in which each active lane takes the
state word of the copy, ticket, queue, ring, register or tile, slot, task or barrier as its table gives it; no flag
is set and nothing else changes, but that bbar.rd.sp in a DET launch folds the 16 bytes of each active lane in
ascending order. That q.len and task.st read a descriptor or a task control block at once, also where an engine
operation owns its line, is the model's choice (assumption log 33). (R297, R314, R318, R324, R339, R344, R347, R362,
R351, R407, R294, R394) -/
def Obligations.UnitStateReads : Prop :=
  let word (n : Nat) : Word := BitVec.ofNat 32 n
  let one (v : State → Operands → Cur → Warp → Sources → Word) (s : State) (o : Operands) (c : Cur) (w : Warp) (l : Nat)
    (ws : List Word) (fl : BitVec 6) : Prop := fl = 0 ∧ ws = [v s o c w (s.sources o c w l)]
  let elected (v : State → Operands → Warp → Word → Word) (mk : Operands → Instr) (s : State) (o : Operands) (c : Cur) (w : Warp)
    (_ : Nat) (ws : List Word) (fl : BitVec 6) : Prop := fl = 0 ∧ ws = [v s o w (s.electedB (mk o) c w)]
  let spad (s : State) (w : Warp) (x : Sources) (k n : Nat) : Nat := s.numberAt (.spad w.die) (s.spaceAddr w false x.b.toNat + k) n
  Gives .bcpSt (fun _ => 1) (one (fun s _ _ w x => match (s.copyOf w.die w.core x.b.toNat).map (·.fault) with
    | none => 0
    | some none => 1
    | some (some f) => word (2 + 2 ^ 8 * f.1))) ∧
  Gives .mmSt (fun _ => 1) (one (fun s _ _ w x =>
    if (w.matC - x.b).toNat < 2 ^ 31 then 0
    else if 2 ^ 31 ≤ (w.matL - x.b).toNat then 3
    else if (s.matrixOps w.die w.core).any (fun y => y.1.wid == w.wid && y.2.ticket == x.b && y.2.started) then 2 else 1)) ∧
  Gives .mxqLen (fun _ => 1) (one (fun s o _ w _ =>
    word ((s.mxqOf w (o.mods 0 2)).entries.length + 2 ^ 8 * (s.mxqOf w (o.mods 0 2)).reserved))) ∧
  GivesWhen .qLen (fun s o c w => s.tcbsOk (.qLen o) c w) (fun _ => 1) (one (fun s _ _ w x => word (spad s w x 20 4) - word (spad s w x 16 4))) ∧
  GivesWhen .taskSt (fun s o c w => s.tcbsOk (.taskSt o) c w) (fun _ => 1) (one (fun s _ _ w x =>
    word (spad s w x 45 1 / 16 + 16 * (spad s w x 45 1 % 16) + 2 ^ 16 * spad s w x 62 2))) ∧
  Gives .hngRd (fun _ => 1) (one (fun s o _ w _ =>
    let r := s.ringOf w (o.mods 0 3)
    word (r.phase.toNat + 2 ^ 16 * r.nslot + 2 ^ 24 * r.link))) ∧
  Gives .spkRd (fun _ => 1) (one (fun s o _ w x =>
    let r := (s.die w.die).render
    let n := x.b.toNat
    if o.mods 0 2 = 0 then r.reg (n % 32)
    else if r.tw * r.th ≤ n then 0
    else if o.mods 0 2 = 1 then r.map.get n
    else if o.mods 0 2 = 2 then word (r.age n)
    else word (min ((r.pass.get n).toNat - r.vt) (2 ^ 32 - 1)))) ∧
  Gives .cmbStat (fun _ => 1) (elected (fun s o w b =>
    if o.mods 0 2 = 0 then
      (match s.liveSlot w.ctx b.toNat with
       | some (d, x) => if d = w.die then word (x.sub * 2 ^ 24 + x.arr * 2 ^ 16 + x.late * 2 ^ 8 + x.state.code) else 0
       | none => 0)
    else if o.mods 0 2 = 1 then (s.die w.die).cmbDrop
    else word (s.slotsFree w.die)) .cmbStat) ∧
  ∀ s o c w, Issuing s (.bbarRd o) c w →
    let off (l : Nat) : Nat := (s.sources o c w l).b.toNat
    (∀ l ∈ activeLanes s (.bbarRd o) c w, s.checkAccess w (!o.modBit 0) (off l) 16 16 = 0 ∧
      s.ownedLines w (!o.modBit 0) (off l) 16 = []) →
    ∃ u, exec (.bbarRd o) s = .next (if o.modBit 0 then (activeLanes s (.bbarRd o) c w).foldl (fun t l =>
        t.foldStore c.wid (off l) (s.bytesAt (.spad w.die) (s.spaceAddr w false (off l)) 16)) u else u) ∧
      Writes s u (.bbarRd o) c w 3 (fun l ws fl => fl = 0 ∧
      let a := s.spaceAddr w (!o.modBit 0) (off l)
      ws = [word (s.numberAt (w.space (!o.modBit 0)) a 4), word (s.numberAt (w.space (!o.modBit 0)) (a + 4) 4),
        word (s.numberAt (w.space (!o.modBit 0)) (a + 8) 4 % 64)])

/-- Where every active lane's byte barrier passes its check, meets no owned line and lies in no save image, every issue
of bbar.init and bbar.add answers a next state in which, lanes in ascending order, each active lane takes the GEN
its barrier held before the lane, and the barrier's REM, GEN and FLT are initialised, or added to with GEN one
higher where an addition of a nonzero amount makes REM 0. Where the block has the barrier, every issue of bar.arv
answers one in which each active lane takes the phase of its arrival, in ascending order, and the barrier is as
those arrivals leave it: opened with the first arrival's count, completed by the last; bar.sync likewise gives 0 and
the phase where every arrived phase completes, 1 and the phase under TO 0 in lanes whose phase does not, and
suspends the active lanes in one record where none completes and a record finds room. (R178, R179, R180, R181, R182,
R294, R289) -/
def Obligations.BarrierArrivals : Prop :=
  let word (n : Nat) : Word := BitVec.ofNat 32 n
  (∀ mk ∈ [Instr.bbarInit, Instr.bbarAdd], ∀ s o c w, Issuing s (mk o) c w →
    let p := activeLanes s (mk o) c w
    let sh := !o.modBit 0
    let sp := w.space sh
    let off (l : Nat) : Nat := (s.sources o c w l).b.toNat
    let addr (l : Nat) : Nat := s.spaceAddr w sh (off l)
    (∀ l ∈ p, s.checkAccess w sh (off l) 16 16 = 0 ∧ s.ownedLines w sh (off l) 16 = [] ∧ s.inImage sp (addr l) 16 = false) →
    let at_ (l : Nat) : Word × Word × Word :=
      (word (s.numberAt sp (addr l) 4), word (s.numberAt sp (addr l + 4) 4), word (s.numberAt sp (addr l + 8) 4))
    let step (x : Word × Word × Word) (a : Word) : Word × Word × Word :=
      if mk o = .bbarInit o then (a, x.2.1, 0)
      else (x.1 + a, if x.1 + a = 0 ∧ a ≠ 0 then x.2.1 + 1 else x.2.1, x.2.2)
    let after (l : Nat) (ls : List Nat) : Word × Word × Word :=
      ((ls.filter (fun m => off m == off l)).map (fun m => (s.sources o c w m).a)).foldl step (at_ l)
    ∃ t, exec (mk o) s = .next t ∧ t.took (mk o) c.wid p (fun l => [(after l (p.filter (· < l))).2.1]) ∧
      (∀ l ∈ p, (word (t.numberAt sp (addr l) 4), word (t.numberAt sp (addr l + 4) 4), word (t.numberAt sp (addr l + 8) 4)) = after l p) ∧
      IssueCounts s t c.wid 0 ∧ Touches s t c p (inDst o.d 1) (fun x a => x = sp ∧ ∃ l ∈ p, addr l ≤ a ∧ a < addr l + 12)) ∧
  (let arrive (live : Nat) (x : Barrier × List Word) (b : Word) : Barrier × List Word :=
      let y := if x.1.opened then x.1 else { x.1 with opened := true, exp := BitVec.ofNat 11 (min b.toNat 1024) }
      let full := if y.exp = 0 then (y.cnt + 1).toNat = live else y.cnt + 1 = y.exp
      (if full then { y with gen := y.gen + 1, cnt := 0, opened := false } else { y with cnt := y.cnt + 1 }, x.2 ++ [y.gen])
    let all (s : State) (i : Instr) (c : Cur) (w : Warp) : Barrier × List Word :=
      ((activeLanes s i c w).map (fun l => (s.sources i.operands c w l).b)).foldl
        (arrive (s.blockLanes (w.block.getD 0))) (s.barrierOf w (i.operands.mods 0 4), [])
    let has (s : State) (o : Operands) (w : Warp) : Prop := ∃ b, s.blockOf w = some b ∧ o.mods 0 4 < b.barriers.length
    let bars (m : State) : State := { m with blocks := m.blocks.map (fun b => { b with barriers := [] }) }
    let tok (s : State) (i : Instr) (c : Cur) (w : Warp) (l : Nat) : Word :=
      (all s i c w).2.getD ((activeLanes s i c w).idxOf l) 0
    let passed (s : State) (i : Instr) (c : Cur) (w : Warp) (l : Nat) : Bool :=
      decide (((all s i c w).1.gen - tok s i c w l - 1).toNat < 2 ^ 31)
    (∀ s o c w, Issuing s (.barArv o) c w → has s o w → ∃ t, exec (.barArv o) s = .next t ∧
      t.took (.barArv o) c.wid (activeLanes s (.barArv o) c w) (fun l => [tok s (.barArv o) c w l]) ∧
      t.barrierOf w (o.mods 0 4) = (all s (.barArv o) c w).1 ∧
      Frame s t c (activeLanes s (.barArv o) c w) (inDst o.d 1) nowhere Warp.still bars) ∧
    (∀ s o c w, Issuing s (.barSync o) c w → has s o w →
      let i := Instr.barSync o
      let p := activeLanes s i c w
      ((∀ l ∈ p, passed s i c w l = true ∨ o.tmo = 0) → ∃ t, exec i s = .next t ∧
        t.took i c.wid p (fun l => [if passed s i c w l then 0 else 1, tok s i c w l]) ∧
        t.barrierOf w (o.mods 0 4) = (all s i c w).1 ∧ Frame s t c p (inDst o.d 2) nowhere Warp.still bars) ∧
      ((∀ l ∈ p, passed s i c w l = false) → o.tmo ≠ 0 → p ≠ [] → s.hasRoom w o.ls → ∃ t results, exec i s = .next t ∧
        SuspendFrame s t c.wid p nowhere Warp.recordless bars ∧
        SuspendedIn s t o.ls c.wid p (.barrier (o.mods 0 4) (tok s i c w (p.getLastD 0)).toNat) false results ∧
        (∀ l ∈ p, ∀ b, o.d = .reg b → ({ lane := l, reg := b + 1, val := tok s i c w l } : RegWrite) ∈ results) ∧
        t.barrierOf w (o.mods 0 4) = (all s i c w).1)))

/-- With an active lane and a block of parameters that passes its check and meets no owned line, every issue of mm.go
answers a next state: one that Table 14.5 traps parks the active lanes with that trap; one that finds no room in its
queue leaves the lanes at the instruction as before, as every one does while the engine holds four operations;
another gives the warp's next ticket, the operation stands behind the others with the block's bytes and that ticket,
and a drained operation reserves its rows in its queue. wb.clr of a range in the allocation, aligned to 128, starts
an operation that owns or waits for the range's lines. mxq.pop gives the lanes the oldest entry and 0, or 4 from an
empty queue under TO 0, or suspends them in one record. mxq.rst empties a queue without reserved entries, records
that wait on it become ready with status 3, and one with reserved entries leaves the lanes at the instruction.
Nothing else changes. (R299, R300, R309, R310, R315, R316, R317, R318, R320, R225) -/
def Obligations.MatrixUnitResults : Prop :=
  (∀ s o c w, Issuing s (.mmGo o) c w →
    let p := activeLanes s (.mmGo o) c w
    let off := (s.electedB (.mmGo o) c w).toNat
    let pb := s.bytesAt (w.space true) off 64
    let trap := mmTrap pb w.footprint (s.sharedLimit w) (s.weightLimit w) (((s.blockOf w).map (·.holdsMxq)).getD false) off
    (s.mmFull w = true → ∃ t, exec (.mmGo o) s = .next t ∧ HeldBack s t (.mmGo o) c) ∧
    (s.mmFull w = false → p ≠ [] → s.checkAccess w true off 64 64 = 0 → s.ownedLines w true off 64 = [] →
    (trap.1 ≠ 0 → ∃ t, exec (.mmGo o) s = .next t ∧ Parks s t w p trap.1 c.pc c.half trap.2 0) ∧
    (trap.1 = 0 → s.mmBusy w pb = true → ∃ t, exec (.mmGo o) s = .next t ∧ HeldBack s t (.mmGo o) c) ∧
    (trap.1 = 0 → s.mmBusy w pb = false → ∃ t x m y, exec (.mmGo o) s = .next t ∧
      t.took (.mmGo o) c.wid p (fun _ => [w.matL + 1]) ∧ t.ops = s.ops ++ [x] ∧ x.kind = .matrix m ∧ x.wid = c.wid ∧ x.die = w.die ∧
      x.core = w.core ∧ x.colour = o.col ∧ x.complete = false ∧ m.params = pb ∧ m.ticket = w.matL + 1 ∧ m.started = false ∧ m.rows = 0 ∧
      t.warp? c.wid = some y ∧ y.matL = w.matL + 1 ∧
      (mmDrain pb = true → (t.mxqOf w (mmQueue pb)).reserved = (s.mxqOf w (mmQueue pb)).reserved + mmM pb) ∧
      Frame s t c p (inDst o.d 1) nowhere
        (fun v => { v with lanes := [], matL := 0, records := v.records.map (fun r => { r with exempt := [] }) })
        (fun m => { m with ops := [], nextId := 0, blocks := m.blocks.map (fun b => { b with mxqs := [] }) })))) ∧
  (∀ s o c w, Issuing s (.wbClr o) c w →
    let p := activeLanes s (.wbClr o) c w
    let off := (s.electedB (.wbClr o) c w).toNat
    let n := (s.sources o c w (p.headD 0)).a.toNat
    p ≠ [] → off % 128 = 0 → n % 128 = 0 → off + n ≤ s.weightLimit w →
    (n ≠ 0 → ∃ t xs x, exec (.wbClr o) s = .next t ∧ t.ops = xs ++ [x] ∧ xs.map EngineOp.bare = s.ops.map EngineOp.bare ∧ x.kind = .clear off n [] ∧ x.wid = c.wid ∧
      x.block = w.block ∧ x.colour = o.col ∧ x.complete = false ∧
      (∀ k, off / 128 ≤ k → k < (off + n) / 128 → t.isOwned (.weight (w.block.getD 0) k) = true) ∧
      Frame s t c [] (fun _ => false) nowhere Warp.still (fun m => { m with ops := [], nextId := 0, owned := [] })) ∧
    (n = 0 → s.isDet w = false → (∀ x ∈ s.ops, x.oid < s.nextId) → ∃ t, exec (.wbClr o) s = .next t ∧ t.ops = s.ops ∧
      Frame s t c [] (fun _ => false) nowhere Warp.still (fun m => { m with nextId := 0 }))) ∧
  (∀ s o c w, Issuing s (.mxqPop o) c w →
    let p := activeLanes s (.mxqPop o) c w
    let q := s.mxqOf w (o.mods 0 2)
    let third (k : Nat) : Bool := match o.d with
      | .reg b => k == b + 2
      | _ => false
    p ≠ [] →
    (∀ x xs, q.entries = x :: xs → ∃ t, exec (.mxqPop o) s = .next t ∧
      t.took (.mxqPop o) c.wid p (fun l => [x.getD (2 * l) 0, x.getD (2 * l + 1) 0, 0]) ∧
      t.mxqOf w (o.mods 0 2) = { q with entries := xs } ∧
      Frame s t c p (inDst o.d 3) nowhere Warp.still (fun m => { m with blocks := m.blocks.map (fun b => { b with mxqs := [] }) })) ∧
    (q.entries = [] → o.tmo = 0 → ∃ t, exec (.mxqPop o) s = .next t ∧
      (∀ l ∈ p, ∀ b, o.d = .reg b → t.regAt c.wid l (b + 2) = 4) ∧ RegistersOnly s t c.wid p third ∧ SameFlags s t ∧ Moved s t c) ∧
    (q.entries = [] → o.tmo ≠ 0 → s.hasRoom w o.ls → ∃ t, exec (.mxqPop o) s = .next t ∧
      SuspendedIn s t o.ls c.wid p (.mxq (o.mods 0 2)) false [] ∧ SuspendFrame s t c.wid p nowhere Warp.recordless id)) ∧
  (∀ s o c w, Issuing s (.mxqRst o) c w → activeLanes s (.mxqRst o) c w ≠ [] →
    (0 < (s.mxqOf w (o.mods 0 2)).reserved → ∃ t, exec (.mxqRst o) s = .next t ∧ HeldBack s t (.mxqRst o) c) ∧
    ((s.mxqOf w (o.mods 0 2)).reserved = 0 → ∃ t, exec (.mxqRst o) s = .next t ∧ (t.mxqOf w (o.mods 0 2)).entries = [] ∧
      Frame s t c [] (fun _ => false) s.recordBytes
        (fun v => { v with lanes := [], records := v.records.map Record.unready })
        (fun m => { m with blocks := m.blocks.map (fun b => { b with mxqs := [] }) }) ∧
      ∀ v ∈ s.warps, ∀ r ∈ v.records, w.block.isSome → v.block = w.block → r.state = .waiting → r.wait = .mxq (o.mods 0 2) →
        ∃ x ∈ t.warps, x.wid = v.wid ∧ ∃ y ∈ x.records, y.seq = r.seq ∧ y.state = .ready ∧
          (r.sdst < 640 → ∀ l ∈ r.lanes, ({ lane := l, reg := r.sdst, val := 3 } : RegWrite) ∈ y.results)))

/-- Where every active lane's control block passes R324, lies in no save image and apart from the core's deque, and the
deque has room for the active lanes: every issue of spawn at a depth below 8, its blocks distinct and other than the
warp's own, answers a next state in which each active lane takes R330's result, a spawned block is ready or armed
with the warp's TCB, tag and depth, the own block counts its children, and the ready ones are pushed in lane order
(the tag is that of the launch the warp belongs to); every issue of dep.arm and dep.dec one in which each active
lane takes the DEP its change leaves, changes of one block in lane order, an armed block that goes from a nonzero
DEP to 0 is released, and the released blocks of running launches are pushed, the places of all that the core
released in the cycle and that still stand in its deque taking them in ascending offset (assumption log 32); every
issue of dq.push one in which a claimed block is made ready and pushed, once, with 0, and any other lane takes 2. A
spawned block keeps its other fields, FOOT, CWOFF and CWVAL among them. TAIL counts the pushes, and nothing else
changes but the bytes of those blocks and of the deque, the context's counts of live tasks on the die and the core's
note of its releases. Where no lane meets a trap of its own, each of the four without room for its active lanes
parks them with trap 0x21, and spawn with room at depth 8 or more with 0x22, and nothing else changes. That blocks
and deques are read and written at once, also where an engine operation owns their lines, is the model's choice
(assumption log 33), and so is the order among the releases of a cycle (assumption log 32). (R324, R325, R326, R330,
R331, R332, R336, R340) -/
def Obligations.SpawnAndDependencies : Prop :=
  let word (n : Nat) : Word := BitVec.ofNat 32 n
  let tcb (s : State) (o : Operands) (c : Cur) (w : Warp) (l : Nat) : Nat := s.spaceAddr w false (s.sources o c w l).b.toNat
  let f (s : State) (w : Warp) (a k n : Nat) : Nat := s.numberAt (.spad w.die) (a + k) n
  let apart (s : State) (w : Warp) (a : Nat) : Prop :=
    let q := s.deque w w.core
    (a + 64 ≤ q.1 ∨ q.1 + 64 + 4 * q.2 ≤ a) ∧ s.inImage (.spad w.die) a 64 = false
  let ready (s : State) (i : Instr) (c : Cur) (w : Warp) : Prop :=
    let q := s.deque w w.core
    s.tcbsOk i c w ∧ s.dqRoom w w.core (activeLanes s i c w).length = true ∧ s.inImage (.spad w.die) q.1 (64 + 4 * q.2) = false ∧
      ∀ l ∈ activeLanes s i c w, apart s w (tcb s i.operands c w l)
  let next (s : State) (w : Warp) (n : Nat) : List Nat :=
    (List.range n).map (fun k => (f s w (s.deque w w.core).1 4 4 + k) % 2 ^ 32)
  let pushes (s t : State) (w : Warp) (n : Nat) (all : List (Nat × Nat)) : Prop :=
    let q := s.deque w w.core
    word (f t w q.1 4 4) = word (f s w q.1 4 4 + n) ∧ f t w q.1 0 4 = f s w q.1 0 4 ∧
      (all.Pairwise (fun x y => x.1 % q.2 ≠ y.1 % q.2) → ∀ x ∈ all, word (f t w (q.1 + 64 + 4 * (x.1 % q.2)) 0 4) = word x.2)
  let inDeque (s : State) (w : Warp) (x : Nat) : Prop :=
    let q := s.deque w w.core
    (q.1 + 4 ≤ x ∧ x < q.1 + 8) ∨ (q.1 + 64 ≤ x ∧ x < q.1 + 64 + 4 * q.2)
  let only (s t : State) (i : Instr) (c : Cur) (w : Warp) (A : Nat → Prop) : Prop :=
    let p := activeLanes s i c w
    Frame s t c p (inDst i.operands.d 1) (fun sp x => sp = .spad w.die ∧ (inDeque s w x ∨ A x ∨
        ∃ l ∈ p, tcb s i.operands c w l ≤ x ∧ x < tcb s i.operands c w l + 64)) Warp.bare
      (fun m => m.besideTasks w w.core)
  (∀ s o c w, Issuing s (.spawn o) c w → ready s (.spawn o) c w → w.depth < 8 →
    let p := activeLanes s (.spawn o) c w
    let b (l : Nat) : Nat := (s.sources o c w l).b.toNat
    let a := tcb s o c w
    let own := s.spaceAddr w false w.tcb.toNat
    let full := w.kind = .task ∧ f s w own 62 2 = 65535
    p.Pairwise (fun l m => b l ≠ b m) →
    (w.kind = .task → s.tcbOk w w.tcb.toNat ∧ apart s w own ∧ (∀ l ∈ p, b l ≠ w.tcb.toNat) ∧ (¬ full → f s w own 62 2 + p.length ≤ 65535)) →
    let d (l : Nat) : Nat :=
      if 1 ≤ f s w (a l) 45 1 / 16 ∧ f s w (a l) 45 1 / 16 ≤ 4 then 2
      else if f s w (a l) 46 2 % 32 = 0 ∨ 20 < f s w (a l) 46 2 % 32 ∨ 1024 < f s w (a l) 46 2 / 32 ∨ f s w (a l) 0 4 % 8 ≠ 0 then 3
      else if full then 4
      else if (word (f s w (a l) 36 4)).toInt ≤ 0 then 0 else 1
    (∀ l ∈ p, d l ≤ 1 → s.spawnRange w (b l) = none) →
    ∃ t, exec (.spawn o) s = .next t ∧ t.took (.spawn o) c.wid p (fun l => [word (d l)]) ∧
      (∀ l ∈ p, d l ≤ 1 → f t w (a l) 45 1 = w.depth + 1 + 16 * (if d l = 0 then 2 else 1) ∧ f t w (a l) 48 4 = w.tcb.toNat ∧
        f t w (a l) 60 2 = w.tag % 2 ^ 16 ∧ f t w (a l) 62 2 = 0 ∧ f t w (a l) 0 45 = f s w (a l) 0 45 ∧
        f t w (a l) 46 2 = f s w (a l) 46 2 ∧ f t w (a l) 52 8 = f s w (a l) 52 8) ∧
      (∀ l ∈ p, 1 < d l → f t w (a l) 0 64 = f s w (a l) 0 64) ∧
      (w.kind = .task → f t w own 62 2 = f s w own 62 2 + (p.filter (fun l => decide (d l ≤ 1))).length) ∧
      (let ts := (p.filter (fun l => d l == 0)).map b
       pushes s t w ts.length ((next s w ts.length).zip ts)) ∧ only s t (.spawn o) c w (fun x => w.kind = .task ∧ own ≤ x ∧ x < own + 64)) ∧
  (∀ mk ∈ [Instr.depArm, Instr.depDec], ∀ s o c w, Issuing s (mk o) c w → ready s (mk o) c w →
    let p := activeLanes s (mk o) c w
    let b (l : Nat) : Nat := (s.sources o c w l).b.toNat
    let a := tcb s o c w
    let n (l : Nat) : Word := if mk o = .depArm o then (s.sources o c w l).a else 0xFFFFFFFF
    let dep (l : Nat) (ls : List Nat) : Word :=
      ((ls.filter (fun m => b m == b l)).map n).foldl (· + ·) (word (f s w (a l) 36 4))
    let hits (l : Nat) : Bool :=
      f s w (a l) 45 1 / 16 == 1 && dep l (p.filter (· < l)) != 0 && dep l (p.filter (· ≤ l)) == 0
    let runs (l : Nat) : Bool := s.tagRuns w.ctx w.die (f s w (a l) 60 2)
    let out := (p.filter (fun l => hits l && runs l && p.all (fun m => decide (l ≤ m) || b m != b l || !hits m))).map b
    ∃ t, exec (mk o) s = .next t ∧ t.took (mk o) c.wid p (fun l => [dep l (p.filter (· ≤ l))]) ∧
      (∀ l ∈ p, word (f t w (a l) 36 4) = dep l p ∧ f t w (a l) 45 1 = f s w (a l) 45 1 % 16 + 16 *
        (if p.any (fun m => b m == b l && hits m) then (if runs l then 2 else 6) else f s w (a l) 45 1 / 16)) ∧
      (let old := if out = [] then [] else s.releasedNow w w.core
       let all := (old.map (·.1) ++ next s w out.length).zip (sortBy (fun x y => decide (x < y)) (old.map (·.2) ++ out))
       pushes s t w out.length all ∧ (out ≠ [] → w.core < (s.die w.die).cores.length → t.releasedNow w w.core = all)) ∧ only s t (mk o) c w (fun _ => False)) ∧
  (∀ s o c w, Issuing s (.dqPush o) c w → ready s (.dqPush o) c w →
    let p := activeLanes s (.dqPush o) c w
    let b (l : Nat) : Nat := (s.sources o c w l).b.toNat
    let a := tcb s o c w
    let goes (l : Nat) : Bool := f s w (a l) 45 1 / 16 == 4 && p.all (fun m => decide (l ≤ m) || b m != b l)
    ∃ t, exec (.dqPush o) s = .next t ∧ t.took (.dqPush o) c.wid p (fun l => [if goes l then 0 else 2]) ∧
      (∀ l ∈ p, goes l = true → f t w (a l) 45 1 = f s w (a l) 45 1 % 16 + 32) ∧
      (let ts := (p.filter goes).map b
       pushes s t w ts.length ((next s w ts.length).zip ts)) ∧ only s t (.dqPush o) c w (fun _ => False)) ∧
  (∀ mk ∈ [Instr.spawn, Instr.depArm, Instr.depDec, Instr.dqPush], ∀ s o c w, Issuing s (mk o) c w →
    let p := activeLanes s (mk o) c w
    p ≠ [] → s.tcbsOk (mk o) c w → (mk o = .spawn o → ∀ l ∈ p, s.spawnRange w (s.sources o c w l).b.toNat = none) →
    (s.dqRoom w w.core p.length = false → ∃ t, exec (mk o) s = .next t ∧ Parks s t w p 0x21 c.pc c.half 0 0) ∧
    (s.dqRoom w w.core p.length = true → mk o = .spawn o → 8 ≤ w.depth → ∃ t, exec (mk o) s = .next t ∧
      Parks s t w p 0x22 c.pc c.half 0 0))

/-- Every issue of dq.pop, and of dq.steal whose active lanes name one core, where the entries taken name blocks that
fail R324 or lie apart from the deque and in no save image, answers a next state in which the active lanes take the
entries from the owner end, or from the thief end, in lane order with 0, their blocks are claimed, lanes beyond the
entries take 0xFFFFFFFF and 4, and TAIL is lower, or HEAD higher, by the entries taken; nothing else changes but the
context's counts of live tasks on the die and the note of what that deque's core released in the cycle. That deques
and blocks are read and written at once, also where an engine operation owns their lines, is the model's choice
(assumption log 33). Every issue of task.done with room in the deque, without operations of the warp: where all
active lanes name the warp's own TCB they end, and a task warp whose last lanes they are leaves the machine; where
one lane names another block it takes 0 when that block is claimed and 2 otherwise. With operations open it gives 1
under TO 0 and suspends the lanes in one record otherwise, where one finds room. (R326, R333, R334, R340, R34, R272) -/
def Obligations.ClaimsAndFinishes : Prop :=
  let word (n : Nat) : Word := BitVec.ofNat 32 n
  let f (s : State) (w : Warp) (a k n : Nat) : Nat := s.numberAt (.spad w.die) (a + k) n
  (∀ mk owner, (mk, owner) ∈ [(Instr.dqPop, true), (Instr.dqSteal, false)] → ∀ s o c w, Issuing s (mk o) c w → ∀ core,
    let p := activeLanes s (mk o) c w
    (owner = true → core = w.core) → (owner = false → ∀ l ∈ p, (s.sources o c w l).b.toNat % 32 = core) →
    let q := s.deque w core
    let head := word (f s w q.1 0 4)
    let tail := word (f s w q.1 4 4)
    let n := if q.2 = 0 then 0 else min p.length (tail - head).toNat
    let entry (k : Nat) : Nat := f s w (q.1 + 64 + 4 * ((if owner then tail - 1 - word k else head + word k).toNat % q.2)) 0 4
    s.inImage (.spad w.die) q.1 (64 + 4 * q.2) = false →
    (∀ k < n, s.tcbOk w (entry k) → let a := s.spaceAddr w false (entry k)
      (a + 64 ≤ q.1 ∨ q.1 + 64 + 4 * q.2 ≤ a) ∧ s.inImage (.spad w.die) a 64 = false) →
    ∃ t, exec (mk o) s = .next t ∧
      t.took (mk o) c.wid p (fun l => if p.idxOf l < n then [word (entry (p.idxOf l)), 0] else [0xFFFFFFFF, 4]) ∧
      (q.2 ≠ 0 → word (f t w q.1 4 4) = (if owner then tail - word n else tail) ∧ word (f t w q.1 0 4) = (if owner then head else head + word n)) ∧
      (∀ k < n, s.tcbOk w (entry k) → f t w (s.spaceAddr w false (entry k)) 45 1 = f s w (s.spaceAddr w false (entry k)) 45 1 % 16 + 64) ∧
      Frame s t c p (inDst o.d 2) (fun sp x => sp = .spad w.die ∧ ((q.1 ≤ x ∧ x < q.1 + 8) ∨
        ∃ k < n, s.tcbOk w (entry k) ∧ s.spaceAddr w false (entry k) ≤ x ∧ x < s.spaceAddr w false (entry k) + 64)) Warp.bare
        (fun m => m.besideTasks w core)) ∧
  (∀ s o c w, Issuing s (.taskDone o) c w →
    let p := activeLanes s (.taskDone o) c w
    let b (l : Nat) : Nat := (s.sources o c w l).b.toNat
    let nsucc (x : Nat) : Nat := f s w (s.spaceAddr w false x) 44 1
    let free := ∀ x ∈ s.ops, x.wid ≠ c.wid
    p ≠ [] →
    ((∀ l ∈ p, (s.sources o c w l).b = w.tcb) → free →
      (w.kind = .task → (∀ l ∈ w.liveLanes, l ∈ p) → s.dqRoom w w.core (nsucc w.tcb.toNat) = true →
        ∃ t, exec (.taskDone o) s = .next t ∧ t.warp? c.wid = none) ∧
      (s.dqRoom w w.core 0 = true → (w.kind = .task → ∃ l ∈ w.liveLanes, l ∉ p) →
        ∃ t, exec (.taskDone o) s = .next t ∧ (∀ l ∈ p, (t.laneAt c.wid l).st = .ended) ∧
          (∀ v l k, t.regAt v l k = s.regAt v l k) ∧ SameFlags s t)) ∧
    (∀ l, p = [l] → (s.sources o c w l).b ≠ w.tcb → s.tcbOk w (b l) → s.dqRoom w w.core (nsucc (b l)) = true →
      (free → ∃ t, exec (.taskDone o) s = .next t ∧
        t.took (.taskDone o) c.wid p (fun _ => [if f s w (s.spaceAddr w false (b l)) 45 1 / 16 = 4 then 0 else 2]) ∧
        LanesKept s t c.wid p (inDst o.d 1) ∧ Moved s t c) ∧
      ((∀ x ∈ s.ops, x.wid = c.wid → x.fault = none) → (∃ x ∈ s.ops, x.wid = c.wid ∧ x.complete = false) →
        (o.tmo = 0 → ∃ t, exec (.taskDone o) s = .next t ∧ Writes s t (.taskDone o) c w 1 (fun _ ws fl => fl = 0 ∧ ws = [1])) ∧
        (o.tmo ≠ 0 → s.hasRoom w o.ls → ∃ t, exec (.taskDone o) s = .next t ∧
          SuspendFrame s t c.wid p (bytesFrom (.spad w.die) ((s.deque w w.core).1 + 8) 4) Warp.recordless id ∧ SuspendedIn s t o.ls c.wid p
          (.taskDone ((s.ops.filter (fun x => x.wid == c.wid)).map (·.oid)) (nsucc (b l))) false []))))

/-- With an active lane and a descriptor that passes R324, is well formed and has entries of n words, apart from its
entries and in no save image: every issue of q.push where the entries fit and no push waits answers a next state in
which entry TAIL + k holds the words of the k-th active lane, TAIL is higher by their number modulo 2^32, each entry
bears the warp and its ISS as its stamp, and each takes 0; of q.pop where the entries are there, passed and not
waited for, one in which the active lanes take the oldest entries in lane order and 0 and HEAD is higher by their
number; either one gives 2, or 4 after the words, where the active lanes exceed the capacity or TO is 0 while it
cannot go on, and otherwise suspends them in one record. q.init zeroes HEAD and TAIL of well-formed descriptors
nothing waits on and gives 0, or 1. Where the block has the ring, hng.init sets it up and gives 0, or 1 for bad
operands; hng.take gives 0 at its phase, 2 without a ring, 1 under TO 0, or suspends; hng.give inverts the slot's
phase and gives it, or 2, and the takes that wait for that phase become ready with 0. That queues are read and
written at once, also where an engine operation owns their lines, is the model's choice (assumption log 33). (R341,
R342, R343, R344, R345, R346, R347, R244, R324) -/
def Obligations.QueueAndRingResults : Prop :=
  let word (n : Nat) : Word := BitVec.ofNat 32 n
  let f (s : State) (w : Warp) (a k n : Nat) : Nat := s.numberAt (.spad w.die) (a + k) n
  let stamps (m : State) : State := { m with dies := m.dies.map (fun d => { d with stamps := [] }) }
  let nowait (s : State) (w : Warp) (at_ : Nat) (push : Bool) : Prop :=
    ∀ v ∈ s.warps, ∀ r ∈ v.records, r.state = .waiting → v.die = w.die → r.wait ≠ (if push then .qPush at_ else .qPop at_)
  (∀ mk push, (mk, push) ∈ [(Instr.qPush, true), (Instr.qPop, false)] → ∀ s o c w, Issuing s (mk o) c w →
    let p := activeLanes s (mk o) c w
    let off := (s.electedB (mk o) c w).toNat
    let a := s.spaceAddr w false off
    let n := o.mods 0 4 + 1
    let q := s.queueDesc w off
    let entry (x k : Nat) : Nat := s.spaceAddr w false (f s w a 0 4 + (x + k) % 2 ^ 32 % f s w a 4 4 * f s w a 8 1)
    p ≠ [] → s.tcbOk w off → s.malformed w q = false → f s w a 8 1 = 4 * n →
    (f s w a 0 4 + f s w a 4 4 * f s w a 8 1 ≤ off ∨ off + 64 ≤ f s w a 0 4) →
    s.inImage (.spad w.die) a 64 = false → s.inImage (.spad w.die) (s.spaceAddr w false (f s w a 0 4)) (f s w a 4 4 * f s w a 8 1) = false →
    let head := f s w a 16 4
    let tail := f s w a 20 4
    let count := (word tail - word head).toNat
    let goes := p.length ≤ f s w a 4 4 ∧ nowait s w a push ∧
      (if push then count + p.length ≤ f s w a 4 4 else p.length ≤ count ∧ s.popsPassed w.die q p.length = true)
    let at_ (k : Nat) : Bool := match o.d with
      | .reg b => k == b + (if push then 0 else n)
      | _ => false
    (goes → push = true → ∃ t, exec (mk o) s = .next t ∧ t.took (mk o) c.wid p (fun _ => [0]) ∧
      word (f t w a 20 4) = word (tail + p.length) ∧
      (∀ k < p.length, ({ desc := a, index := (tail + k) % 2 ^ 32, wid := c.wid, iss := w.iss } : Stamp) ∈ (t.die w.die).stamps) ∧
      ((tail + p.length ≤ 2 ^ 32 ∨ 2 ^ 32 % f s w a 4 4 = 0) → ∀ l ∈ p, ∀ j < n, f t w (entry tail (p.idxOf l)) (4 * j) 4 = ((operandWords s w c.lanes l n false o.a).getD j 0).toNat) ∧
      Frame s t c p (inDst o.d 1) (fun sp x => sp = .spad w.die ∧ ((a + 20 ≤ x ∧ x < a + 24) ∨
        ∃ k < p.length, entry tail k ≤ x ∧ x < entry tail k + 4 * n)) Warp.bare stamps) ∧
    (goes → push = false → ∃ t, exec (mk o) s = .next t ∧
      t.took (mk o) c.wid p (fun l => (List.range n).map (fun j => word (f s w (entry head (p.idxOf l)) (4 * j) 4)) ++ [0]) ∧
      word (f t w a 16 4) = word (head + p.length) ∧
      (∀ x, x ∈ (t.die w.die).stamps ↔ x ∈ (s.die w.die).stamps ∧ (x.desc = a → p.length ≤ (word x.index - word head).toNat)) ∧
      Frame s t c p (inDst o.d (n + 1)) (bytesFrom (.spad w.die) (a + 16) 4) Warp.bare stamps) ∧
    (¬ goes → (f s w a 4 4 < p.length ∨ o.tmo = 0) → ∃ t, exec (mk o) s = .next t ∧
      (∀ l ∈ p, ∀ b, o.d = .reg b → t.regAt c.wid l (b + if push then 0 else n) = if push then 2 else 4) ∧
      RegistersOnly s t c.wid p at_ ∧ SameFlags s t ∧ Moved s t c) ∧
    (¬ goes → p.length ≤ f s w a 4 4 → o.tmo ≠ 0 → s.hasRoom w o.ls → ∃ t, exec (mk o) s = .next t ∧
      SuspendFrame s t c.wid p nowhere Warp.recordless id ∧ SuspendedIn s t o.ls c.wid p (if push then .qPush a else .qPop a) false [])) ∧
  (∀ s o c w, Issuing s (.qInit o) c w → s.tcbsOk (.qInit o) c w →
    let p := activeLanes s (.qInit o) c w
    let off (l : Nat) : Nat := (s.sources o c w l).b.toNat
    let a (l : Nat) : Nat := s.spaceAddr w false (off l)
    let bad (l : Nat) : Bool := s.malformed w (s.queueDesc w (off l))
    (∀ l ∈ p, s.inImage (.spad w.die) (a l) 64 = false ∧ nowait s w (a l) true ∧ nowait s w (a l) false) →
    ∃ t, exec (.qInit o) s = .next t ∧ t.took (.qInit o) c.wid p (fun l => [if bad l then 1 else 0]) ∧
      (∀ l ∈ p, bad l = false → f t w (a l) 16 8 = 0 ∧ ∀ x ∈ (t.die w.die).stamps, x.desc ≠ a l) ∧
      Frame s t c p (inDst o.d 1) (fun sp x => sp = .spad w.die ∧ ∃ l ∈ p, bad l = false ∧ a l + 16 ≤ x ∧ x < a l + 24) Warp.bare stamps) ∧
  (let has (s : State) (o : Operands) (w : Warp) : Prop := ∃ b, s.blockOf w = some b ∧ o.mods 0 3 < b.rings.length
    let idle (s : State) (o : Operands) (w : Warp) (f : Nat → Bool → Prop) : Prop :=
      ∀ v ∈ s.warps, ∀ r ∈ v.records, r.state = .waiting → v.block = w.block → ∀ i ph, r.wait = .ring (o.mods 0 3) i ph → ¬ f i ph
    let rings (m : State) : State := { m with blocks := m.blocks.map (fun b => { b with rings := [] }) }
    (∀ s o c w, Issuing s (.hngInit o) c w → has s o w → activeLanes s (.hngInit o) c w ≠ [] →
      let p := activeLanes s (.hngInit o) c w
      let x := s.sources o c w (p.headD 0)
      (2 ≤ x.a.toNat ∧ x.a.toNat ≤ 16 ∧ x.b.toNat ≤ 7 → idle s o w (fun _ _ => True) → ∃ t, exec (.hngInit o) s = .next t ∧
        t.took (.hngInit o) c.wid p (fun _ => [0]) ∧ t.ringOf w (o.mods 0 3) = { nslot := x.a.toNat, link := x.b.toNat, phase := 0 } ∧
        Frame s t c p (inDst o.d 1) nowhere Warp.still rings) ∧
      (¬ (2 ≤ x.a.toNat ∧ x.a.toNat ≤ 16 ∧ x.b.toNat ≤ 7) → ∃ t, exec (.hngInit o) s = .next t ∧
        Writes s t (.hngInit o) c w 1 (fun _ ws fl => fl = 0 ∧ ws = [1]))) ∧
    (∀ s o c w, Issuing s (.hngTake o) c w → activeLanes s (.hngTake o) c w ≠ [] →
      let p := activeLanes s (.hngTake o) c w
      let x := s.sources o c w (p.headD 0)
      let r := s.ringOf w (o.mods 0 3)
      let i := x.b.toNat % r.nslot
      let st : Word := if r.nslot = 0 then 2 else if r.phase.getLsbD i = x.a.getLsbD 0 then 0 else 1
      (st ≠ 1 ∨ o.tmo = 0 → ∃ t, exec (.hngTake o) s = .next t ∧ Writes s t (.hngTake o) c w 1 (fun _ ws fl => fl = 0 ∧ ws = [st])) ∧
      (st = 1 → o.tmo ≠ 0 → s.hasRoom w o.ls → ∃ t, exec (.hngTake o) s = .next t ∧
        SuspendFrame s t c.wid p nowhere Warp.recordless id ∧ SuspendedIn s t o.ls c.wid p (.ring (o.mods 0 3) i (x.a.getLsbD 0)) false [])) ∧
    (∀ s o c w, Issuing s (.hngGive o) c w → has s o w → activeLanes s (.hngGive o) c w ≠ [] →
      let p := activeLanes s (.hngGive o) c w
      let r := s.ringOf w (o.mods 0 3)
      let i := (s.electedB (.hngGive o) c w).toNat % r.nslot
      (r.nslot = 0 → ∃ t, exec (.hngGive o) s = .next t ∧ Writes s t (.hngGive o) c w 1 (fun _ ws fl => fl = 0 ∧ ws = [2])) ∧
      (r.nslot ≠ 0 → r.nslot ≤ 16 → ∃ t, exec (.hngGive o) s = .next t ∧
        t.took (.hngGive o) c.wid p (fun _ => [if r.phase.getLsbD i then 0 else 1]) ∧
        (t.ringOf w (o.mods 0 3)).nslot = r.nslot ∧ (t.ringOf w (o.mods 0 3)).link = r.link ∧
        (∀ j < 16, (t.ringOf w (o.mods 0 3)).phase.getLsbD j = if j = i then !r.phase.getLsbD i else r.phase.getLsbD j) ∧
        (idle s o w (fun j ph => j = i ∧ ph = !r.phase.getLsbD i) → Frame s t c p (inDst o.d 1) nowhere Warp.still rings) ∧
        Frame s t c p (inDst o.d 1) s.recordBytes (fun v => { v with lanes := [], records := v.records.map Record.unready }) rings ∧
        ∀ v ∈ s.warps, ∀ y ∈ v.records, y.state = .waiting → v.block = w.block → y.wait = .ring (o.mods 0 3) i (!r.phase.getLsbD i) →
          ∃ x ∈ t.warps, x.wid = v.wid ∧ ∃ z ∈ x.records, z.seq = y.seq ∧ z.state = .ready ∧
            (y.sdst < 640 → ∀ l ∈ y.lanes, ({ lane := l, reg := y.sdst, val := 0 } : RegWrite) ∈ z.results))))

/-- With an active lane, every issue of spk.prio on a register other than OWNER, or at supervisor level, answers a next
state in which the register takes the written word as Tables 16.1 and 16.2 let it and the active lanes take its old
value, OWNER and GRID restart the picker and empty the rings, a launch register takes a free tag, SOUC.EN going from
0 to 1 empties the hold slot and going to 0 keeps it, and nothing else of the rendering units changes, and at user
level on OWNER one in which the active lanes are parked with 0x05 (which lanes is the model's choice, assumption log
45); every issue of spk.map one in which, lanes in ascending order, each active lane takes its tile's entry, or 0
outside the grid, and the masked bits are written, a tile whose OFF goes from 1 to 0 taking the greater of its pass
and the virtual time, and with .rb the virtual time; samp.emit one in which each local record of a tile of the grid
whose ring can be reached stands in the ring's next slots in lane order, with 0, any other local one gives 2, and a
forwarded one is on its way; samp.gth suspends the active lanes until the gather completes, or parks them with 0x10
and the first offset of the ring that fails; row.put stores each active lane's pixel code in the slot of its open
request before the time of its scan or counts a drop; row.ack counts an acknowledgement there and gives 0, or a drop
and gives 1. Nothing else changes. That the local samp.emit writes at once, also into a line that an engine
operation owns, is the model's choice (assumption log 33), and so is the check of a ring as one range (assumption
log 45). (R348, R349, R350, R355, R360, R362, R363, R364, R366, R372, R370, R371) -/
def Obligations.RenderingResults : Prop :=
  let word (n : Nat) : Word := BitVec.ofNat 32 n
  let only (k : Nat → Bool) (s t : State) (c : Cur) (w : Warp) (p : List Nat) (g : Render → Render) : Prop :=
    Frame s t c p k nowhere Warp.still (fun m => m.modRender w.die g)
  (∀ s o c w, Issuing s (.spkPrio o) c w → activeLanes s (.spkPrio o) c w ≠ [] →
    let p := activeLanes s (.spkPrio o) c w
    let n := (s.electedB (.spkPrio o) c w).toNat % 32
    let v := (s.sources o c w (p.headD 0)).a
    let r := (s.die w.die).render
    let within (lo hi x old : Nat) : Nat := if lo ≤ x ∧ x ≤ hi then x else old
    (n = 0 → w.supervisor = false → ∃ t, exec (.spkPrio o) s = .next t ∧ Parks s t w p 0x05 c.pc c.half 0 0) ∧
    ((n ≠ 0 ∨ w.supervisor = true) → ∃ t, exec (.spkPrio o) s = .next t ∧ t.took (.spkPrio o) c.wid p (fun _ => [r.reg n]) ∧
      (∀ m < 32, m ≠ n → (t.die w.die).render.reg m = r.reg m) ∧
      (let r' := (t.die w.die).render
       match n with
       | 0x00 => r'.ownerV = v.msb ∧ r'.ownerCtx = v.toNat % 2 ^ 16
       | 0x01 => r'.rate = within 0 4096 (v.toNat % 2 ^ 13) r.rate
       | 0x02 => r'.wgt = v
       | 0x03 => r'.agesh = v.toNat / 2 ^ 8 % 16 ∧ r'.sh = v.toNat % 4
       | 0x04 => r'.lead = v.toNat % 2 ^ 16
       | 0x05 => r'.th = within 1 256 (v.toNat / 2 ^ 16 % 2 ^ 9) r.th ∧ r'.tw = within 1 256 (v.toNat % 2 ^ 9) r.tw
       | 0x06 => r'.rayl = v &&& 0xFFFFFF80
       | 0x07 => r'.prbl = v &&& 0xFFFFFF80
       | 0x08 => r'.maxw = within 1 512 (v.toNat % 2 ^ 10) r.maxw
       | 0x09 => r'.sbfb = v &&& 0xFFFFFC00
       | 0x0A => r'.axl = v.toNat % 4
       | 0x10 => r'.souEn = v.msb ∧ r'.rql = within 1 3 (v.toNat / 2 ^ 16 % 4) r.rql
       | 0x11 => r'.recl = v &&& 0xFFFFFF80
       | _ => r'.reg n = r.reg n) ∧
      (let r' := (t.die w.die).render
       let free (m : Nat) : Prop := 1 ≤ m ∧ m < 2 ^ 16 ∧ s.tagRuns r.ownerCtx w.die m = false
       r'.unwritten = (if n = 0x00 ∨ n = 0x05 then { r with
           pass := [], picked := [], count := [], vt := 0, rayPending := none, prbPending := none, restartAt := r.pt
           widx := [], fill := [] }
         else { r with hold := if n = 0x10 ∧ v.msb = true ∧ r.souEn = false then [] else r.hold }).unwritten ∧
       (∀ x ∈ [(0x06, r'.rayTag, r.rayTag), (0x07, r'.prbTag, r.prbTag), (0x11, r'.recTag, r.recTag)],
         (n ≠ x.1 → x.2.1 = x.2.2) ∧ (n = x.1 → (∃ m, free m) → free x.2.1))) ∧
      Frame s t c p (inDst o.d 1) nowhere Warp.still (fun m =>
        (m.modRender w.die (fun _ => {})).modCtx r.ownerCtx (fun x => x.modDie w.die (fun d => { d with nextTag := 0 }))))) ∧
  (∀ s o c w, Issuing s (.spkMap o) c w →
    let p := activeLanes s (.spkMap o) c w
    let r := (s.die w.die).render
    let tile (l : Nat) : Nat := (s.sources o c w l).b.toNat
    let sel (k : Nat) (m : Word) : Word := if o.mods 0 4 = 0 ∨ (o.mods 0 4).testBit k then m else 0
    let mask : Word := sel 0 0xFF ||| sel 1 0xFF00 ||| sel 2 0xFF0000 ||| sel 3 0x03000000
    let entry (t : Nat) (ls : List Nat) : Word :=
      (ls.filter (fun m => tile m == t)).foldl (fun e m => (e &&& ~~~mask) ||| ((s.sources o c w m).a &&& mask)) (r.map.get t)
    ∃ t, exec (.spkMap o) s = .next t ∧
      t.took (.spkMap o) c.wid p (fun l => [if tile l < r.tw * r.th then entry (tile l) (p.filter (· < l)) else 0]) ∧
      (∀ n, (t.die w.die).render.map.get n = if n < r.tw * r.th then entry n p else r.map.get n) ∧
      (∀ n, (∀ l ∈ p, tile l ≠ n) → (t.die w.die).render.pass.get n = r.pass.get n) ∧
      (o.modBit 4 = true → ∀ l ∈ p, tile l < r.tw * r.th → (t.die w.die).render.pass.get (tile l) = BitVec.ofNat 64 r.vt) ∧
      (o.modBit 4 = false → ∀ l ∈ p, tile l < r.tw * r.th → (∀ m ∈ p, tile m = tile l → m = l) →
        (t.die w.die).render.pass.get (tile l) = BitVec.ofNat 64
          (if (r.map.get (tile l)).getLsbD 25 = true ∧ (entry (tile l) p).getLsbD 25 = false then max (r.pass.get (tile l)).toNat r.vt
           else (r.pass.get (tile l)).toNat)) ∧
      only (inDst o.d 1) s t c w p (fun x => { x with map := [], pass := [] })) ∧
  (∀ s o c w, Issuing s (.sampEmit o) c w → o.modBit 0 = false →
    let p := activeLanes s (.sampEmit o) c w
    let r := (s.die w.die).render
    let b (l : Nat) : Nat := (s.sources o c w l).b.toNat
    let tile (l : Nat) : Nat := b l / 2 ^ 16
    let ok (l : Nat) : Bool := decide (tile l < r.tw * r.th) && (s.ringPlace w.die (tile l) w.supervisor).isSome
    let before (l : Nat) : Nat := (p.filter (fun m => decide (m < l) && tile m == tile l)).length
    let all (l : Nat) : Nat := (p.filter (fun m => tile m == tile l)).length
    let at_ (l : Nat) : Nat := (s.ringPlace w.die (tile l) w.supervisor).getD 0 + 16 * (((r.widx.get (tile l)).toNat + before l) % 64)
    let bytes (l : Nat) : List Byte := (operandWords s w c.lanes l 4 false o.a).flatMap (fun x => natToBytes 4 x.toNat)
    (∀ l ∈ p, ok l = true → s.inImage (.spad w.die) (at_ l) 16 = false) →
    ∃ t, exec (.sampEmit o) s = .next t ∧ t.took (.sampEmit o) c.wid p (fun l => [if ok l then 0 else 2]) ∧
      (∀ l ∈ p, ok l = true → (∀ j < 13, t.byteAt (.spad w.die) (at_ l + j) = (bytes l).getD j 0) ∧
        t.byteAt (.spad w.die) (at_ l + 13) = (bytes l).getD 13 0 &&& 0xF2 ∧ t.numberAt (.spad w.die) (at_ l + 14) 2 = b l % 2 ^ 16 ∧
        (t.die w.die).render.widx.get (tile l) = BitVec.ofNat 6 ((r.widx.get (tile l)).toNat + all l) ∧
        ((t.die w.die).render.fill.get (tile l)).toNat = min 64 ((r.fill.get (tile l)).toNat + all l)) ∧
      (∀ x, (∀ l ∈ p, ok l = true → tile l ≠ x) → (t.die w.die).render.widx.get x = r.widx.get x ∧
        (t.die w.die).render.fill.get x = r.fill.get x) ∧
      Frame s t c p (inDst o.d 1) (fun sp x => sp = .spad w.die ∧ ∃ l ∈ p, ok l = true ∧ at_ l ≤ x ∧ x < at_ l + 16) Warp.bare
        (fun m => m.modRender w.die (fun x => { x with widx := [], fill := [] }))) ∧
  (∀ s o c w, Issuing s (.sampEmit o) c w → o.modBit 0 = true →
    let p := activeLanes s (.sampEmit o) c w
    ∃ t xs, exec (.sampEmit o) s = .next t ∧ t.took (.sampEmit o) c.wid p (fun _ => [0]) ∧ t.ops = s.ops ++ xs ∧
      xs.map (·.kind) = p.map (fun l => OpKind.forward ((s.sources o c w l).b.toNat / 2 ^ 16)
        (sampleBytes (operandWords s w c.lanes l 4 false o.a) (s.sources o c w l).b.toNat true)) ∧
      (∀ x ∈ xs, x.wid = c.wid ∧ x.die = w.die ∧ x.colour = o.col ∧ x.complete = false) ∧
      Frame s t c p (inDst o.d 1) nowhere Warp.still (fun m => { m with ops := [], nextId := 0 })) ∧
  (∀ s o c w, Issuing s (.sampGth o) c w → activeLanes s (.sampGth o) c w ≠ [] →
    let n := (s.electedB (.sampGth o) c w).toNat
    let r := (s.die w.die).render
    ((r.tw * r.th ≤ n ∨ (s.ringPlace w.die n w.supervisor).isSome = true) → s.hasRoom w o.ls → ∃ t, exec (.sampGth o) s = .next t ∧
      SuspendFrame s t c.wid (activeLanes s (.sampGth o) c w) nowhere Warp.recordless id ∧
      SuspendedIn s t o.ls c.wid (activeLanes s (.sampGth o) c w) .gather false []) ∧
    (n < r.tw * r.th → s.ringPlace w.die n w.supervisor = none → ∃ t fa, exec (.sampGth o) s = .next t ∧
      Parks s t w (activeLanes s (.sampGth o) c w) 0x10 c.pc c.half fa 0 ∧ r.sbfb.toNat + 1024 * n ≤ fa ∧
      (s.renderOwner w.die = none → fa = r.sbfb.toNat + 1024 * n) ∧
      ∀ x, s.renderOwner w.die = some x → x.windowOk w.die fa 1 w.supervisor = false ∧ fa < r.sbfb.toNat + 1024 * n + 1024 ∧
        ∀ j, r.sbfb.toNat + 1024 * n ≤ j → j < fa → x.windowOk w.die j 1 w.supervisor = true)) ∧
  (∀ s o c w, Issuing s (.rowPut o) c w →
    let p := activeLanes s (.rowPut o) c w
    let r := (s.die w.die).render
    let x (l : Nat) : Nat := (s.sources o c w l).b.toNat
    let at_ (l : Nat) : Option (Nat × Nat) :=
      (r.bandOf s.realTime (x l / 2 ^ 20)).bind (fun k => if x l / 2 ^ 17 % 8 = 0 ∧ x l % 2 ^ 13 < 16 * r.tw then
        some (k, 16 * r.tw * (x l / 2 ^ 13 % 16) + x l % 2 ^ 13) else none)
    let code (k q : Nat) : BitVec 30 :=
      ((p.filter (fun l => at_ l == some (k, q))).getLast?.map (fun l => colourCode (s.sources o c w l).a.toNat)).getD
        ((r.bands.getD k {}).codes.get q)
    ∃ t, exec (.rowPut o) s = .next t ∧
      (∀ k q, ((t.die w.die).render.bands.getD k {}).codes.get q = code k q) ∧
      (t.die w.die).render.pxdrop = r.pxdrop + word (p.filter (fun l => (at_ l).isNone)).length ∧
      only (fun _ => false) s t c w [] (fun x => { x with pxdrop := 0, bands := x.bands.map (fun b => { b with codes := [] }) })) ∧
  (∀ s o c w, Issuing s (.rowAck o) c w → activeLanes s (.rowAck o) c w ≠ [] →
    let p := activeLanes s (.rowAck o) c w
    let r := (s.die w.die).render
    ∃ t, exec (.rowAck o) s = .next t ∧
      only (inDst o.d 1) s t c w p (fun x => { x with pxdrop := 0, bands := x.bands.map (fun b => { b with acks := 0 }) }) ∧
      match r.bandOf s.realTime ((s.electedB (.rowAck o) c w).toNat % 2 ^ 12) with
      | some k => t.took (.rowAck o) c.wid p (fun _ => [0]) ∧ (t.die w.die).render.pxdrop = r.pxdrop ∧
          ∀ j, ((t.die w.die).render.bands.getD j {}).acks = (r.bands.getD j {}).acks + if j = k then 1 else 0
      | none => t.took (.rowAck o) c.wid p (fun _ => [1]) ∧ (t.die w.die).render.pxdrop = r.pxdrop + 1)

/-- Every issue of trv.init answers a next state in which each active lane's window holds the ray, the triple, CTL from
MOD, CUR at the inner node of slot 0 and no hit. Every issue of trv.step with room for a record gives event 0 with
the committed hit in the lanes whose traversal has ended and suspends the others until their step completes. trv.hit
commits the candidate exactly where it lies within TMIN and TMAX and improves on the hit. prb.step, where its reads
pass, meet no owned line and hit the cache, tests up to four entries and gives cursor, best words and what remains.
tex.smp suspends until its sample; tex.qry gives width, height and levels, or zeros. tru.sort suspends the active
lanes at the sort phase, or before it while operations are open, and traps with 0x13 when SPS is not 0x400. The
triple B of trv.init is read as assumption log 25 says, and CTL and the capacity of the stack as assumption log 31
says. (R374, R378, R379, R382, R383, R385, R386, R388, R389, R390, R391, R392) -/
def Obligations.TraversalResults : Prop :=
  let word (n : Nat) : Word := BitVec.ofNat 32 n
  let reg (w : Warp) (l : Nat) (x : Operand) (k : Nat) : Word := match x with
    | .reg b => (w.lane l).reg (b + k)
    | _ => 0
  let base (x : Operand) : Nat := match x with
    | .reg b => b
    | _ => 0
  Gives .trvInit (fun _ => 18) (fun s o c w l ws fl => fl = 0 ∧
    let a := operandWords s w c.lanes l 3 true o.b
    ws = operandWords s w c.lanes l 8 false o.a ++ [a.getD 0 0, a.getD 1 0, a.getD 2 0 &&& 0xFF,
      word (o.mods 0 5 * 2 ^ 6 + if o.modBit 5 then 2 ^ 11 else 0), 0x40000000, 0xFFFFFFFF, 0xFFFFFFFF, 0xFFFFFFFF, 0, 0]) ∧
  (∀ s o c w, Issuing s (.trvStep o) c w → (s.ctx? w.ctx).isSome = true → s.hasRoom w o.ls →
    let p := activeLanes s (.trvStep o) c w
    let ctl (l : Nat) : Word := reg w l o.b 11
    let cap (l : Nat) : Nat := min ((ctl l).toNat / 2 ^ 6 % 32 + 1) (min w.footprint 640 - (base o.b + 18))
    let ends (l : Nat) : Bool := (ctl l).getLsbD 14 || (reg w l o.b 12 == 0 && min ((ctl l).toNat % 64) (cap l) == 0)
    ∃ t, exec (.trvStep o) s = .next t ∧
      t.took (.trvStep o) c.wid (p.filter ends) (fun l => [if (ctl l).getLsbD 13 then 16 else 0, reg w l o.b 13, reg w l o.b 14,
        reg w l o.b 15, reg w l o.b 7, reg w l o.b 16, reg w l o.b 17, 0]) ∧
      (∀ l ∈ p.filter ends, base o.d + 8 ≤ base o.b ∨ base o.b + 18 ≤ base o.d → (t.regAt c.wid l (base o.b + 11)).getLsbD 14 = true) ∧
      (∀ l ∈ p.filter ends, (t.laneAt c.wid l).st = .runnable) ∧
      (∀ v l k, ¬ (v = c.wid ∧ l ∈ p.filter ends ∧ (inDst o.d 8 k = true ∨ k = base o.b + 11)) → t.regAt v l k = s.regAt v l k) ∧
      SameFlags s t ∧ BytesKept s t (t.recordBytesOf c.wid w.seqNext) ∧ t.warps.map Warp.recordless = s.warps.map Warp.recordless ∧
      t.bare = s.bare ∧
      (p.filter (fun l => !ends l) ≠ [] → SuspendedIn s t o.ls c.wid (p.filter (fun l => !ends l)) .traversal false [])) ∧
  (∀ s o c w, Issuing s (.trvHit o) c w →
    let p := activeLanes s (.trvHit o) c w
    let x (l k : Nat) : Nat := (reg w l o.d k).toNat
    let y (l k : Nat) : Nat := (reg w l o.a k).toNat
    let before (l : Nat) : Bool := lexLt [y l 1, y l 2, y l 3] [x l 13, x l 14, x l 15]
    let takes (l : Nat) : Bool := leF (x l 6) (y l 4) && leF (y l 4) (x l 7) &&
      (ltF (y l 4) (x l 7) || (eqF (y l 4) (x l 7) && (!(reg w l o.d 11).getLsbD 12 || before l)))
    ∃ t, exec (.trvHit o) s = .next t ∧ RegistersOnly s t c.wid (p.filter takes) (inDst o.d 18) ∧ SameFlags s t ∧ Moved s t c ∧
      ∀ l ∈ p, takes l = true → ∀ b, o.d = .reg b →
        t.regAt c.wid l (b + 7) = reg w l o.a 4 ∧ t.regAt c.wid l (b + 13) = reg w l o.a 1 ∧ t.regAt c.wid l (b + 14) = reg w l o.a 2 ∧
        t.regAt c.wid l (b + 15) = reg w l o.a 3 ∧ t.regAt c.wid l (b + 16) = reg w l o.a 5 ∧ t.regAt c.wid l (b + 17) = reg w l o.a 6 ∧
        (∀ k < 11, k ≠ 7 → t.regAt c.wid l (b + k) = reg w l o.d k) ∧ (t.regAt c.wid l (b + 11)).getLsbD 12 = true ∧
        (if (reg w l o.d 11).getLsbD 11 then (t.regAt c.wid l (b + 11)).getLsbD 14 = true ∧ (t.regAt c.wid l (b + 11)).toNat % 64 = 0 ∧
          t.regAt c.wid l (b + 12) = 0 else t.regAt c.wid l (b + 12) = reg w l o.d 12)) ∧
  (∀ s o c w, Issuing s (.prbStep o) c w →
    let p := activeLanes s (.prbStep o) c w
    let off (l : Nat) : Nat := (s.sources o c w l).b.toNat
    let k (l : Nat) : Nat := (reg w l o.d 0).toNat
    let n (l : Nat) : Nat := s.numberAt (.spad w.die) (s.spaceAddr w false (off l)) 4
    let next (l : Nat) : Nat := k l + (min (k l + 4) (n l) - k l)
    let entries (l : Nat) : List Nat := (List.range (next l - k l)).map (fun j => off l + 16 + 48 * (k l + j))
    let reads (l : Nat) : List (Nat × Nat) := (off l, 4) :: (entries l).map (fun a => (a, 48))
    let held (x : Nat × Nat) : Bool := (linesOf (s.spaceAddr w false x.1) x.2).all (s.holdsLine w.die w.core)
    let best (l : Nat) : List Nat := (entries l).foldl (fun v a =>
      probeEntry (reg w l o.a 0).toNat (reg w l o.a 1).toNat v (s.bytesAt (.spad w.die) (s.spaceAddr w false a) 48))
      [(reg w l o.d 1).toNat, (reg w l o.d 2).toNat, (reg w l o.d 3).toNat]
    (∀ l ∈ p, s.listWordTrap w (off l) = none ∧ s.entryTrap w (off l) (k l) = none ∧ ∀ x ∈ reads l, s.ownedLines w false x.1 x.2 = []) →
    ((∀ l ∈ p, ∀ x ∈ reads l, held x = true) → ∃ t, exec (.prbStep o) s = .next t ∧
      Writes s t (.prbStep o) c w 5 (fun l ws fl => fl = 0 ∧ ws = [word (next l)] ++ (best l).map word ++ [word (n l - next l)])) ∧
    ((∃ l ∈ p, ∃ x ∈ reads l, held x = false) → s.hasRoom w o.ls → ∃ t ms, exec (.prbStep o) s = .next t ∧
      SuspendFrame s t c.wid p nowhere Warp.recordless id ∧ SuspendedIn s t o.ls c.wid p (.fill ms) false [])) ∧
  (∀ s o c w, Issuing s (.texSmp o) c w →
    let p := activeLanes s (.texSmp o) c w
    (∀ l ∈ p, s.checkAccess w false (s.sources o c w l).b.toNat 32 32 = 0) → p ≠ [] → s.hasRoom w o.ls →
    ∃ t, exec (.texSmp o) s = .next t ∧ SuspendFrame s t c.wid p nowhere Warp.recordless id ∧ SuspendedIn s t o.ls c.wid p .texture false []) ∧
  GivesWhen .texQry (fun s o c w => ∀ l ∈ activeLanes s (.texQry o) c w, let x := (s.sources o c w l).b.toNat
      s.checkAccess w false x 32 32 = 0 ∧ s.ownedLines w false x 32 = [] ∧
      (linesOf (s.spaceAddr w false x) 32).all (s.holdsLine w.die w.core) = true)
    (fun _ => 3) (fun s o c w l ws fl => fl = 0 ∧
      let f (k n : Nat) : Nat := s.numberAt (.spad w.die) (s.spaceAddr w false (s.sources o c w l).b.toNat + k) n
      let lv := min (s.sources o c w l).a.toNat (f 16 1)
      ws = if 3 < f 9 1 ∨ f 10 1 % 4 = 3 ∨ f 10 1 / 4 % 4 = 3 ∨ f 11 1 ≠ 0 ∨ f 17 15 ≠ 0 then [0, 0, 0]
        else [word (max 1 ((f 12 2 + 1) / 2 ^ lv)), word (max 1 ((f 14 2 + 1) / 2 ^ lv)), word (f 16 1 + 1)]) ∧
  (∀ s o c w, Issuing s (.truSort o) c w → activeLanes s (.truSort o) c w ≠ [] →
    let p := activeLanes s (.truSort o) c w
    let ops := s.ops.filter (fun x => x.wid == c.wid)
    (w.sps ≠ 0x400 → ∃ t, exec (.truSort o) s = .next t ∧ Parks s t w p 0x13 c.pc c.half 0 0) ∧
    (w.sps = 0x400 → s.hasRoom w o.ls → ops = [] → ∃ t, exec (.truSort o) s = .next t ∧
      SuspendFrame s t c.wid p nowhere Warp.recordless id ∧ SuspendedIn s t o.ls c.wid p .sortPhase false []) ∧
    (w.sps = 0x400 → s.hasRoom w o.ls → (∀ x ∈ ops, x.fault = none) → (∃ x ∈ ops, x.complete = false) →
      ∃ t, exec (.truSort o) s = .next t ∧ SuspendFrame s t c.wid p nowhere Warp.recordless id ∧ SuspendedIn s t o.ls c.wid p (.sortFence (ops.map (·.oid))) false []))

/-- The functions that the traversal, probe and texture statements name compute what R380 to R384 and R387 to R390 say,
in FP32 operations rounded to nearest: the slab test with its entry distance, the triangle test, what improves and
commits a hit, the hit children in ascending distance and slot with the first entered and the others pushed, the
round of a step at an empty, inner, triangle and procedural word and at a triangle of a leaf, the alpha test, one
entry of a probe list, the layout of levels and texels with their conversion, the wrap modes, and a sample at its
level, nearest or bilinear. (R380, R381, R382, R383, R384, R387, R388, R389, R390) -/
def Obligations.TraversalProbeAndTextureValues : Prop :=
  let val : Nat → FVal := fmtF32.decode
  let add (x y : Nat) : Nat := (fmtF32.addVals 0 (val x) (val y)).bits
  let sub (x y : Nat) : Nat := (fmtF32.addVals 0 (val x) (val y).flip).bits
  let mul (x y : Nat) : Nat := (fmtF32.mulVals 0 (val x) (val y)).bits
  let div (x y : Nat) : Nat := (fmtF32.divVals 0 (val x) (val y)).bits
  let fma (x y z : Nat) : Nat := (fmtF32.fmaVals 0 (val x) (val y) (val z)).bits
  let fms (x y z : Nat) : Nat := (fmtF32.fmaVals 0 (val x) (val y) (val z).flip).bits
  let le (x y : Nat) : Bool := (val x).le (val y)
  let lt (x y : Nat) : Bool := (val x).lt (val y)
  let lo (x y : Nat) : Nat := (fmtF32.minMax false x y).bits
  let hi (x y : Nat) : Nat := (fmtF32.minMax true x y).bits
  let one : Nat := 0x3F800000
  let at3 (v : List Nat) (c : Nat) : Nat := v.getD c 0
  let diff (a b : List Nat) : List Nat := [sub (at3 a 0) (at3 b 0), sub (at3 a 1) (at3 b 1), sub (at3 a 2) (at3 b 2)]
  let cr (a b : List Nat) : List Nat := [fms (at3 a 1) (at3 b 2) (mul (at3 a 2) (at3 b 1)),
    fms (at3 a 2) (at3 b 0) (mul (at3 a 0) (at3 b 2)), fms (at3 a 0) (at3 b 1) (mul (at3 a 1) (at3 b 0))]
  let dt (a b : List Nat) : Nat := fma (at3 a 2) (at3 b 2) (fma (at3 a 1) (at3 b 1) (mul (at3 a 0) (at3 b 0)))
  (∀ (x : Trav) (l h : List Nat),
    let t1 (c : Nat) : Nat := mul (sub (at3 l c) (at3 x.o c)) (div one (at3 x.dir c))
    let t2 (c : Nat) : Nat := mul (sub (at3 h c) (at3 x.o c)) (div one (at3 x.dir c))
    let tn := hi (hi (hi x.tmin (lo (t1 0) (t2 0))) (lo (t1 1) (t2 1))) (lo (t1 2) (t2 2))
    let tf := lo (lo (lo x.tmax (hi (t1 0) (t2 0))) (hi (t1 1) (t2 1))) (hi (t1 2) (t2 2))
    x.box l h = (le tn tf, tn)) ∧
  (∀ (x : Trav) (p0 p1 p2 : List Nat),
    let e1 := diff p1 p0
    let e2 := diff p2 p0
    let p := cr x.dir e2
    let det := dt e1 p
    let g := diff x.o p0
    let q := cr g e1
    let r := div one det
    let u := mul (dt g p) r
    let v := mul (dt x.dir q) r
    let t := mul (dt e2 q) r
    x.tri p0 p1 p2 = if (val det).isZero = true ∨ (val det).isNan = true then none
      else if le 0 u = true ∧ le 0 v = true ∧ le (add u v) one = true ∧ le x.tmin t = true ∧ le t x.tmax = true then some ⟨t, u, v⟩
      else none) ∧
  (∀ (x : Trav) (h : TriHit) (k0 k1 k2 h0 h1 h2 : Nat), x.key = [h0, h1, h2] →
    (x.improves h.t [k0, k1, k2] = true ↔ lt h.t x.tmax = true ∨ ((val h.t).eq (val x.tmax) = true ∧
      (x.hit = false ∨ k0 < h0 ∨ (k0 = h0 ∧ (k1 < h1 ∨ (k1 = h1 ∧ k2 < h2)))))) ∧
    x.commit h [k0, k1, k2] = (let y := { x with tmax := h.t, key := [k0, k1, k2], hu := h.u, hv := h.v, hit := true }
      if x.any then { y with fin := true, sp := 0, cur := 0, lpos := 0 } else y)) ∧
  (∀ (x : Trav) (bs : List Byte),
    let f (o : Nat) : Nat := fieldOf bs o 4
    let box (c : Nat) : Bool × Nat :=
      x.box [f (24 * c), f (24 * c + 4), f (24 * c + 8)] [f (24 * c + 12), f (24 * c + 16), f (24 * c + 20)]
    ∃ cs : List Nat, x.children bs = cs.map (fun c => f (96 + 4 * c)) ∧
      (∀ c, c ∈ cs ↔ c < 4 ∧ f (96 + 4 * c) / 2 ^ 30 ≠ 0 ∧ (box c).1 = true) ∧
      cs.Pairwise (fun a b => lt (box a).2 (box b).2 = true ∨ (lt (box b).2 (box a).2 = false ∧ a < b))) ∧
  (∀ (x : Trav) (v : Nat), (x.stack = [] → x.push v = { x with ovf := true }) ∧
    (x.sp < x.stack.length → x.push v = { x with stack := x.stack.set x.sp (BitVec.ofNat 32 v), sp := x.sp + 1 }) ∧
    (x.stack ≠ [] → x.stack.length ≤ x.sp → x.push v = { x with stack := x.stack.tail ++ [BitVec.ofNat 32 v], ovf := true })) ∧
  (∀ (s : State) (w : Warp) (c : Context) (na : Bool) (m : Nat) (r : TravRun), r.x.fin = false → r.x.cur ≠ 0 → r.n < 32 →
    let x := r.x
    let kind := x.cur / 2 ^ 30
    let a := (vaOf x.base + 128 * (x.cur % 2 ^ 30)) % 2 ^ 72
    (kind = 0 → s.travLoop w c na (m + 1) r = s.travLoop w c na m { r with x := { x with cur := 0 } }) ∧
    ∀ bs, (x.base.getD 2 0).toNat < 2 ^ 8 → s.readTex w c a r.peer (if kind = 1 then 128 else 256) = .ok bs →
      ∃ r', r' = { r with n := r.n + 1, peer := r'.peer, lines := r'.lines } ∧
      (kind = 1 → s.travLoop w c na (m + 1) r = s.travLoop w c na m
        { r' with x := ((x.children bs).tail.reverse).foldl Trav.push { x with cur := (x.children bs).headD 0 } }) ∧
      (kind = 2 → s.travLoop w c na (m + 1) r = match s.leafLoop w c na bs 4 (min x.lpos 4) r' with
        | (_, some e) => e
        | (y, none) => .done { y with x := { y.x with cur := 0, lpos := 0 } } 1 0 y.x.key y.x.tmax y.x.hu y.x.hv y.k) ∧
      (kind = 3 → s.travLoop w c na (m + 1) r = if min x.lpos 4 < leafCount bs then
          .done { r' with x := { x with lpos := min x.lpos 4 + 1 } } 2 0 (leafKey bs (min x.lpos 4)) x.tmax 0 0 x.cur
        else s.travLoop w c na m { r' with x := { x with cur := 0, lpos := 0 } })) ∧
  (∀ (s : State) (w : Warp) (c : Context) (na : Bool) (bs : List Byte) (m i : Nat) (r : TravRun),
    let vertex (j : Nat) : List Nat := (List.range 3).map (fun e => fieldOf bs (24 + 36 * i + 12 * j + 4 * e) 4)
    let key := [fieldOf bs 4 4, fieldOf bs 8 4, (fieldOf bs 12 4 + i) % 2 ^ 32]
    let found := r.x.tri (vertex 0) (vertex 1) (vertex 2)
    let ah := bitOf (fieldOf bs 0 4) 3
    let at_ := bitOf (fieldOf bs 0 4) 4
    let next (y : TravRun) : TravRun × Option TravEnd := s.leafLoop w c na bs m (i + 1) y
    (min (fieldOf bs 0 4 % 8) 4 ≤ i → s.leafLoop w c na bs (m + 1) i r = (r, none)) ∧
    (i < min (fieldOf bs 0 4 % 8) 4 →
      ((∀ h, found = some h → r.x.improves h.t key = false) → s.leafLoop w c na bs (m + 1) i r = next r) ∧
      ∀ h, found = some h → r.x.improves h.t key = true →
        let asks (y : TravRun) (areq : Nat) : TravRun × Option TravEnd :=
          (y, some (.done { y with x := { y.x with lpos := i + 1 } } 3 areq key h.t h.u h.v y.x.cur))
        (at_ = true → na = true → s.leafLoop w c na bs (m + 1) i r = asks r 1) ∧
        ∀ b ps, ((at_ = false ∧ b = 1 ∧ ps = []) ∨ (at_ = true ∧ na = false ∧ s.alphaTest w c bs i h r.peer = .ok [b] ps)) →
          ∃ y, y = { r with peer := y.peer, lines := y.lines } ∧
            let z := { y with x := y.x.commit h key, k := y.k + 1 }
            s.leafLoop w c na bs (m + 1) i r = if b = 0 then next y else if ah then asks y 0
              else if z.x.any then (z, some (.done z 0 0 z.x.key z.x.tmax z.x.hu z.x.hv 0)) else next z)) ∧
  (∀ (s : State) (w : Warp) (c : Context) (bs : List Byte) (i : Nat) (h : TriHit) (k : Nat) (ws : List Nat) (ps : List Nat),
    let tc (j e : Nat) : Nat := fmtF16.widen (fieldOf bs (168 + 12 * i + 4 * j + 2 * e) 2)
    let st (e : Nat) : Nat := fma h.v (tc 2 e) (fma h.u (tc 1 e) (mul (sub (sub one h.u) h.v) (tc 0 e)))
    let o := fieldOf bs 16 4
    s.texTrap w o = 0 → s.ownedLines w false o 32 = [] → s.sampleTexture w c (s.texDesc w o) k (st 0) (st 1) 0 = .ok ws ps →
    s.alphaTest w c bs i h k = .ok [if le (fmtF16.widen (fieldOf bs 20 2)) (ws.getD 3 0) then 1 else 0] ps) ∧
  (∀ (x y : Nat) (b0 b1 b2 : Nat) (bs : List Byte),
    let v (j e : Nat) : Nat := fieldOf bs (12 * j + 4 * e) 4
    let edge (a b : Nat) : Nat := fms (sub (v b 0) (v a 0)) (sub y (v a 1)) (mul (sub (v b 1) (v a 1)) (sub x (v a 0)))
    let w0 := edge 1 2
    let w1 := edge 2 0
    let w2 := edge 0 1
    let ar := add (add w0 w1) w2
    let z := div (fma w2 (v 2 2) (fma w1 (v 1 2) (mul w0 (v 0 2)))) ar
    probeEntry x y [b0, b1, b2] bs =
      if ((lt 0 ar = true ∧ le 0 w0 = true ∧ le 0 w1 = true ∧ le 0 w2 = true) ∨
          (lt ar 0 = true ∧ le w0 0 = true ∧ le w1 0 = true ∧ le w2 0 = true)) ∧ lt z b0 = true then
        [z, fieldOf bs 36 4, fieldOf bs 40 4] else [b0, b1, b2]) ∧
  (∀ (n : Nat) (i : Int), 0 < n →
    (wrapIndex 0 n i < n ∧ (n : Int) ∣ i - wrapIndex 0 n i) ∧
    (wrapIndex 1 n i < n ∧ (wrapIndex 1 n i : Int) = min (max i 0) (n - 1)) ∧
    (wrapIndex 2 n i < n ∧ ((2 * n : Int) ∣ i - wrapIndex 2 n i ∨ (2 * n : Int) ∣ i + wrapIndex 2 n i + 1))) ∧
  (∀ (d : TexDesc) (l i j : Nat), let z := if d.fmt = 1 then 8 else 4
    let wl (k : Nat) : Nat := max 1 (d.width / 2 ^ k)
    let hl (k : Nat) : Nat := max 1 (d.height / 2 ^ k)
    let pitch (k : Nat) : Nat := (wl k * z + 15) / 16 * 16
    d.levelStart 0 = d.addr ∧ (let e := d.levelStart l + hl l * pitch l
      e ≤ d.levelStart (l + 1) ∧ d.levelStart (l + 1) < e + 128 ∧ d.levelStart (l + 1) % 128 = 0) ∧
    d.texelAt l i j = (d.levelStart l + j * pitch l + z * i) % 2 ^ 72) ∧
  (∀ (d : TexDesc) (bs : List Byte),
    let ofInt (v : Nat) : Nat := (fmtF32.round rmRn false 0 (intVal v).exact).bits
    let v := fieldOf bs 0 4
    d.channels bs = match d.fmt with
      | 0 => [div (ofInt (fieldOf bs 0 1)) 0x437F0000, div (ofInt (fieldOf bs 1 1)) 0x437F0000,
          div (ofInt (fieldOf bs 2 1)) 0x437F0000, div (ofInt (fieldOf bs 3 1)) 0x437F0000]
      | 1 => [fmtF16.widen (fieldOf bs 0 2), fmtF16.widen (fieldOf bs 2 2), fmtF16.widen (fieldOf bs 4 2), fmtF16.widen (fieldOf bs 6 2)]
      | 2 => [v, 0, 0, one]
      | _ => [fmtColour6.widen (v % 2 ^ 11), fmtColour6.widen (v / 2 ^ 11 % 2 ^ 11), fmtColour5.widen (v / 2 ^ 22), one]) ∧
  (∀ f ∈ [fmtF16, fmtColour6, fmtColour5], ∀ b q, (f.decode b).rat = some q → (val (f.widen b)).rat = some q) ∧
  (∀ (s : State) (w : Warp) (c : Context) (d : TexDesc) (k u v lod : Nat),
    (d.bad = true → s.sampleTexture w c d k u v lod = .ok [0, 0, 0, 0] []) ∧
    (d.bad = false → d.last < 2 ^ 8 → ∃ (l : Nat) (i j : Int),
      let ofInt (n : Int) : Nat := (fmtF32.round rmRn false 0 (intVal n).exact).bits
      let fin (x : Nat) : Nat := if (val x).isNan || (val x).isInf then 0 else x
      let isFloor (x : Nat) (n : Int) : Prop :=
        (∀ q, (val x).rat = some q → if q < -(2 ^ 31) then n = -(2 ^ 31) else if 2 ^ 31 ≤ q then n = 2 ^ 31 - 1
          else (n : Rat) ≤ q ∧ q < n + 1) ∧
        (val x = .inf false → n = 2 ^ 31 - 1) ∧ (val x = .inf true → n = -(2 ^ 31))
      let x0 := mul (fin u) (ofInt (d.widthAt l))
      let y0 := mul (fin v) (ofInt (d.heightAt l))
      let x := if d.bilinear then add x0 0xBF000000 else x0
      let y := if d.bilinear then add y0 0xBF000000 else y0
      let fx := add x (ofInt (-i))
      let fy := add y (ofInt (-j))
      let texel (n : Nat) (a b : Int) : Sampled :=
        s.readTexel w c d (k + 8 * n) l (wrapIndex d.wrapU (d.widthAt l) a) (wrapIndex d.wrapV (d.heightAt l) b)
      let lerp (a b f : Nat) : Nat := fma f (sub b a) a
      (∀ q, (val lod).rat = some q → ∃ n : Int, (q - n).abs ≤ 1 / 2 ∧ ((q - n).abs = 1 / 2 → n % 2 = 0) ∧
        (l : Int) = min (max n 0) d.last) ∧
      ((val lod).isNan = true → l = 0) ∧ (val lod = .inf false → l = d.last) ∧ (val lod = .inf true → l = 0) ∧
      isFloor x i ∧ isFloor y j ∧
      (d.bilinear = false → s.sampleTexture w c d k u v lod = texel 0 i j) ∧
      (d.bilinear = true → ∀ a b e g pa pb pe pg, texel 0 i j = .ok a pa → texel 1 (i + 1) j = .ok b pb →
        texel 2 i (j + 1) = .ok e pe → texel 3 (i + 1) (j + 1) = .ok g pg → ∃ ps, s.sampleTexture w c d k u v lod =
          .ok ((List.range 4).map (fun m => lerp (lerp (a.getD m 0) (b.getD m 0) fx) (lerp (e.getD m 0) (g.getD m 0) fx) fy)) ps)))

/-- With an active lane and a descriptor that passes its check and meets no owned line, every issue of cmb.alloc answers
a next state: one that R396 rejects gives 0xFFFFFF00 plus its reason and 0; one that row 4 or 5 of Table 18.4 traps
parks the active lanes; with a slot free and no allocation waiting it gives a handle of the lowest free slot, now
open with the descriptor's fields, and 0; otherwise it gives 0 and 2 without .wait or under TO 0, or suspends the
active lanes. cmb.put of a legal source starts a put, or counts a drop when its width or reserved bits are bad.
cmb.free of a live slot of the warp's die, with no put landing and no allocation waiting, frees it, releases its
lines and gives 0; for any other handle it gives 1. Nothing else changes. The pair A of cmb.put is read as
assumption log 25 says, and an allocation stands behind those that wait by assumption log 48. (R394, R395, R396,
R398, R399, R400, R401, R408) -/
def Obligations.CombineUnitResults : Prop :=
  let word (n : Nat) : Word := BitVec.ofNat 32 n
  let slots (m : State) : State := { m with owned := [], dies := m.dies.map (fun d => { d with slots := [] }) }
  (∀ s o c w, Issuing s (.cmbAlloc o) c w →
    let p := activeLanes s (.cmbAlloc o) c w
    let off := (s.electedB (.cmbAlloc o) c w).toNat
    let d := s.bytesAt (.spad w.die) (s.spaceAddr w false off) 64
    p ≠ [] → s.checkAccess w false off 64 64 = 0 → s.ownedLines w false off 64 = [] →
    (caReason d ≠ 0 → ∃ t, exec (.cmbAlloc o) s = .next t ∧
      Writes s t (.cmbAlloc o) c w 2 (fun _ ws fl => fl = 0 ∧ ws = [word (0xFFFFFF00 + caReason d), 0])) ∧
    (caReason d = 0 → ∀ x, s.caTrap w d = some x → ∃ t, exec (.cmbAlloc o) s = .next t ∧ Parks s t w p x.1 c.pc c.half x.2 0) ∧
    (caReason d = 0 → s.caTrap w d = none → s.slotWaiters w.die = [] → ∀ k, s.freeSlotFrom w.die Config.combineSlots 0 = some k →
      let seq := if ((s.slot w.die k).seq + 1) % 2 ^ 18 = 0 then 1 else ((s.slot w.die k).seq + 1) % 2 ^ 18
      ∃ t, exec (.cmbAlloc o) s = .next t ∧
        t.took (.cmbAlloc o) c.wid p (fun _ => [word (seq * 2 ^ 14 + w.die * 2 ^ 13 + k), 0]) ∧
        (let x := t.slot w.die k
         x.slot = k ∧ x.state = .opened ∧ x.seq = seq ∧ x.ctx = w.ctx ∧ x.token = fieldOf d 0 4 ∧ x.experts = caExperts d ∧
          x.width = caWidth d ∧ x.arr = 0 ∧ x.sub = 0 ∧ x.late = 0 ∧
          x.deadline = (if fieldOf d 47 1 % 32 = 31 then none else some ((s.die w.die).clkr + 2 ^ (fieldOf d 47 1 % 32))) ∧
          ∀ key ∈ x.lines w.die, t.isOwned key = true) ∧
        (∀ j, j ≠ k → t.slot w.die j = s.slot w.die j) ∧ Frame s t c p (inDst o.d 2) nowhere Warp.still slots) ∧
    (caReason d = 0 → s.caTrap w d = none → (s.freeSlotFrom w.die Config.combineSlots 0 = none ∨ s.slotWaiters w.die ≠ []) →
      ((o.modBit 0 = false ∨ o.tmo = 0) → ∃ t, exec (.cmbAlloc o) s = .next t ∧
        Writes s t (.cmbAlloc o) c w 2 (fun _ ws fl => fl = 0 ∧ ws = [0, 2])) ∧
      (o.modBit 0 = true → o.tmo ≠ 0 → s.hasRoom w o.ls → ∃ t results, exec (.cmbAlloc o) s = .next t ∧
        SuspendFrame s t c.wid p nowhere Warp.recordless id ∧ SuspendedIn s t o.ls c.wid p (.slot d) false results))) ∧
  (∀ s o c w, Issuing s (.cmbPut o) c w →
    let p := activeLanes s (.cmbPut o) c w
    let a := operandWords s w c.lanes (p.headD 0) 2 true o.a
    let src := (a.getD 0 0).toNat
    let pw := (a.getD 1 0).toNat
    let width := pw / 2 ^ 8 % 2 ^ 14
    let f16 := o.modBit 0
    p ≠ [] → (width ≠ 0 → s.rangeTrap w false src (width * if f16 then 2 else 4) = none) → src % 16 = 0 →
    ((width = 0 ∨ 8192 < width ∨ pw / 2 ^ 22 ≠ 0) → s.isDet w = false → (∀ x ∈ s.ops, x.oid < s.nextId) →
      ∃ t, exec (.cmbPut o) s = .next t ∧ (t.die w.die).cmbDrop = (s.die w.die).cmbDrop + 1 ∧ t.ops = s.ops ∧
        Frame s t c [] (fun _ => false) nowhere Warp.still (fun m => { m with
          nextId := 0, dies := m.dies.map (fun d => { d with cmbDrop := 0 }) })) ∧
    (width ≠ 0 → width ≤ 8192 → pw / 2 ^ 22 = 0 → ∃ t x, exec (.cmbPut o) s = .next t ∧ t.ops = s.ops ++ [x] ∧
      x.kind = .put { handle := (s.electedB (.cmbPut o) c w).toNat, source := s.spaceAddr w false src, expert := pw % 256
                      width := width, f16 := f16, landing := none } ∧
      x.wid = c.wid ∧ x.die = w.die ∧ x.ctx = w.ctx ∧ x.colour = o.col ∧ x.complete = false ∧
      Frame s t c [] (fun _ => false) nowhere Warp.still (fun m => { m with ops := [], nextId := 0 }))) ∧
  (∀ s o c w, Issuing s (.cmbFree o) c w →
    let p := activeLanes s (.cmbFree o) c w
    let h := (s.electedB (.cmbFree o) c w).toNat
    p ≠ [] →
    (∀ x, s.liveSlot w.ctx h = some (w.die, x) → (x.state = .opened → s.landing h = []) → s.slotWaiters w.die = [] →
      ∃ t, exec (.cmbFree o) s = .next t ∧ t.took (.cmbFree o) c.wid p (fun _ => [0]) ∧
        t.slot w.die x.slot = { slot := x.slot, seq := x.seq } ∧ (∀ k, t.owns (.slot w.die x.slot) k = false) ∧
        Frame s t c p (inDst o.d 1) nowhere Warp.still slots) ∧
    ((∀ x, s.liveSlot w.ctx h ≠ some (w.die, x)) → ∃ t, exec (.cmbFree o) s = .next t ∧
      Writes s t (.cmbFree o) c w 1 (fun _ ws fl => fl = 0 ∧ ws = [1])))

/-- Each of these events answers a next state with its effect when its condition holds: a code word that can be read
enters the core's instruction cache; with no lane runnable the lanes held at the lowest join become runnable past
it; a lane passed over 64 times is starved; a warp behind 2,048 issues is boosted; one that spun 16 times is
demoted; a store made and not performed is counted; a warp first in line with room re-enters the active set; a
scratchpad line that a record waits for enters the core's cache. Nothing else of the machine changes but, with a
code fill, the translation the context holds and the count of free values. (R75, R171, R174, R184, R185, R212, R213,
R231, R244) -/
def Obligations.WarpEventResults : Prop :=
  let rest (s t : State) : Prop := { t with warps := [] } = { s with warps := [] }
  let cores (s t : State) (die core : Nat) (g : Core → Core) : Prop :=
    (∀ d k, ¬ (d = die ∧ k = core) → t.core d k = s.core d k) ∧ g (t.core die core) = g (s.core die core) ∧
    t.dies.map (fun d => { d with cores := [] }) = s.dies.map (fun d => { d with cores := [] })
  let one (s t : State) (wid : Nat) (x : Warp) : Prop := t.warp? wid = some x ∧ (∀ v, v ≠ wid → t.warp? v = s.warp? v) ∧ rest s t
  (∀ s die core ctx base pc c bs, s.ctx? ctx = some c → s.readMainBytes c (base + pc) (2 ^ 202 + s.fresh) .fill 8 = .ok bs →
    die < s.dies.length → core < (s.die die).cores.length → ∃ t, exec (.instructionCacheFill die core ctx base pc) s = .next t ∧
      (t.core die core).icache.find? (fun x => x.ctx == ctx && x.base == base && x.pc == pc) =
        some ⟨ctx, base, pc, BitVec.ofNat 64 (bytesToNat bs)⟩ ∧
      cores s t die core (fun x => { x with icache := [] }) ∧
      t.ctxs.map (fun x => { x with tlb := [] }) = s.ctxs.map (fun x => { x with tlb := [] }) ∧
      { t with dies := [], ctxs := [], fresh := 0 } = { s with dies := [], ctxs := [], fresh := 0 }) ∧
  (∀ s wid w j, s.warp? wid = some w → w.lanes.length = 32 → (∀ l, (w.lane l).st ≠ .runnable) →
    (∃ l < 32, (w.lane l).st = .held ∧ (w.lane l).pc = j) → (∀ l < 32, (w.lane l).st = .held → j ≤ (w.lane l).pc) →
    ∃ t x, exec (.joinRelease wid) s = .next t ∧ one s t wid x ∧ { x with lanes := [] } = { w with lanes := [] } ∧
      ∀ l < 32, x.lane l = if (w.lane l).st = .held ∧ (w.lane l).pc = j then
        { w.lane l with st := .runnable, pc := j + 8, half := 0 } else w.lane l) ∧
  (∀ s wid w l, s.warp? wid = some w → l < w.lanes.length → 64 ≤ (w.lane l).passed →
    ∃ t x, exec (.laneSetStarved wid l) s = .next t ∧ one s t wid x ∧ { x with lanes := [] } = { w with lanes := [] } ∧
      ∀ k, x.lane k = if k = l then { w.lane l with starved := true } else w.lane k) ∧
  (∀ s wid w, s.warp? wid = some w → 2048 ≤ w.readyCycles → ∃ t, exec (.warpBoost wid) s = .next t ∧ one s t wid { w with boosted := true }) ∧
  (∀ s wid w, s.warp? wid = some w → 16 ≤ w.loopCount → ∃ t, exec (.spinDemote wid) s = .next t ∧ one s t wid { w with demoted := true }) ∧
  (∀ s wid w, s.warp? wid = some w → w.prf < w.made → ∃ t, exec (.storePerformed wid) s = .next t ∧
    one s t wid { w with prf := w.prf + 1 }) ∧
  (∀ s wid w, s.warp? wid = some w → (s.reenterers w.die w.core).head? = some w →
    s.rtWaits w.die w.core = false → s.unitsUsed w.die w.core + w.footprint / 32 ≤ Config.fastUnits →
    s.activeOn w.die w.core < Config.activeWarps → ∃ t, exec (.warpReenter wid) s = .next t ∧ one s t wid { w with active := true }) ∧
  (∀ s die core line w r ls, w ∈ s.warpsOn die core → r ∈ w.records → r.state = .waiting → r.wait = .fill ls → line ∈ ls →
    die < s.dies.length → core < (s.die die).cores.length → ∃ t, exec (.scratchpadLineFill die core line) s = .next t ∧
      line ∈ (t.core die core).spadLines ∧ cores s t die core (fun x => { x with spadLines := [] }) ∧
      { t with dies := [] } = { s with dies := [] })

/-- When a timed wait's deadline has passed its record becomes ready with status 1, for wait.addr with the word as it
stands without a store that has not been performed. The ready record that comes first in a warp that may run, and
has resumed none in this cycle, resumes: its lanes stand runnable at its position, with the registers, FPX and
generator it saved, registers held by matrix operations meanwhile as they are, and its other results written; a warp
that has resumed one in this cycle resumes no other. A suspended record captures 0 for every register outside the
live set of its instruction (Record.captures in the statements of what suspends), so that such a register reads 0
after this. A chained request whose turn has come and that meets no owned line is applied: the words it reaches
become those of R267 and R268 and its record is ready with the old words. A traversal step, texture sample or gather
that meets no fault and no owned line makes its record ready with the words it gives in each lane (what those words
are, TraversalProbeAndTextureValues states). A record issued under old window or table registers goes on as under
those, and the registers keep. (R31, R219, R224, R227, R248, R249, R267, R271, R366, R383, R385, R390) -/
def Obligations.RecordEventResults : Prop :=
  let ready (t : State) (wid seq : Nat) (res : List RegWrite → Prop) : Prop :=
    ∃ x y, t.warp? wid = some x ∧ x.record? seq = some y ∧ y.state = .ready ∧ res y.results
  let status (r : Record) (st : Word) (rs : List RegWrite) : Prop :=
    r.sdst < 640 → ∀ l ∈ r.lanes, ({ lane := l, reg := r.sdst, val := st } : RegWrite) ∈ rs
  (∀ s wid seq w r, s.warp? wid = some w → s.serves w = true → w.record? seq = some r → r.state = .waiting → r.old = {} → r.tmo ≠ 31 → r.wait.timed = true →
    (BitVec.ofNat 32 (s.ctxClk w.ctx) - r.deadline).toNat < 2 ^ 31 →
    ((∀ sh a c v x, r.wait ≠ .word sh a c v x) → ∃ t, exec (.waitTimeout wid seq) s = .next t ∧ ready t wid seq (status r 1)) ∧
    (∀ sh a c v x i b, r.wait = .word sh a c v x → r.instr = some i → i.operands.d = .reg b →
      ∃ t, exec (.waitTimeout wid seq) s = .next t ∧ ready t wid seq (fun rs => ∀ y ∈ r.vals,
        ({ lane := y.lane, reg := b, val := 1 } : RegWrite) ∈ rs ∧
        ({ lane := y.lane, reg := b + 1, val := (x.map (·.before)).getD (BitVec.ofNat 32 (s.numberAt (w.space sh) a 4)) } : RegWrite) ∈ rs))) ∧
  (∀ s wid w r, s.warp? wid = some w → w.lanes.length = 32 → s.mayRun w = true → s.givesWay w = false → s.resumed.contains wid = false → w.nextReady = some r → w.record? r.seq = some r →
    (∀ l ∈ r.lanes, l < 32) → r.lanes.Nodup → r.results.Pairwise (fun a b => ¬ (a.lane = b.lane ∧ a.reg = b.reg)) →
    (r.inPlace = false → r.saved.map (·.lane) = r.lanes) →
    ∃ t x, exec (.recordResume wid r.seq) s = .next t ∧ t.warp? wid = some x ∧ x.record? r.seq = none ∧
      (∀ l ∈ r.lanes, (x.lane l).st = .runnable ∧ (x.lane l).pc = r.pc ∧ (x.lane l).half = r.half ∧ (x.lane l).repc = r.repc) ∧
      (∀ y ∈ r.results, y.reg ∉ r.exempt → y.lane < 32 → (x.lane y.lane).reg y.reg = y.val) ∧
      (∀ l < 32, ∀ n, (∀ y ∈ r.results, ¬ (y.lane = l ∧ y.reg = n)) ∨ n ∈ r.exempt → (x.lane l).reg n =
        match if r.inPlace then none else r.saved.find? (fun v => v.lane == l) with
        | some v => if n ∈ r.exempt then (w.lane l).reg n else v.regs.get n
        | none => (w.lane l).reg n) ∧
      (r.inPlace = false → ∀ v ∈ r.saved, (x.lane v.lane).fpx = v.fpx ∧ (x.lane v.lane).gen = v.gen) ∧
      (∀ v, v ≠ wid → t.warp? v = s.warp? v) ∧ { t with warps := [] } = { s with warps := [] }) ∧
  (∀ s wid seq, s.resumed.contains wid = true → exec (.recordResume wid seq) s = .next s) ∧
  (∀ s wid seq w r i pc idx k, s.warp? wid = some w → s.serves w = true → w.record? seq = some r → r.state = .waiting → r.old = {} →
    r.wait = .det pc idx k → r.instr = some i → s.requestTurn w pc idx k = true → (r.vals.map (·.lane)).Nodup →
    s.blockers w (atmShared i) 4 (r.vals.map (fun v => atmOffset i v.b0)) = [] →
    let sp := w.space (atmShared i)
    let addr (v : LaneVals) : Nat := s.spaceAddr w (atmShared i) (atmOffset i v.b0)
    let same (v : LaneVals) : List LaneVals := r.vals.filter (fun u => atmOffset i u.b0 == atmOffset i v.b0)
    let outcome (v : LaneVals) : List Word × Word :=
      let m := BitVec.ofNat 32 (s.numberAt sp (addr v) 4)
      let op := i.operands.mods 0 4
      let oneByOne (g : Word → LaneVals → Word) : List Word × Word := (same v).foldl (fun acc u => (acc.1 ++ [acc.2], g acc.2 u)) ([], m)
      if i.opcode = 0x249 then oneByOne (fun y u => if y = u.a0 then u.c0 else y)
      else if op ≤ 10 then combineLanes op m ((same v).map (·.a0))
      else oneByOne (fun y u => atmNew op y u.a0)
    (∀ v ∈ r.vals, atmOffset i v.b0 % 4 = 0 ∧ s.inImage sp (addr v) 4 = false ∧
      ∀ x, addr v ≤ x → x < addr v + 4 → sp = .spad w.die → ¬ r.bytesAt w x) →
    s.hasSpace sp → ∃ t, exec (.detRequestApply wid seq) s = .next t ∧
      (∀ v ∈ r.vals, t.numberAt sp (addr v) 4 = (outcome v).2.toNat) ∧
      ready t wid seq (fun rs => ∀ v ∈ r.vals, ∀ b, i.operands.d = .reg b →
        ({ lane := v.lane, reg := b, val := (outcome v).1.getD ((same v).idxOf v) 0 } : RegWrite) ∈ rs)) ∧
  (∀ s wid seq w r i, s.warp? wid = some w → s.serves w = true → w.record? seq = some r → r.state = .waiting → r.old = {} → r.instr = some i →
    let lane (v : LaneVals) := s.travLane w i (s.peerBase + 2 ^ 16 * v.lane) v
    r.wait = .traversal → r.lanes ≠ [] → (∀ v ∈ r.vals, (lane v).trap = none ∧ (lane v).waits = false) → ∃ t, exec (.traversalReadComplete wid seq) s = .next t ∧
      ready t wid seq (fun rs => rs = r.results ++ r.vals.flatMap (fun v => (lane v).ws))) ∧
  (∀ s wid seq w r i c, s.warp? wid = some w → s.serves w = true → w.record? seq = some r → r.state = .waiting → r.old = {} → r.instr = some i → s.ctx? w.ctx = some c →
    let out (v : LaneVals) := s.sampleTexture w c (s.texDesc w v.b0.toNat) (s.peerBase + 64 * v.lane) (v.a.getD 0 0).toNat
      (v.a.getD 1 0).toNat (v.a.getD 2 0).toNat
    r.wait = .texture → r.lanes ≠ [] → (∀ v ∈ r.vals, s.ownedLines w false v.b0.toNat 32 = [] ∧ ∃ ws ps, out v = .ok ws ps) → ∃ t, exec (.textureSampleComplete wid seq) s = .next t ∧
      ready t wid seq (fun rs => rs = r.results ++ r.vals.flatMap (fun v => match out v with
        | .ok ws _ => dstWrites v.lane i.operands.d (ws.map (BitVec.ofNat 32))
        | _ => []))) ∧
  (∀ s wid seq w r i v vs b, s.warp? wid = some w → s.serves w = true → w.record? seq = some r → r.state = .waiting → r.old = {} → r.instr = some i → r.wait = .gather →
    r.vals = v :: vs → i.operands.d = .reg b → s.gatherWaits w.die v.b0.toNat w.supervisor = false →
    let n := if i.operands.modBit 0 then 64 else 32
    let recs := (s.gatherRecords w.die v.b0.toNat v.a0.toNat w.supervisor).take n
    ∃ t, exec (.sampleGatherComplete wid seq) s = .next t ∧ ready t wid seq (fun rs => ∀ l ∈ r.lanes,
      ({ lane := l, reg := b + n / 8, val := BitVec.ofNat 32 recs.length } : RegWrite) ∈ rs ∧
      ∀ k < n / 32, ∀ j < 4, ({ lane := l, reg := b + 4 * k + j
                                val := BitVec.ofNat 32 (fieldOf (recs.getD (32 * k + l) []) (4 * j) 4) } : RegWrite) ∈ rs)) ∧
  (∀ s wid seq w r c u, s.warp? wid = some w → w.record? seq = some r → s.ctx? w.ctx = some c → (s.ctxs.map (·.id)).Nodup →
    ∀ e ∈ [Instr.waitTimeout wid seq, .detRequestApply wid seq, .traversalReadComplete wid seq, .textureSampleComplete wid seq,
      .sampleGatherComplete wid seq],
    exec e (s.seenUnder w.ctx r.old) = .next u → exec e s = .next (u.modCtx w.ctx (·.under (c.like r.old))))

/-- A line that a copy without a byte barrier owns and whose source is free takes the copy's bytes, as read before or
now, and is given up; a block of a main-memory destination is written byte by byte through the page entry held, but
for bytes that another copy wrote meanwhile and that win (the order of copies that race is a free choice by
assumption log 6); a copy to the other die asks for its lines there; a copy whose bytes are all written is over,
with its completion word stored or, where its line is owned, waiting for the release (assumption log 35), and one
whose completion word the other die refuses faults; one whose earlier bytes are written faults with the first
faulting byte's trap and address; a line of wb.clr is cleared; a forwarded record enters the ring of its tile once
its line is free, or FDROP counts it. No other byte of any memory changes. An operation issued under old window or
table registers goes on as under those, and the registers keep. When source bytes are read, that such a race is
settled byte by byte, and that the completion word waits are the model's choices (assumption logs 46, 6 and 35).
Copies with a byte barrier are the subject of ByteBarrierArrivals. (R31, R236, R237, R238, R239, R240, R243, R289,
R290, R291, R320, R365) -/
def Obligations.CopyEventResults : Prop :=
  let dst (c : CopyOp) : Side := (dirSides (cpDir c.desc)).2
  let last (c : CopyOp) (i : Nat) : Prop := ∀ j, i < j → j < cpTotal c.desc → cpTo c.desc j ≠ cpTo c.desc i
  (∀ s oid key o c, s.liveCopy oid = some (o, c) → o.old = {} → dst c ≠ .main → s.owns (.op oid) key = true →
    s.sourceFree o c (List.range (cpTotal c.desc)) = true → s.firstFault o c = none → cpBb c.desc = false →
    s.hasSpace (c.place o (dst c)).1 → s.noImages →
    let sp := (c.place o (dst c)).1
    let adr (i : Nat) : Nat := (c.place o (dst c)).2 + cpTo c.desc i
    let here (i : Nat) : Prop := i < cpTotal c.desc ∧ key ∈ spaceLines sp (adr i) 1
    (∃ i, here i) → ∃ t, exec (.engineLineRelease oid key) s = .next t ∧
      (∀ i, here i → last c i → t.byteAt sp (adr i) = s.copyByte o c i) ∧
      BytesKept s t (fun x a => x = sp ∧ ∃ i, here i ∧ a = adr i) ∧ t.owns (.op oid) key = false) ∧
  (∀ s oid o c b x, s.liveCopy oid = some (o, c) → o.old = {} → dst c = .main → b ∉ c.written → s.ctx? o.ctx = some x →
    s.sourceFree o c (List.range (cpTotal c.desc)) = true → s.firstFault o c = none → cpBb c.desc = false →
    (∃ i < cpTotal c.desc, cpTo c.desc i / 64 = b) → (x.tlb.find? (fun e => e.page == 64 * b / 2 ^ 16)).isSome = true →
    let to_ (i tgt pa : Nat) : Prop := i < cpTotal c.desc ∧ cpTo c.desc i / 64 = b ∧ cpTo c.desc i ∉ o.lost ∧
      s.translate x (cpTo c.desc i) .write = .ok tgt pa
    ∃ t, exec (.copyBlockWritten oid b) s = .next t ∧ (∀ sp a, t.byteAt sp a = s.byteAt sp a) ∧
      (∀ i pa, last c i → (to_ i 0 pa → Cells.get t.dram pa = s.copyByte o c i) ∧
        (to_ i 1 pa → Cells.get t.hostMem pa = s.copyByte o c i)) ∧
      (∀ pa, ((∀ i, ¬ to_ i 0 pa) → Cells.get t.dram pa = Cells.get s.dram pa) ∧
        ((∀ i, ¬ to_ i 1 pa) → Cells.get t.hostMem pa = Cells.get s.hostMem pa)) ∧
      ∃ p d, t.liveCopy oid = some (p, d) ∧ d.written = b :: c.written) ∧
  (∀ s oid o c, s.liveCopy oid = some (o, c) → o.old = {} → dst c = .other → c.remote = false →
    ∃ t, exec (.remoteLineAcquisition oid) s = .next t ∧ (∀ k ∈ c.lines o, k ∈ t.linesOfOwner (.op oid)) ∧
      (∀ k, s.isOwned k = true → t.ownerOf k = s.ownerOf k) ∧ { t with owned := [], ops := [], fresh := 0 } = { s with owned := [], ops := [], fresh := 0 }) ∧
  (∀ s oid o c, s.liveCopy oid = some (o, c) → o.old = {} → s.firstFault o c = none → c.wrote o (cpTotal c.desc) = true →
    let far := cpCwd c.desc = true ∧ (cpDir c.desc = 6 ∨ cpDir c.desc = 7)
    let off := cpCwOff c.desc
    let word (die base : Nat) : Prop := die < s.dies.length → s.noImages → ∃ t, exec (.copyComplete oid) s = .next t ∧ t.opOver oid ∧
      ((∀ k ∈ spaceLines (.spad die) (base + off) 4, s.isOwned k = false) →
        t.numberAt (.spad die) (base + off) 4 = cpCwVal c.desc ∧ t.words = s.words ∧ BytesKept s t (bytesFrom (.spad die) (base + off) 4)) ∧
      ((∃ k ∈ spaceLines (.spad die) (base + off) 4, s.isOwned k = true) →
        t.words = s.words ++ [⟨die, base + off, cpCwVal c.desc⟩] ∧ SameMemory s t)
    (cpCw c.desc = false → ∃ t, exec (.copyComplete oid) s = .next t ∧ t.opOver oid ∧ SameMemory s t) ∧
    (cpCw c.desc = true → ¬ far → word o.die c.base) ∧
    (cpCw c.desc = true → far → ∀ x, s.ctx? o.ctx = some x →
      let ok := x.windowOk (1 - o.die) off 4 (((s.warp? o.wid).map (·.supervisor)).getD false) = true
      (ok → off % 4 = 0 → word (1 - o.die) c.otherBase) ∧
      (¬ ok ∨ off % 4 ≠ 0 → cpBb c.desc = false → ∃ t, exec (.copyComplete oid) s = .next t ∧ SameMemory s t ∧
        t.op? oid = some { o with fault := some (if ok then 0x12 else 0x10, off) }))) ∧
  (∀ s oid o c i code faddr, s.liveCopy oid = some (o, c) → o.old = {} → s.firstFault o c = some (i, code, faddr) → c.wrote o i = true →
    cpBb c.desc = false →
    ∃ t, exec (.copyFault oid) s = .next t ∧ t.op? oid = some { o with fault := some (code, faddr) } ∧
      (∀ k, t.owns (.op oid) k = false) ∧ SameMemory s t) ∧
  (∀ s oid key o off len rel, s.op? oid = some o → o.old = {} → o.kind = .clear off len rel → o.complete = false → s.owns (.op oid) key = true →
    s.hasSpace (keyPlace key).1 → s.noImages →
    ∃ t, exec (.engineLineRelease oid key) s = .next t ∧
      (∀ j < 128, t.byteAt (keyPlace key).1 (128 * (keyPlace key).2 + j) = 0) ∧
      BytesKept s t (bytesFrom (keyPlace key).1 (128 * (keyPlace key).2) 128) ∧ t.owns (.op oid) key = false ∧
      ((∀ k ∈ s.linesOfOwner (.op oid), k = key) → t.opOver oid)) ∧
  (∀ s oid o n bs, s.op? oid = some o → o.old = {} → o.kind = .forward n bs → o.complete = false → 1 - o.die < s.dies.length → s.noImages →
    (∀ x ∈ s.ops.takeWhile (fun x => x.oid != oid), x.wid = o.wid → x.complete = true ∨ ∀ m b, x.kind ≠ .forward m b) →
    let d := 1 - o.die
    let r := (s.die d).render
    let i := (r.widx.get n).toNat
    (∀ a, r.inGrid n = true → s.ringPlace d n (s.opLevel o) = some a → s.slotOwned d a i = true → exec (.forwardedRecordArrival oid) s = .next s) ∧
    (∀ a, r.inGrid n = true → s.ringPlace d n (s.opLevel o) = some a → s.slotOwned d a i = false →
      ∃ t, exec (.forwardedRecordArrival oid) s = .next t ∧ t.opOver oid ∧
      t.bytesAt (.spad d) (a + 16 * i) bs.length = bs ∧ BytesKept s t (bytesFrom (.spad d) (a + 16 * i) bs.length) ∧
      ((t.die d).render.widx.get n).toNat = (i + 1) % 64 ∧
      ((t.die d).render.fill.get n).toNat = min ((r.fill.get n).toNat + 1) 64) ∧
    ((r.inGrid n = false ∨ s.ringPlace d n (s.opLevel o) = none) → ∃ t, exec (.forwardedRecordArrival oid) s = .next t ∧ t.opOver oid ∧
      (t.die d).render = { r with fdrop := r.fdrop + 1 } ∧ SameMemory s t)) ∧
  (∀ s oid o c u key b, s.op? oid = some o → s.ctx? o.ctx = some c → (s.ctxs.map (·.id)).Nodup →
    ∀ e ∈ [Instr.engineLineRelease oid key, .copyBlockWritten oid b, .remoteLineAcquisition oid, .copyComplete oid, .copyFault oid,
      .forwardedRecordArrival oid],
    (e = .copyBlockWritten oid b ∨ e = .copyFault oid → ∀ x ∈ s.ops, x.ctx = o.ctx → x.old = o.old) →
    exec e (s.seenUnder o.ctx o.old) = .next u → exec e s = .next (u.modCtx o.ctx (·.under (c.like o.old))))

/-- Where the barrier lies apart from the bytes of the copy: each line that a copy releases, and each block of main
memory that it writes, arrives at the copy's byte barrier with the number of its bytes, REM falling by it and GEN
rising by one exactly when REM comes to 0; a copy that faults, also on a completion word that the other die refuses,
enters its trap in FLT when FLT is 0; and no other byte of the barrier and of any on-die memory changes. That an
arrival and FLT do not wait for a line that an operation owns is the model's choice (assumption log 35). Arrivals of
sensor units are stated in HostAndDeviceEventResults. (R289, R291, R294) -/
def Obligations.ByteBarrierArrivals : Prop :=
  let word (n : Nat) : Word := BitVec.ofNat 32 n
  let arrived (s t : State) (sp : Space) (a n : Nat) : Prop :=
    word (t.numberAt sp a 4) = word (s.numberAt sp a 4) - word n ∧
    word (t.numberAt sp (a + 4) 4) = (if word (s.numberAt sp a 4) = word n then word (s.numberAt sp (a + 4) 4) + 1
      else word (s.numberAt sp (a + 4) 4)) ∧
    t.numberAt sp (a + 8) 8 = s.numberAt sp (a + 8) 8
  let faulted (s t : State) (o : EngineOp) (c : CopyOp) (code faddr : Nat) : Prop :=
    let sp := Space.shared (o.block.getD 0)
    let bb := cpBbOff c.desc
    t.op? o.oid = some { o with fault := some (code, faddr) } ∧ (∀ k, t.owns (.op o.oid) k = false) ∧
    t.numberAt sp (bb + 8) 4 = (if s.numberAt sp (bb + 8) 4 % 64 = 0 then s.numberAt sp (bb + 8) 4 + code else s.numberAt sp (bb + 8) 4) ∧
    BytesKept s t (bytesFrom sp (bb + 8) 4)
  ∀ s oid o c, s.liveCopy oid = some (o, c) → o.old = {} → cpBb c.desc = true → s.hasSpace (.shared (o.block.getD 0)) →
    let d := (dirSides (cpDir c.desc)).2
    let bar := Space.shared (o.block.getD 0)
    let bb := cpBbOff c.desc
    (∀ key, d ≠ .main → s.owns (.op oid) key = true → s.sourceFree o c (List.range (cpTotal c.desc)) = true →
      s.firstFault o c = none → s.hasSpace (c.place o d).1 → s.noImages →
      let sp := (c.place o d).1
      let adr (i : Nat) : Nat := (c.place o d).2 + cpTo c.desc i
      let here := (List.range (cpTotal c.desc)).filter (fun i => (spaceLines sp (adr i) 1).contains key)
      here ≠ [] → (∀ i ∈ here, sp = bar → adr i < bb ∨ bb + 16 ≤ adr i) → ∃ t, exec (.engineLineRelease oid key) s = .next t ∧
        arrived s t bar bb here.length ∧
        BytesKept s t (fun x a => bytesFrom bar bb 8 x a ∨ (x = sp ∧ ∃ i ∈ here, a = adr i))) ∧
    (∀ b x, d = .main → b ∉ c.written → s.ctx? o.ctx = some x → s.sourceFree o c (List.range (cpTotal c.desc)) = true →
      s.firstFault o c = none →
      let here := (List.range (cpTotal c.desc)).filter (fun i => cpTo c.desc i / 64 == b)
      here ≠ [] → ∃ t, exec (.copyBlockWritten oid b) s = .next t ∧ arrived s t bar bb here.length ∧
        BytesKept s t (bytesFrom bar bb 8)) ∧
    (∀ i code faddr, s.firstFault o c = some (i, code, faddr) → c.wrote o i = true → code < 64 →
      ∃ t, exec (.copyFault oid) s = .next t ∧ faulted s t o c code faddr) ∧
    (∀ x, s.firstFault o c = none → c.wrote o (cpTotal c.desc) = true → cpCw c.desc = true → cpCwd c.desc = true →
      (cpDir c.desc = 6 ∨ cpDir c.desc = 7) → s.ctx? o.ctx = some x →
      let ok := x.windowOk (1 - o.die) (cpCwOff c.desc) 4 (s.opLevel o) = true
      (¬ ok ∨ cpCwOff c.desc % 4 ≠ 0) → ∃ t, exec (.copyComplete oid) s = .next t ∧
        faulted s t o c (if ok then 0x12 else 0x10) (cpCwOff c.desc))

/-- An operation starts once those before it have and its source lines are free; in drain mode its next row, of the
source bytes read before or now, goes to the oldest record that waits on its queue or into the queue; the first
operation of a core completes once its rows are pushed: its ticket is the warp's last completed one, a register-mode
tile of the source bytes stands in v[ACC] upward, and records of the warp capture the words of the live registers
that it held. A put whose first source word can be read lands in the open slot that its handle, width and expert
name, or is dropped and counted; it arrives in staging and sets its bit, and a full slot closes; a slot whose
deadline has passed closes with SUB; the releasable slot whose turn it is writes its output, gives up its lines,
stores its completion word or, where its line is owned, leaves it to the release, and is released. An operation
issued under old registers goes on as under those. When source bytes are read, and that a completion word on an
owned line is left to the release, are the model's choices (assumption logs 46 and 35). (R218, R239, R299, R300,
R303, R304, R316, R317, R402, R404, R405, R406) -/
def Obligations.MatrixAndCombineEventResults : Prop :=
  let full (x : CmbSlot) : Nat := 2 ^ x.experts.length - 1
  let quiet (s t : State) : Prop := { t with ops := [] } = { s with ops := [] }
  let reads (s : State) (o : EngineOp) (m m' : MatrixOp) : Prop :=
    let b := o.block.getD 0
    m'.params = m.params ∧ m'.ticket = m.ticket ∧ m'.rows = m.rows ∧ (o.early = [] → m.bCols = [] →
      m'.aRows ++ [m'.aScales] = (mmAExtents m.params).map (fun x => s.bytesAt (.shared b) x.1 x.2) ∧
      m'.bCols ++ [m'.bScales] = (mmBExtents m.params).map (fun x => s.bytesAt (.weight b) x.1 x.2))
  (∀ s oid o m, s.op? oid = some o → o.old = {} → o.kind = .matrix m → m.started = false →
    (∀ x ∈ (s.matrixOps o.die o.core).takeWhile (fun x => x.1.oid != oid), x.2.started = true) →
    let b := o.block.getD 0
    (∀ x ∈ mmAExtents m.params, ∀ k ∈ spaceLines (.shared b) x.1 x.2, s.isOwned k = false) →
    (∀ x ∈ mmBExtents m.params, ∀ k ∈ spaceLines (.weight b) x.1 x.2, s.isOwned k = false) →
    ∃ t, exec (.matrixStart oid) s = .next t ∧ t.op? oid = some { o with kind := .matrix { m with started := true } } ∧ quiet s t) ∧
  (∀ s oid o m b, s.op? oid = some o → o.old = {} → o.kind = .matrix m → m.started = true → mmDrain m.params = true → m.rows < mmM m.params →
    (∀ x ∈ (s.matrixOps o.die o.core).takeWhile (fun x => x.1.oid != oid),
      ¬ (mmDrain x.2.params = true ∧ mmQueue x.2.params = mmQueue m.params ∧ x.2.rows < mmM x.2.params)) →
    s.block? (o.block.getD 0) = some b →
    let q := mmQueue m.params
    let m' := s.readMatrix o m m.rows
    let row := (List.range 64).map (fun j => if j < mmN m.params then BitVec.ofNat 32 (m'.element m.rows j 0) else 0)
    let next (t : State) : Prop := t.op? oid = some { o with kind := .matrix { m' with rows := m.rows + 1 } } ∧ reads s o m m' ∧
      ∃ c, t.block? (o.block.getD 0) = some c ∧ (c.mxq q).reserved = (b.mxq q).reserved - 1
    (s.waiters (waitsMxq (o.block.getD 0) q) = [] → ∃ t c, exec (.mxqRowPush oid) s = .next t ∧ next t ∧
      t.block? (o.block.getD 0) = some c ∧ (c.mxq q).entries = (b.mxq q).entries ++ [row] ∧ t.warps = s.warps) ∧
    (∀ w r rest i v, s.waiters (waitsMxq (o.block.getD 0) q) = (w, r) :: rest → s.warp? w.wid = some w → w.record? r.seq = some r →
      r.instr = some i → i.operands.d = .reg v → ∃ t x y, exec (.mxqRowPush oid) s = .next t ∧ next t ∧
        t.warp? w.wid = some x ∧ x.record? r.seq = some y ∧ y.state = .ready ∧ ∀ l ∈ r.lanes,
          ({ lane := l, reg := v, val := row.getD (2 * l) 0 } : RegWrite) ∈ y.results ∧
          ({ lane := l, reg := v + 1, val := row.getD (2 * l + 1) 0 } : RegWrite) ∈ y.results ∧
          ({ lane := l, reg := v + 2, val := 0 } : RegWrite) ∈ y.results)) ∧
  (∀ s oid o m w, s.op? oid = some o → o.old = {} → o.kind = .matrix m → m.started = true → s.warp? o.wid = some w → w.lanes.length = 32 →
    (s.matrixOps o.die o.core).head?.map (·.1.oid) = some oid → (mmDrain m.params = true → m.rows = mmM m.params) →
    let p := m.params
    let inTile (l k : Nat) : Prop := mmDrain p = false ∧ ∃ x < mmM p * mmN p, l = x % 32 ∧ k = mmAcc p + x / 32
    let m' := s.readMatrix o m 0
    let kept (r : Record) : Record := { r with saved := [] }
    ∃ t x, exec (.matrixComplete oid) s = .next t ∧ t.warp? o.wid = some x ∧ x.matC = m.ticket ∧ (∀ y ∈ t.ops, y.oid ≠ oid) ∧
      { t.bare with ops := [] } = { s.bare with ops := [] } ∧ (∀ v, v ≠ o.wid → t.warp? v = s.warp? v) ∧
      { x with lanes := [], matC := 0, records := x.records.map kept } = { w with lanes := [], matC := 0, records := w.records.map kept } ∧
      (∀ p ∈ w.records.zip x.records, ∀ v ∈ p.1.saved.zip p.2.saved, { v.2 with regs := v.1.regs } = v.1 ∧ ∀ n, v.2.regs.get n =
        if n ∈ p.1.exempt ∧ n ∈ p.1.live ∧ mmDrain m.params = false ∧ mmAcc m.params ≤ n ∧ n < mmAcc m.params + mmRegs m.params then (x.lane v.1.lane).reg n
        else v.1.regs.get n) ∧
      BytesKept s t (fun sp a => sp = .spad w.die ∧ ∃ r ∈ w.records, r.bytesAt w a) ∧ reads s o m m' ∧
      (mmDrain p = false → ∀ n < mmM p * mmN p, (w.lane (n % 32)).st ≠ .ended → (x.lane (n % 32)).reg (mmAcc p + n / 32) =
        BitVec.ofNat 32 (m'.element (n / mmN p) (n % mmN p)
          (if mmInit p = true then ((w.lane (n % 32)).reg (mmAcc p + n / 32)).toNat else 0))) ∧
      ∀ l k, ¬ inTile l k → (x.lane l).reg k = (w.lane l).reg k) ∧
  (∀ s oid o p, s.op? oid = some o → o.old = {} → o.kind = .put p → p.landing = none → o.complete = false → p.handle / 2 ^ 13 % 2 < s.dies.length →
    (∀ q ∈ s.putAhead o p, q.landing ≠ none) → s.sourceReady o (.spad o.die) p.source p.size = true →
    let d := p.handle / 2 ^ 13 % 2
    let dropped (t : State) : Prop := t.opOver oid ∧ (t.die d).cmbDrop = (s.die d).cmbDrop + 1 ∧ SameMemory s t
    (∀ x k, s.liveSlot o.ctx p.handle = some (d, x) → x.state = .opened → p.width = x.width → x.experts.idxOf? p.expert = some k →
      bitOf x.arr k = false → (∀ y ∈ s.landing p.handle, y.2.landing ≠ some k) → ∃ t, exec (.putFirstByte oid) s = .next t ∧
        t.op? oid = some { o with kind := .put { p with landing := some k } } ∧ quiet s t) ∧
    (s.liveSlot o.ctx p.handle = none → ∃ t, exec (.putFirstByte oid) s = .next t ∧ dropped t) ∧
    (∀ x, s.liveSlot o.ctx p.handle = some (d, x) → x.state ≠ .opened → ∃ t, exec (.putFirstByte oid) s = .next t ∧ dropped t ∧
      t.slot d x.slot = { x with late := min 255 (x.late + 1) }) ∧
    (∀ x, s.liveSlot o.ctx p.handle = some (d, x) → x.state = .opened → (p.width ≠ x.width ∨ x.experts.idxOf? p.expert = none ∨
      ∃ k, x.experts.idxOf? p.expert = some k ∧ (bitOf x.arr k = true ∨ ∃ y ∈ s.landing p.handle, y.2.landing = some k)) →
      ∃ t, exec (.putFirstByte oid) s = .next t ∧ dropped t ∧ t.slot d x.slot = x)) ∧
  (∀ s oid o p k x, s.op? oid = some o → o.old = {} → o.kind = .put p → p.landing = some k → o.complete = false →
    let d := p.handle / 2 ^ 13 % 2
    s.liveSlot o.ctx p.handle = some (d, x) → x.state = .opened → s.slotHasLines d x = true → s.putAhead o p = [] →
    d < s.dies.length → s.noImages →
    s.sourceReady o (.spad o.die) p.source (p.width * p.size) = true →
    (x.arr ||| 2 ^ k ≠ full x → ∃ t, exec (.putArrival oid) s = .next t ∧ t.opOver oid ∧
      t.slot d x.slot = { x with arr := x.arr ||| 2 ^ k } ∧
      (∀ j < p.width, t.numberAt (.spad d) (x.base + x.stage + 4 * x.width * k + 4 * j) 4 = (s.putWords o p).getD j 0 % 2 ^ 32) ∧
      BytesKept s t (bytesFrom (.spad d) (x.base + x.stage + 4 * x.width * k) (4 * p.width))) ∧
    (x.arr ||| 2 ^ k = full x → ∃ t, exec (.putArrival oid) s = .next t ∧ t.opOver oid ∧
      (t.slot d x.slot).state = .closed ∧ (t.slot d x.slot).arr = full x ∧ (t.slot d x.slot).sub = 0)) ∧
  (∀ s d k n, d < s.dies.length → (s.slot d k).state = .opened → (s.slot d k).deadline = some n → n ≤ (s.die d).clkr →
    let x := s.slot d k
    ∃ t, exec (.combineDeadline d k) s = .next t ∧ t.slot d k = { x with state := .closed, sub := full x - x.arr
                                                                         late := min 255 (x.late + (s.landing (slotHandle d x)).length) } ∧
      (s.landing (slotHandle d x) = [] → SameMemory s t)) ∧
  (∀ s d k, d < s.dies.length → s.releaseTurn d (s.slot d k) = true → s.noImages →
    let x := s.slot d k
    let bs := (List.range x.width).flatMap (fun j => x.encode (s.combined d x j))
    let asked := bitOf x.ctl 6 = true
    let word := asked ∧ ∀ y ∈ spaceLines (.spad d) (x.base + x.cwoff) 4, (s.releaseLines (.slot d k) (x.lines d)).isOwned y = false
    ∃ t, exec (.combineRelease d k) s = .next t ∧ t.slot d k = { x with state := .released } ∧
      (∀ y ∈ x.lines d, t.owns (.slot d k) y = false) ∧
      (∀ m < bs.length, ¬ (word ∧ x.cwoff ≤ x.out + m ∧ x.out + m < x.cwoff + 4) → t.spadAt d (x.base + x.out + m) = bs.getD m 0) ∧
      (word → t.numberAt (.spad d) (x.base + x.cwoff) 4 = x.cwval % 2 ^ 32) ∧
      (asked → ¬ word → t.words = s.words ++ [⟨d, x.base + x.cwoff, x.cwval⟩]) ∧ (¬ (asked ∧ ¬ word) → t.words = s.words) ∧
      BytesKept s t (fun y a => bytesFrom (.spad d) (x.base + x.out) bs.length y a ∨
        (word ∧ bytesFrom (.spad d) (x.base + x.cwoff) 4 y a))) ∧
  (∀ s oid o c u, s.op? oid = some o → s.ctx? o.ctx = some c → (s.ctxs.map (·.id)).Nodup →
    ∀ e ∈ [Instr.matrixStart oid, .mxqRowPush oid, .matrixComplete oid, .putFirstByte oid, .putArrival oid],
    exec e (s.seenUnder o.ctx o.old) = .next u → exec e s = .next (u.modCtx o.ctx (·.under (c.like o.old))))

/-- A core starts the task at the owner end of its deque, or steals the one at a thief end: the task's warp exists at
the task's entry with its arguments and its TCB is running. A parked record of a user warp gets a handler warp at
TRAPV with Table 21.1 in v0 to v8, and is escalated at once where the context has no handler entry. A queue's next
record becomes a launch that waits, or is refused, and PROG counts it; a TAIL too far ahead stops the queue. The
next block of a launch stands on a core with its warps at entry. A block of class RT is given a core. A drain that
lasts too long becomes a save, and a saved block leaves its core with its records, those of sets held in place in
full, and waits on a copy of its that has faulted are left to their timeouts. Queues switch out once no block of
theirs is on a core, and in; TAIL takes writes; ERR is cleared while EN and IN are 0. The bytes of a save image read
0 while it lies there (R437). Which core a waiting block of class RT is given, what a save keeps and where its image
lies, and the Launch Processor's other conventions are the model's choices (assumption logs 35, 36, 37 and 38).
(R32, R163, R327, R328, R426, R431, R432, R435, R437, R458, R460, R462) -/
def Obligations.WorkEventResults : Prop :=
  let word (n : Nat) : Word := BitVec.ofNat 32 n
  let starts (s : State) (i : Instr) (die core ctx victim t : Nat) (owner : Bool) (l : Launch) : Prop :=
    let v := coreWarp die core ctx
    let a := (s.deque v victim).1
    let b := s.spaceAddr v false t
    let args := (List.range 8).map (fun k => word (s.tcbField v t (4 + 4 * k) 4))
    s.dqPeek v victim owner = some t → (a + 8 ≤ b ∨ b + 64 ≤ a) → die < s.dies.length → s.noImages →
    s.launches.find? (fun l => l.ctx == ctx && l.die == die && l.tag == s.tcbField v t 60 2 && l.running) = some l →
    ∃ u w, exec i s = .next u ∧ u.warps.getLast? = some w ∧ w.atEntry (s.tcbField v t 0 4) args ∧ w.kind = .task ∧
      w.die = die ∧ w.core = core ∧ w.ctx = ctx ∧ w.launch = l.lid ∧ w.tcb = word t ∧ w.image = l.image ∧
      w.footprint = 32 * (s.tcbField v t 46 2 % 32) ∧ w.frame = s.tcbField v t 46 2 / 32 ∧ w.depth = s.tcbDepth v t ∧
      w.prioClass = l.lrec.cls ∧ w.prioLevel = l.lrec.level ∧ u.tcbState v t = 3 ∧ u.dqCount v victim = s.dqCount v victim - 1
  (∀ s die core ctx t l, s.ownTaskFits die core ctx = true → starts s (.taskStart die core ctx) die core ctx core t true l) ∧
  (∀ s die core ctx c t l, s.ownTaskFits die core ctx = false → s.victim die core ctx = some c →
    starts s (.taskSteal die core ctx) die core ctx c t false l) ∧
  (∀ s wid seq w r c, s.warp? wid = some w → w.record? seq = some r → s.ctx? w.ctx = some c →
    c.escalated = none → (c.trapv.toNat < 8 → r.state = .faulted → r.dispatched = false → ∃ t d, exec (.handlerDispatch wid seq) s = .next t ∧ t.ctx? w.ctx = some d ∧ d.escalated = some (wid, seq)) ∧
    (∀ m s1 core segs, (s.undispatched w.ctx w.die).head? = some (w, r) → s.handlersOn w.ctx w.die < 16 → 8 ≤ c.trapv.toNat →
      s.readImage w.ctx c.suph = (some m, s1) →
      lowestCore (fun k => s1.warpsFit w.die k { units := m.1.regs / 32, warps := 1 }) = some core →
      s1.findSegments w.ctx w.die 1 [] = some segs →
      ∃ t h, exec (.handlerDispatch wid seq) s = .next t ∧ t.warps.getLast? = some h ∧ h.kind = .handler ∧ h.die = w.die ∧
        h.core = core ∧ h.ctx = w.ctx ∧ h.handlerFor = some (wid, seq) ∧ h.image = m.1 ∧
        h.atEntry (c.trapv.toNat / 8 * 8) [word (s.recordOffset w r), word r.trap, r.who, r.blk, word r.faddr, word (r.faddr / 2 ^ 32),
          word (r.faddr / 2 ^ 64 % 2 ^ 8), word (r.pc / 8 * 8 + r.half % 2), word r.event])) ∧
  (∀ s q, (s.queue q).pending = true →
    let x := s.queue q
    let base := x.base0.toNat + x.base1.toNat * 2 ^ 32 + x.base2.toNat * 2 ^ 64
    (2 ^ x.log2n < (x.tail - x.prog).toNat → ∃ t, exec (.launchRecordRead q) s = .next t ∧ (t.queue q).err = true ∧
      (t.queue q).stopped = true ∧ t.launches = s.launches) ∧
    (∀ bs s1, (x.tail - x.prog).toNat ≤ 2 ^ x.log2n → s.procRead x.ctx (base + 128 * (x.prog.toNat % 2 ^ x.log2n)) 128 = (some bs, s1) →
      (recordOf bs).list = false →
      let r := s1.readLaunch x.ctx (recordOf bs)
      let reason := s.launchReason x.ctx x.die x.cls (recordOf bs) r.1 r.2.1
      (reason = 0 → ∃ t l, exec (.launchRecordRead q) s = .next t ∧ t.launches = s.launches ++ [l] ∧ l.lrec = recordOf bs ∧
        l.phase = .waiting ∧ l.ctx = x.ctx ∧ l.die = x.die ∧ l.kind = .queue q x.prog.toNat ∧ (t.queue q).prog = x.prog + 1) ∧
      (reason ≠ 0 → (∀ l ∈ s.launches, l.lid ≠ 0) → ∃ t, exec (.launchRecordRead q) s = .next t ∧ t.launches = s.launches ∧
        (t.queue q).prog = x.prog + 1))) ∧
  (∀ s lid l core segs, s.launch? lid = some l → (s.placeOrder l.die).head? = some l → l.phase ≠ .waiting → l.isSample = false →
    s.restarts l = [] → s.coreFor l = some core → s.findSegments l.ctx l.die l.need.warps [] = some segs →
    ∃ t b ws, exec (.blockPlace lid) s = .next t ∧ t.blocks = s.blocks ++ [b] ∧ t.warps = s.warps ++ ws ∧
      b.core = core ∧ b.die = l.die ∧ b.launch = lid ∧ b.index = l.nextBlock ∧ b.residency = .resident ∧ b.shared = [] ∧
      ws.length = l.parts.length ∧ ∀ w ∈ ws, w.block = some b.bid ∧ w.kind = .block ∧ w.core = core ∧ w.die = l.die ∧ w.ctx = l.ctx ∧
        w.blockIdx = l.nextBlock ∧ w.nwarp = l.parts.length ∧ w.footprint = l.image.regs ∧ w.prioClass = l.lrec.cls ∧
        w.atEntry l.image.entry (paramWords l.image l.args)) ∧
  (∀ s die core l rest, s.placeOrder die = l :: rest → l.rtCore ≠ some core → s.rtCoreFor l = some core →
    (s.warps.map (·.wid)).Nodup → ∃ t, exec (.rtPreempt die core) s = .next t ∧
      (∃ x, t.launch? l.lid = some x ∧ x.rtCore = some core) ∧
      ∀ w ∈ t.warpsOn die core, w.prioClass ≠ 0 → ∀ k < 32, (w.lane k).st ≠ .runnable ∧ (w.lane k).st ≠ .held) ∧
  (∀ s bid b n, s.block? bid = some b → b.residency = .draining n → n + 2 ^ 20 ≤ (s.die b.die).clkr →
    ∃ t c, exec (.drainTimeout bid) s = .next t ∧ t.block? bid = some c ∧ c.residency = .saving) ∧
  (∀ s bid b base, s.block? bid = some b → b.residency = .saving → s.quietBlock b = true → b.die < s.dies.length →
    s.imagePlace b = some base → ∃ t c, exec (.blockSave bid) s = .next t ∧ t.block? bid = some c ∧
      c.residency = .saved ∧ c.imageBase = base ∧ c.imageLen = (s.imageSize b + 4095) / 4096 * 4096 ∧ c.shared = b.shared ∧ c.wb = b.wb ∧
      (let saved := s.warps.map (fun w => if w.block = some bid then
         { w with resident := false, active := false, records := w.records.map w.savedRecord } else w)
       let plain (w : Warp) : Warp := { w with records := w.records.map (fun r => match r.wait with
         | .copy h _ => { r with wait := .copy h false }
         | _ => r) }
       t.warps.map plain = saved.map plain ∧
         ((∀ o ∈ s.ops, o.fault = none ∨ ∀ w ∈ s.warpsOf bid, o.wid ≠ w.wid) → t.warps = saved)) ∧
      (∀ w ∈ s.warpsOf bid, ∀ r ∈ w.records, ∀ k, r.place = .slot k → r.state = .ready →
        (w.savedRecord r).inPlace = false ∧ (w.savedRecord r).live = List.range w.footprint ∧
          (w.savedRecord r).saved.map (·.lane) = r.lanes ∧
          ∀ v ∈ (w.savedRecord r).saved, ∀ k < w.footprint, v.regs.get k = (w.lane v.lane).reg k) ∧
      BytesKept s t (bytesFrom (.spad b.die) base c.imageLen) ∧ ∀ k < c.imageLen, t.spadAt b.die (base + k) = 0) ∧
  (∀ s q, q < s.queues.length →
    let x := s.queue q
    (x.en = true → ∃ t, exec (.queueSwitchOut q) s = .next t ∧ (t.queue q).en = false ∧
      ((∀ b ∈ s.queueBlocks q, b.onCore = false) → (t.queue q).swIn = false ∧ (t.queue q).switching = .idle)) ∧
    (x.en = false → x.switching = .idle → (∀ b ∈ s.queueBlocks q, b.residency ≠ .saved) → ∃ t, exec (.queueSwitchIn q) s = .next t ∧
      (t.queue q).en = true ∧ (t.queue q).swIn = true ∧ (t.queue q).switching = .idle ∧ (t.queue q).tail = x.latched.getD x.tail ∧ t.blocks = s.blocks ∧
      ((t.queue q).stopped = true ↔ x.stopped = true ∧ (x.err = true ∨ ¬ (x.rewritten = true ∨ x.latched.isSome = true)))) ∧
    (∃ t, exec (.qctlErrClear q) s = .next t ∧ t.queue q = (if x.en = true ∨ x.swIn = true then x
        else { x with err := false, stopped := x.stopped && !x.rewritten, rewritten := false }) ∧ { t with queues := [] } = { s with queues := [] }) ∧
    (∀ v, ∃ t, exec (.tailWrite q v) s = .next t ∧ { t with queues := [], arrivals := 0 } = { s with queues := [], arrivals := 0 } ∧
      (if x.en = true ∧ x.swIn = true ∧ x.switching = .idle then (t.queue q).tail = v ∧ (t.queue q).latched = x.latched ∧
          ((t.queue q).stopped = true ↔ x.stopped = true ∧ x.err = true)
       else (t.queue q).latched = some v ∧ (t.queue q).tail = x.tail)))

/-- A watchdog at its limit with an unfinished launch, an uncorrectable error in each affected context, the loss of the
die bridge in each context with work, the last event of the dump of an escalated context, a retire of a context
whose queues are out and a thermal trip leave no warp, block, engine operation or launch of these contexts. An
accepted descriptor adds its context and CTXST is 2; a refused create or retire leaves the contexts and CTXST is 3.
The dump of an escalated context that is quiet, with no read in flight, begins, then takes a section at a time as
far as bytes can be written (that it goes in steps is the model's, assumption log 39; that a descriptor beyond
device DRAM is refused, log 41; what memories keep across a thermal trip, log 42). (R427, R439, R441, R442, R443,
R446, R453, R456, R457, R473, 23_dies_host_and_startup.md) -/
def Obligations.ContextEventResults : Prop :=
  (∀ s ctx c, s.ctx? ctx = some c → c.wdgEn = true → c.wdgCount = 2 ^ c.wdgK.toNat → s.unfinished ctx = true →
    ∃ t, exec (.watchdogExpiry ctx) s = .next t ∧ t.goneOf ctx) ∧
  (∀ s p, ∃ t, exec (.uncorrectableError p) s = .next t ∧ ∀ c ∈ s.errorCtxs p, t.goneOf c) ∧
  (∀ s, ∃ t, exec .dieBridgeLinkLoss s = .next t ∧ ∀ d < 2, ∀ c ∈ s.workingOn d, t.goneOf c) ∧
  (∀ s ctx c, s.ctx? ctx = some c → c.escalated ≠ none → c.dumped = false →
    (c.dumping = none → s.quiet (((s.warps.filter (fun w => w.ctx == ctx)).map (·.wid)).contains) = true →
      (∀ w ∈ s.warps, w.ctx = ctx → w.reading = false) →
      ∃ t, exec (.coreDump ctx) s = .next t ∧ t = s.modCtx ctx (fun x => { x with dumping := some {} })) ∧
    (∀ d, c.dumping = some d → d.next < 5 → d.cut = none →
      let bs := s.sectionBytes c d
      let n := (s.dumpReach c d bs.length).1
      ∃ t x, exec (.coreDump ctx) s = .next t ∧ t.ctx? ctx = some x ∧ x.dumped = false ∧ t.warps = s.warps ∧ t.launches = s.launches ∧
        x.dumping = some { d with next := d.next + 1, stop := d.stop + n, cut := (s.dumpReach c d bs.length).2 } ∧
        (s.firstWriteTrap c (c.dumpb + d.stop) bs.length = none → d.stop + bs.length ≤ c.dumps → n = bs.length) ∧
        ∀ sp a, t.byteAt sp a = s.byteAt sp a) ∧
    (∀ d, c.dumping = some d → (5 ≤ d.next ∨ d.cut ≠ none) →
      ∃ t x, exec (.coreDump ctx) s = .next t ∧ t.goneOf ctx ∧ t.ctx? ctx = some x ∧ x.dumped = true)) ∧
  (∀ s id,
    let a := s.ctxa1.toNat % 2 ^ 20 * 2 ^ 32 + s.ctxa0.toNat / 128 * 128
    let d := (List.range 128).map (fun k => Cells.get s.dram (a + k))
    let ok := a + 128 ≤ 2 ^ 36 ∧ s.descOk id d = true
    (ok → ∃ t, exec (.contextCreate id) s = .next t ∧ t = { s with ctxs := s.ctxs ++ [contextOf id d], ctxst := 2 }) ∧
    (¬ ok → ∃ t, exec (.contextCreate id) s = .next t ∧ t = { s with ctxst := 3 })) ∧
  (∀ s id,
    let busy := ∃ q ∈ s.queues, q.ctx = id ∧ (q.en = true ∨ q.swIn = true)
    ((s.ctx? id).isSome = true → ¬ busy → ∃ t, exec (.contextRetire id) s = .next t ∧ t.goneOf id ∧ t.ctx? id = none ∧ t.ctxst = 2 ∧
      ∀ d, (t.die d).render.ownerV = true → (t.die d).render.ownerCtx ≠ id) ∧
    ((s.ctx? id = none ∨ busy) → ∃ t, exec (.contextRetire id) s = .next t ∧ t = { s with ctxst := 3 })) ∧
  (∀ s temp, 110 ≤ temp → ∀ e ∈ [Instr.thermalTrip temp, .thermalDrop temp], ∃ t, exec e s = .next t ∧ (∀ c ∈ s.ctxs, t.goneOf c.id) ∧ t.clocksStopped = true ∧
    t.trainingValid = false ∧ t.retentionValid = false ∧ t.temp = temp)

/-- Sections start at multiples of 256 bytes from 256 on, each at the next one past its predecessor. The header, the
section entries and the items hold, field by field, what Tables 21.8 to 21.10 say: a REGS item its warp's words and
its records with every register of the footprint, the captured word of a live one, what a matrix operation left in
an exempt one, and the words as they stand of a set in place; a SHARED item the block's shared memory, weight-buffer
allocation and queues; a SPAD item the window with its spill stacks; a BARR item barriers, rings and queue counts; a
COPY item the fault and the descriptor. (R220, R444, R445, 21_faults_and_preemption.md Table 21.8,
21_faults_and_preemption.md Table 21.9, 21_faults_and_preemption.md Table 21.10) -/
def Obligations.DumpContents : Prop :=
  let at_ (y : List Byte) (lo n v : Nat) : Prop := fieldOf y lo n = v % 2 ^ (8 * n)
  (∀ xs : List (List (List Byte)), let p := placeSections 256 xs
    p.map (·.2) = xs ∧ (∀ x ∈ p.head?, x.1 = 256) ∧
    ∀ k, k + 1 < p.length → (p.getD (k + 1) (0, [])).1 = ((p.getD k (0, [])).1 + ((xs.getD k []).flatMap id).length + 255) / 256 * 256) ∧
  (∀ stop (begun : Bool) off (xs : List (List Byte)), let y := sectionEntry stop begun (off, xs)
    let len := (xs.flatMap id).length
    let m := min len (stop - off)
    y.length = 24 ∧ (begun = false ∨ stop < off → ∀ k < 24, y.getD k 1 = 0) ∧
    (begun = true → off ≤ stop → at_ y 0 8 off ∧ at_ y 8 8 m ∧ at_ y 20 4 (if m = len then 1 else 0) ∧
      ∃ n ≤ xs.length, at_ y 16 4 n ∧ ((xs.take n).flatMap id).length ≤ m ∧ (n < xs.length → m < ((xs.take (n + 1)).flatMap id).length))) ∧
  (∀ (s : State) (c : Context) stat scode saddr total es, es.length = 120 → let y := s.dumpHeader c stat scode saddr total es
    y.length = 256 ∧ at_ y 0 4 0x4B57444D ∧ at_ y 4 4 1 ∧ at_ y 8 4 (stat + scode * 2 ^ 8) ∧
    (c.id < 2 ^ 16 → at_ y 12 4 (c.id + (if c.id ∈ s.workingOn 0 then 2 ^ 16 else 0) + if c.id ∈ s.workingOn 1 then 2 ^ 17 else 0)) ∧
    at_ y 16 8 c.haltAt ∧ at_ y 24 8 total ∧ at_ y 49 15 0 ∧ at_ y 64 9 saddr ∧ at_ y 73 55 0 ∧ (y.drop 128).take 120 = es ∧ at_ y 248 8 0 ∧
    (∀ e w r k, c.escalated = some e → s.warp? e.1 = some w → w.record? e.2 = some r → r.place = .slot k →
      at_ y 32 4 (w.slotAddr k - s.spaceAddr w false 0) ∧ at_ y 36 1 w.die ∧ at_ y 37 1 r.trap ∧ at_ y 38 2 0 ∧ at_ y 40 9 r.faddr)) ∧
  (∀ (s : State) (w : Warp), let y := s.regsItem w
    at_ y 0 4 (w.index + w.core * 2 ^ 5 + w.die * 2 ^ 10 + ((s.ctx? w.ctx).map (·.ctxId.toNat)).getD 0 * 2 ^ 16) ∧ at_ y 4 4 w.blockIdx ∧
    at_ y 8 2 w.footprint ∧ at_ y 10 2 w.records.length ∧
    at_ y 12 1 ((if w.kind = .task then 1 else if w.kind = .handler then 2 else 0) + 4 * w.stage +
      64 * (if w.role = .s then 1 else if w.role = .m then 2 else if w.role = .v then 3 else 0)) ∧
    at_ y 13 1 w.part.toNat ∧ at_ y 14 1 w.rnd.toNat ∧ at_ y 15 1 w.axc.toNat ∧ at_ y 16 4 (w.prioClass * 16 + w.prioLevel) ∧
    at_ y 20 4 w.seed.toNat ∧ at_ y 24 4 w.sps.toNat ∧ at_ y 28 8 w.dig.toNat ∧ at_ y 36 4 w.matL.toNat ∧ at_ y 40 4 w.matC.toNat ∧
    at_ y 44 4 w.tcb.toNat ∧ at_ y 48 16 0 ∧ (w.records = [] → y.length = 64) ∧
    ∀ r, w.records = [r] → let ls := if r.inPlace then r.lanes else r.saved.map (·.lane)
      y.length = 384 + 128 * w.footprint ∧ at_ y 64 4 (r.pc / 8 * 8 + r.half % 2) ∧ at_ y 72 4 r.seq ∧
      at_ y 76 4 (r.state.code + (if r.before then 16 else 0) + r.trap * 2 ^ 8 + r.ls * 2 ^ 16 + r.tmo * 2 ^ 22) ∧
      at_ y 80 2 r.opc ∧ at_ y 82 2 r.sdst ∧ at_ y 84 4 r.who.toNat ∧ at_ y 88 4 r.blk.toNat ∧ at_ y 92 4 r.deadline.toNat ∧
      at_ y 96 8 r.event ∧ at_ y 104 9 r.faddr ∧ at_ y 114 2 w.footprint ∧ at_ y 116 4 (320 + 128 * w.footprint) ∧
      (∀ l < 32, l ∉ ls → at_ y (128 + 8 * l) 8 0 ∧ ∀ k < w.footprint, at_ y (384 + 128 * k + 4 * l) 4 0) ∧
      (r.inPlace = true → ∀ l ∈ r.lanes, l < 32 → at_ y (128 + 8 * l) 4 (w.lane l).gen.toNat ∧ at_ y (132 + 8 * l) 1 (w.lane l).fpx.toNat ∧
        at_ y (133 + 8 * l) 1 r.repc ∧ ∀ k < w.footprint, at_ y (384 + 128 * k + 4 * l) 4 ((w.lane l).reg k).toNat) ∧
      (r.inPlace = false → (r.saved.map (·.lane)).Nodup → ∀ v ∈ r.saved, v.lane < 32 → at_ y (128 + 8 * v.lane) 4 v.gen.toNat ∧
        at_ y (132 + 8 * v.lane) 1 v.fpx.toNat ∧ at_ y (133 + 8 * v.lane) 1 r.repc ∧ ∀ k < w.footprint,
          at_ y (384 + 128 * k + 4 * v.lane) 4 (if k ∈ r.exempt then (w.lane v.lane).reg k else v.regs.get k).toNat)) ∧
  (∀ b : Block, b.mxqs.length = 4 → let y := sharedItem b
    let n := (b.sharedSize + 1023) / 1024 * 1024
    at_ y 0 4 b.index ∧ at_ y 4 4 (b.core * 2 ^ 5 + b.die * 2 ^ 10) ∧ at_ y 8 4 n ∧ at_ y 12 4 b.wbSize ∧
    at_ y 16 4 (if b.holdsMxq then 2 ^ 15 else 0) ∧ at_ y 20 12 0 ∧ y.length = 32 + n + b.wbSize + (if b.holdsMxq then 2 ^ 15 else 0) ∧
    (∀ a < n, y.getD (32 + a) 0 = Cells.get b.shared a) ∧ (∀ a < b.wbSize, y.getD (32 + n + a) 0 = Cells.get b.wb a) ∧
    (b.holdsMxq = true → ∀ q < 4, ∀ k < 32, ∀ j < 64, at_ y (32 + n + b.wbSize + 8192 * q + 256 * k + 4 * j) 4
      (((b.mxqs.getD q {}).entries.getD k []).getD j 0).toNat)) ∧
  (∀ (s : State) (c : Context) d, (c.dumping.map (·.early)).getD [] = [] → let y := s.spadItem c d
    let base := (c.window d).1
    let z := (c.window d).2
    let mine (w : Warp) : Prop := w ∈ s.warps ∧ w.ctx = c.id ∧ w.die = d
    at_ y 0 4 d ∧ at_ y 4 4 z ∧ at_ y 8 8 0 ∧ y.length = 16 + z ∧
    ((∀ w, mine w → ∀ x ∈ w.spill, x.1 < 8192) →
      (∀ a < z, (∀ w, mine w → ¬ (w.segment ≤ base + a ∧ base + a < w.segment + 0x8000)) → y.getD (16 + a) 0 = s.spadAt d (base + a)) ∧
      ∀ w, mine w → Cells.wf w.spill = true →
        (∀ v, mine v → v = w ∨ v.segment + 0x8000 ≤ w.segment ∨ w.segment + 0x8000 ≤ v.segment) →
        ∀ k < 256, ∀ l < 32, let a := w.segment + 128 * k + 4 * l
          base ≤ a → a + 4 ≤ base + z → at_ y (16 + (a - base)) 4 (w.spillWord (4 * k) l).toNat)) ∧
  (∀ (s : State) (b : Block), let y := s.barrItem b
    y.length = 192 ∧ at_ y 0 4 b.index ∧ at_ y 4 4 (b.core * 2 ^ 5 + b.die * 2 ^ 10) ∧ at_ y 8 4 (s.arrivals_ b.bid).length ∧ at_ y 12 4 0 ∧
    (∀ k < 16, let x := b.barriers.getD k {}
      at_ y (16 + 8 * k) 4 x.gen.toNat ∧ at_ y (20 + 8 * k) 4 (x.cnt.toNat + x.exp.toNat * 2 ^ 11 + if x.opened then 2 ^ 22 else 0)) ∧
    (∀ m < 8, let r := b.rings.getD m {}
      at_ y (144 + 4 * m) 4 (r.phase.toNat + r.nslot * 2 ^ 16 + r.link * 2 ^ 24)) ∧
    ∀ q < 4, let r := b.mxqs.getD q {}
      at_ y (176 + 4 * q) 4 (r.entries.length + r.reserved * 2 ^ 8)) ∧
  (∀ (s : State) (o : EngineOp) (x : CopyOp) w, s.warp? o.wid = some w → let y := s.copyItem o x
    let f := (s.op? o.oid).bind (·.fault)
    at_ y 0 4 x.handle ∧ at_ y 4 4 (w.index + w.core * 2 ^ 5 + w.die * 2 ^ 10 + ((s.ctx? w.ctx).map (·.ctxId.toNat)).getD 0 * 2 ^ 16) ∧
    at_ y 8 4 w.blockIdx ∧ at_ y 12 1 (if f = none then 0 else 2) ∧ (f = none → at_ y 13 1 0 ∧ at_ y 16 9 0) ∧
    (∀ e, f = some e → at_ y 13 1 e.1 ∧ at_ y 16 9 e.2) ∧
    at_ y 14 1 (if x.weights then 1 else 0) ∧ at_ y 15 1 o.colour ∧ at_ y 25 7 0 ∧ y.drop 32 = x.desc)

/-- Each event of the outside answers a next state with its effect: BAR0 writes reach their registers, and TAIL, CTXCMD
and PWR.MODE act as the events of their names; scratchpad-image writes and reads act on bytes of windows; host
writes reach device DRAM; a sensor unit that a channel takes is written behind its header, counted, and arrives at
its channel's byte barrier with its bytes and those of the header, or waits for its lines while one of them is
owned; a channel word restarts the count; temperature moves the operating point; an attestation answers a nonce; a
reset empties the machine, and the steps of the start that follows it, each of which may fail, authenticate the
firmware, train, and scrub all but the retained windows. What memories hold at a reset and how temperature, sensors,
the power mode, the mailbox and the steps of the start reach the model are its choices (assumption logs 4, 5, 11,
40, 41, 42 and 60), the data-type codes of CSI-2 are taken from outside the spec (log 40), and the digest and
signature are taken from outside the spec (log 57). (R233, R234, R454, R455, R458, R468, R469, R470, R471, R472,
R473, 23_dies_host_and_startup.md) -/
def Obligations.HostAndDeviceEventResults : Prop :=
  let ms : Nat := 36000000
  let delivers (i : Instr) (s : State) (die chan : Nat) (y : SensorUnit) (pt : Nat) (bad : Bool) : Prop :=
    (s.sensorWaiting = [] → s.unitOwned die chan (.unit s.nextId) y = true → ∃ t, exec i s = .next t ∧
      t.sensorWaiting = [{ id := s.nextId, die := die, chan := chan, unit := y, pt := pt, bad := bad }] ∧ SameMemory s t ∧
      (t.channel die chan).units = (s.channel die chan).units ∧ ∀ k ∈ s.unitLines die chan 0 y, t.isOwned k = true) ∧
    ∀ c, let x := s.channel die chan
      let payload := y.payload
      s.sensorWaiting = [] → s.unitOwned die chan (.unit s.nextId) y = false → s.ctx? x.ctx = some c → c.residentOn die = true → die < s.dies.length → chan < (s.die die).sensors.length →
      64 ≤ x.usz → x.usz % 64 = 0 → x.nu ≠ 0 → x.base % 16 = 0 → payload.length ≤ x.usz - 16 → s.noImages →
      let slot := x.base + x.usz * (x.units % x.nu)
      let head := natToBytes 4 pt ++ natToBytes 4 payload.length ++ natToBytes 4 x.units ++ natToBytes 4 (if bad then 2 else 0)
      ∃ t, exec i s = .next t ∧ (t.channel die chan).units = x.units + 1 ∧ (t.channel die chan).words = x.words ∧
        (x.bboff = 0xFFFFFFFF → x.cwoff = 0xFFFFFFFF → c.windowOk die slot x.usz false = true →
          t.bytesAt (.spad die) ((c.window die).1 + slot) (16 + payload.length) = head ++ payload ∧
          BytesKept s t (bytesFrom (.spad die) ((c.window die).1 + slot) (16 + payload.length))) ∧
        (x.bboff % 16 = 0 → c.windowOk die x.bboff 16 false = true → (x.bboff + 16 ≤ slot ∨ slot + 16 + payload.length ≤ x.bboff) →
          (x.cwoff + 4 ≤ x.bboff ∨ x.bboff + 16 ≤ x.cwoff) →
          let bb := (c.window die).1 + x.bboff
          let n := 16 + payload.length
          let rem (m : State) (k : Nat) : Word := BitVec.ofNat 32 (m.numberAt (.spad die) (bb + k) 4)
          rem t 0 = rem s 0 - BitVec.ofNat 32 n ∧ rem t 4 = (if rem s 0 = BitVec.ofNat 32 n then rem s 4 + 1 else rem s 4) ∧
            rem t 8 = rem s 8 ∧ rem t 12 = rem s 12) ∧
        (x.cwoff % 4 = 0 → c.windowOk die x.cwoff 4 false = true →
          (∀ k ∈ spaceLines (.spad die) ((c.window die).1 + x.cwoff) 4, s.isOwned k = false) →
          t.numberAt (.spad die) ((c.window die).1 + x.cwoff) 4 = (x.units + 1) % 2 ^ 32)
  (∀ o v s, ∃ t, exec (.bar0RegisterWrite o v) s = .next t ∧
    (o = 0x04 → exec (.pwrModeWrite (v.getLsbD 0)) s = .next t) ∧
    (o = 0x10 → t = { s with ctxa0 := v &&& 0xFFFFFF80 }) ∧ (o = 0x14 → t = { s with ctxa1 := v &&& 0x000FFFFF }) ∧
    (o = 0x18 → v.toNat % 4 = 1 → exec (.contextCreate (v.toNat / 2 ^ 16)) s = .next t) ∧
    (o = 0x18 → v.toNat % 4 = 2 → exec (.contextRetire (v.toNat / 2 ^ 16)) s = .next t) ∧
    (∀ q < 16, o = 0x1010 + 0x40 * q → exec (.tailWrite q v) s = .next t) ∧
    (∀ q < 16, o = 0x1000 + 0x40 * q → q < s.queues.length → (s.queue q).en = false → (s.queue q).swIn = false →
      t.queue q = { s.queue q with base0 := v &&& 0xFFFFFF80 }) ∧
    (∀ q < 16, o = 0x100C + 0x40 * q → q < s.queues.length → (s.queue q).en = false → (s.queue q).swIn = false → v.msb = false →
      let y := s.queue q
      let clear := v.getLsbD 29
      t.queue q = { s.queue q with irq := v.getLsbD 28, err := y.err && !clear, cls := v.toNat / 2 ^ 24 % 4
                                   stopped := y.stopped && (!clear || !y.rewritten), rewritten := y.rewritten && !clear
                                   die := v.toNat / 2 ^ 20 % 2, ctx := v.toNat / 2 ^ 4 % 2 ^ 16
                                   log2n := if 1 ≤ v.toNat % 16 ∧ v.toNat % 16 ≤ 12 then v.toNat % 16 else (s.queue q).log2n }) ∧
    (∀ d < 2, ∀ ch < 16, ∀ k < 8, o = 0x3000 + 0x400 * d + 0x20 * ch + 4 * k → exec (.sensorChannelWrite d ch k v) s = .next t) ∧
    (∀ k < 64, o = 0x100 + 4 * k → s.mailbox.length = 256 → t.nonceDue = (s.nonceDue || k == 7) ∧
      { t with mailbox := [], nonceDue := false } = { s with mailbox := [], nonceDue := false } ∧
      ∀ j < 256, t.mailbox.getD j 0 = if 4 * k ≤ j ∧ j < 4 * k + 4 then (natToBytes 4 v.toNat).getD (j - 4 * k) 0 else s.mailbox.getD j 0) ∧
    (0x3600 ≤ o → t = s)) ∧
  (∀ s y bs, s.hostWaiting = [] → s.barFree y bs.length = true → y + bs.length ≤ 2 ^ 28 → 2 ≤ s.dies.length → s.noImages →
    (∀ k < bs.length, s.inSomeWindow ((y + k) / 2 ^ 27) ((y + k) % 2 ^ 27) = true) →
    ∃ t, exec (.hostBar2Write y bs) s = .next t ∧ t.hostWaiting = [] ∧
      (∀ k < bs.length, t.spadAt ((y + k) / 2 ^ 27) ((y + k) % 2 ^ 27) = bs.getD k 0) ∧
      BytesKept s t (fun sp a => ∃ k < bs.length, sp = .spad ((y + k) / 2 ^ 27) ∧ a = (y + k) % 2 ^ 27)) ∧
  (∀ s y n, s.hostWaiting = [] → s.barFree y n = true →
    let byte (k : Nat) : Byte := if s.inSomeWindow (k / 2 ^ 27) (k % 2 ^ 27) = true then s.spadAt (k / 2 ^ 27) (k % 2 ^ 27) else 0
    ∃ t, exec (.hostBar2Read y n) s = .next t ∧
      t = { s with outbound := s.outbound ++ [.readReturn ((List.range n).map (fun k => byte (y + k)))] }) ∧
  (∀ s a bs, a + bs.length ≤ 2 ^ 36 → ∃ t, exec (.hostMemoryWrite a bs) s = .next t ∧
    { t with dram := [], dies := [] } = { s with dram := [], dies := [] } ∧ (∀ sp a, t.byteAt sp a = s.byteAt sp a) ∧
    ∀ k, Cells.get t.dram k = if a ≤ k ∧ k < a + bs.length then bs.getD (k - a) 0 else Cells.get s.dram k) ∧
  (∀ s die chan y pt bad, let x := s.channel die chan
    (x.kind = 1 → y.select ∈ csiTypes → x.port = y.port → x.channel = y.channel → x.select = y.select → (x.lines = 0 ∨ x.lines = y.lines) →
      delivers (.sensorUnitDelivery die chan y pt bad) s die chan y pt bad) ∧
    (x.kind = 2 → x.select = y.select → x.lines = y.lines → x.period ≠ 0 → x.since + 36000 * x.period ≤ s.realTime →
      delivers (.sensorI3cPeriod die chan y pt bad) s die chan y pt bad) ∧
    (x.kind = 2 → x.select = y.select → x.lines = y.lines → x.period = 0 →
      delivers (.inBandInterrupt die chan y pt bad) s die chan y pt bad)) ∧
  (∀ s die chan k v, die < s.dies.length → chan < (s.die die).sensors.length → k < 7 → ∃ t, exec (.sensorChannelWrite die chan k v) s = .next t ∧
    t.channel die chan = { words := (s.channel die chan).words.set k v, units := 0, since := s.realTime } ∧ SameMemory s t) ∧
  (∀ s belt, ∃ t, exec (.pwrModeWrite belt) s = .next t ∧ t = { s with modeDue := if belt = s.belt then none else some belt }) ∧
  (∀ s b, s.modeDue = some b → ∃ t, exec .dvfsPointChange s = .next t ∧ t = { s with belt := b, modeDue := none }) ∧
  (∀ s temp, 100 ≤ temp → temp < 110 → ∃ t, exec (.thermalDrop temp) s = .next t ∧
    t = if s.temp < 100 ∨ s.hotTicks + ms ≤ s.realTime then { s with temp := temp, point := min 2 (s.point + 1), hotTicks := s.realTime }
      else { s with temp := temp }) ∧
  (∀ s temp, temp < 90 → s.temp < 90 → ∃ t, exec (.thermalRise temp) s = .next t ∧
    t = if s.coolTicks + 100 * ms ≤ s.realTime then { s with temp := temp, point := s.point - 1, coolTicks := s.realTime }
      else { s with temp := temp }) ∧
  (∀ s nonce, nonce.length = 32 → s.bootState = 4 →
    let fuses := s.keyHash ++ natToBytes 4 s.minVersion ++ [if s.t9c then 1 else 0] ++ natToBytes 1 s.rev
    let body := nonce ++ digest64 (s.firmware.body.take s.firmware.length) ++ digest64 fuses ++ digest64 (natToBytes 4 s.ctxs.length)
    let r := body ++ ed448Sign identitySecret (digest64 body) ++ Config.certificateChain
    ∃ t, exec (.attestationRequest nonce) s = .next t ∧
      t = { s with nonce := nonce, nonceDue := false, report := r, outbound := s.outbound ++ [.attestation r]
                   mailbox := (List.range 256).map (fun k => r.getD k 0) }) ∧
  (∀ s held, ∃ t, exec (.deviceStart (some held)) s = .next t ∧ t.ctxs = [] ∧ t.launches = [] ∧ t.warps = [] ∧ t.blocks = [] ∧
    t.ops = [] ∧ t.bootState = 1 ∧ (t.bootWarm = true ↔ held = true ∧ s.trainingValid = true) ∧ t.dram = s.dram ∧
    t.firmware = s.firmware ∧ t.keyHash = s.keyHash ∧ t.minVersion = s.minVersion ∧
    t.keeping = if held = true ∧ s.trainingValid = true ∧ s.retentionValid = true then s.windowsToRetain else []) ∧
  (∀ s, ∃ t, exec (.deviceStart none) s = .next t ∧
    let f := s.firmware
    let fails := (Config.startFails s.fresh).toNat
    let failed (code : Nat) : State := { s with fresh := s.fresh + 1, bootState := 7, bootFail := code, trainingValid := false
                                                retentionValid := false, keeping := [] }
    (s.bootState ∉ [1, 2, 3] → t = s) ∧
    (s.bootState = 1 → t = if fails ≠ 0 then failed fails
      else if f.key.length ≠ 57 ∨ digest64 f.key ≠ s.keyHash then failed 1
      else if ed448Verify f.key (digest64 (f.body.take f.length)) f.signature = false then failed 2
      else if f.version < s.minVersion then failed 3
      else { s with fresh := s.fresh + 1, bootState := 2 }) ∧
    (s.bootState = 2 → t = if fails ≠ 0 then failed fails
      else { s with fresh := s.fresh + 1, bootState := 3, trainingValid := true, dram := if s.bootWarm then s.dram else [] }) ∧
    (s.bootState = 3 → (fails ≠ 0 ∧ t = failed fails) ∨ (fails = 0 ∧ t.bootState = 4 ∧ t.bootFail = 0 ∧ t.bootWarm = s.bootWarm ∧
      t.retentionValid = true ∧ t.retained = s.keeping ∧ t.dram = s.dram ∧ t.dies.length = 2 ∧ ∀ d < 2, ∀ a, t.spadAt d a =
        if ∃ r ∈ s.keeping, r.die = d ∧ r.base * 2 ^ 16 ≤ a ∧ a < (r.base + r.size) * 2 ^ 16 then s.spadAt d a else 0)))

/-- A tick that is due counts PT and adds RATE to the credit; with no pending warp due it then picks, while RATE is not
0, 16 of credit are there and a tile is available, the first of the available tiles with the lowest pass: PICKS, its
count, its age and its pass move on, the credit falls by 16, and the pick joins the pending warp of its kind, which
with its 32nd pick is launched or forgone; credit beyond 512 is then forgone and counted. A pending warp whose first
pick is 4 ticks old is launched with its picks in its lanes, or forgone and counted where no record can be read or
accepted. A request that is due opens a slot under the next tag, or with scan-out off only passes. A scan that is
due sends its band: the codes of the slot of its latest request due by then when every row is acknowledged, else the
held ones with a count in MISS, and closes the slots of its requests due by then; the first scan of the next refresh
starts that refresh. How many bands are scanned and which of two requests of one band is taken are the model's
(assumption log 44). (R350, R352, R353, R354, R356, R357, R358, R368, R369, R372, R467) -/
def Obligations.PickerAndScanEventResults : Prop :=
  (∀ s die, die < s.dies.length → let r0 := (s.die die).render
    let word (n : Nat) : Word := BitVec.ofNat 32 n
    let avail (a : State) (m : Nat) : Prop := let r := (a.die die).render
      m < r.tw * r.th ∧ (r.map.get m).getLsbD 25 = false ∧ a.kindRoom die (r.kindOf m) = true
    let picked (a b : State) : Prop := ∃ n, avail a n ∧
      let r := (a.die die).render
      let u := (b.die die).render
      let probe := r.kindOf n
      let pos := pickPosition n (r.count.get n).toNat
      let old := (r.pending probe).getD { first := r.pt }
      let ps := old.picks ++ [⟨n, pos.1, pos.2, (r.pt + r.lead) % 2 ^ 32⟩]
      (∀ m, avail a m → (r.pass.get n).toNat < (r.pass.get m).toNat ∨ ((r.pass.get n).toNat = (r.pass.get m).toNat ∧ n ≤ m)) ∧
      u.pt = r.pt ∧ u.picks = r.picks + 1 ∧ u.credit = r.credit - 16 ∧ u.vt = (r.pass.get n).toNat ∧
      u.count.get n = r.count.get n + 1 ∧ u.pass.get n = r.pass.get n + BitVec.ofNat 64 (r.step n) ∧
      u.picked.get n = BitVec.ofNat 64 (r.pt + 1) ∧
      (∀ m, m ≠ n → u.count.get m = r.count.get m ∧ u.pass.get m = r.pass.get m ∧ u.picked.get m = r.picked.get m) ∧
      u.pending (!probe) = r.pending (!probe) ∧
      (ps.length ≠ 32 → u.pending probe = some { old with picks := ps } ∧ b.launches = a.launches ∧ u.dropped = r.dropped) ∧
      (ps.length = 32 → u.pending probe = none ∧ ((b.launches = a.launches ∧ u.dropped = r.dropped + 32) ∨
        ∃ l, b.launches = a.launches ++ [l] ∧ l.kind = .sample probe ∧ l.die = die ∧ l.entry = ps.map (sampleWords r.tw) ∧
          u.dropped = r.dropped))
    36000 * (r0.pt + 1) ≤ s.realTime → (∀ b p, r0.pending b = some p → r0.pt + 1 < p.first + 4) →
    ∃ (t : State) (n : Nat) (f : Nat → State), exec (.pickerTick die) s = .next t ∧
      f 0 = s.modRender die (fun r => { r with pt := r.pt + 1, credit := r.credit + r.rate }) ∧ n ≤ 256 ∧
      (∀ k < n, r0.rate ≠ 0 ∧ 16 ≤ ((f k).die die).render.credit ∧ picked (f k) (f (k + 1))) ∧
      (r0.rate = 0 ∨ ((f n).die die).render.credit < 16 ∨ (∀ m, ¬ avail (f n) m) ∨ n = 256) ∧
      (let v := ((f n).die die).render
       (t.die die).render = if 512 < v.credit then { v with credit := 512, dropped := v.dropped + word ((v.credit - 512) / 16) } else v) ∧
      t.launches = (f n).launches ∧ SameMemory s t) ∧
  (∀ s die probe p, die < s.dies.length → let r := (s.die die).render
    36000 * (r.pt + 1) ≤ s.realTime → r.pending probe = some p → p.first + 4 ≤ r.pt + 1 → r.pending (!probe) = none → r.rate = 0 →
    r.credit ≤ 512 →
    let s0 := s.modRender die (fun r => { r with pt := r.pt + 1 }.setPending probe none)
    let off := r.recordAt probe
    let forgone := ∃ t, exec (.pickerTick die) s = .next t ∧ t.launches = s.launches ∧ SameMemory s t ∧
      (t.die die).render = { r.setPending probe none with pt := r.pt + 1, dropped := r.dropped + BitVec.ofNat 32 p.picks.length }
    ((s.renderOwner die = none ∨ off = 0 ∨ ∃ c, s.renderOwner die = some c ∧ c.windowOk die off 128 false = false) → forgone) ∧
    (∀ c, s.renderOwner die = some c → off ≠ 0 → c.windowOk die off 128 false = true →
      let lr := recordOf (s.bytesAt (.spad die) ((c.window die).1 + off) 128)
      (lr.list = true → forgone) ∧
      ∀ m s1, s0.readLaunch c.id lr = (m, s1) → lr.list = false →
        (s1.2.launchReason c.id die lr.cls lr m s1.1 ≠ 0 → forgone) ∧
        (∀ im bs, m = some im → s1.1 = some bs → s1.2.launchReason c.id die lr.cls lr m s1.1 = 0 →
          ∃ t l, exec (.pickerTick die) s = .next t ∧ t.launches = s.launches ++ [l] ∧ l.kind = .sample probe ∧ l.ctx = c.id ∧
            l.die = die ∧ l.image = im.1 ∧ l.args = argWords bs ∧ l.entry = p.picks.map (sampleWords r.tw) ∧
            l.tag = (if probe then r.prbTag else r.rayTag) ∧ SameMemory s t ∧
            (t.die die).render = { r.setPending probe none with pt := r.pt + 1, launched := r.launched + 1 }))) ∧
  (∀ s die, die < s.dies.length → let d := s.die die
    let r := d.render
    let b := r.nextReq % d.bandCount
    d.scans = true → d.scanAt r.nextReq ≤ s.realTime + 16 * r.rql * d.rowTime → r.bands.length = 4 →
    (r.souEn = false → ∃ t, exec (.bandRequest die b) s = .next t ∧ t = s.modRender die (fun r => { r with nextReq := r.nextReq + 1 })) ∧
    (r.souEn = true → ∃ t u, exec (.bandRequest die b) s = .next t ∧ (t.die die).render = u ∧ u.nextReq = r.nextReq + 1 ∧
      u.seq = r.seq + 1 ∧ u.bands.getD (r.seq.toNat % 4) {} = { opened := true, tag := r.seq, band := b, due := d.scanAt r.nextReq } ∧
      (∀ c, s.renderOwner die = some c → c.windowOk die r.recl.toNat 128 false = true → ∃ l, t.launches = s.launches ++ [l] ∧
        l.lrec.cls = 0 ∧ l.lrec.nblk = r.tw ∧ l.kind = .recon r.seq.toNat ∧ l.ctx = c.id ∧ l.die = die ∧
        l.args = [BitVec.ofNat 32 b, r.seq, BitVec.ofNat 32 (d.scanAt r.nextReq / 36000), BitVec.ofNat 32 r.tw]))) ∧
  (∀ s die, die < s.dies.length → let d := s.die die
    let r := d.render
    let roll := d.bandCount ≤ r.nextScan
    let n := if roll then 0 else r.nextScan
    let at_ := if roll then r.refreshAt + d.refreshTime else d.scanAt n
    d.scans = true → at_ ≤ s.realTime →
    let mine (k : Nat) : Prop := k < 4 ∧ (r.bands.getD k {}).opened = true ∧ (r.bands.getD k {}).band = n ∧ (r.bands.getD k {}).due ≤ at_
    let sent (t : State) (codes : Cells 30) : Prop :=
      t.outbound = s.outbound ++ [.band die n codes] ∧ (t.die die).render.nextScan = n + 1 ∧
      (t.die die).render.refreshAt = (if roll then at_ else r.refreshAt) ∧
      (t.die die).render.nextReq = (if roll then r.nextReq - d.bandCount else r.nextReq) ∧
      ∀ k, (mine k → ((t.die die).render.bands.getD k {}).opened = false) ∧
        (¬ mine k → (t.die die).render.bands.getD k {} = r.bands.getD k {})
    (r.souEn = false → ∃ t, exec (.bandScan die n) s = .next t ∧ sent t []) ∧
    (r.souEn = true → (∀ k, ¬ mine k) → ∃ t, exec (.bandScan die n) s = .next t ∧ sent t r.hold ∧ (t.die die).render.miss = r.miss + 1) ∧
    (∀ k, r.souEn = true → mine k →
      (∀ j, mine j → (r.bands.getD j {}).due < (r.bands.getD k {}).due ∨ ((r.bands.getD j {}).due = (r.bands.getD k {}).due ∧ j ≤ k)) →
      let b := r.bands.getD k {}
      (r.tw ≤ b.acks → ∃ t, exec (.bandScan die n) s = .next t ∧ sent t b.codes ∧ (t.die die).render.hold = b.codes ∧
        (t.die die).render.miss = r.miss) ∧
      (b.acks < r.tw → ∃ t, exec (.bandScan die n) s = .next t ∧ sent t r.hold ∧ (t.die die).render.miss = r.miss + 1 ∧
        (t.die die).render.hold = r.hold)))

/-- The example words of iadd, csr.wr, cvt.e4m3 with its prefix, smx.sol.chol, bar.sync, ld.sp with its prefix,
bbar.wait, mm.go with a colour, q.push, trv.init, cmb.free and a P word decode to their instructions with the fields
that the description names. (R62, R63, R64, R67, R69, 03_encoding_and_assembly.md, 06_program_fp8_conversion.md,
15_tasks_queues_rings.md Table 15.11) -/
def Obligations.WorkedWordsDecode : Prop :=
  let o (d a b : Operand) (m : Nat) (ext : Option ExtMod) : Operands := ⟨.f, d, a, b, .always, m, none, ext⟩
  let v : Nat → Operand := .reg
  decodeWords [0x0800280B9C819180] = .one (.iadd ⟨.f, v 5, v 5, .inl (-7), ⟨v 12, true, 3⟩, 0, none, none⟩) 1 ∧
  decodeWords [0xC2001401D1000000, 0x3E8] = .one (.iadd ⟨.x, v 10, v 3, .imm 1000, .always, 0, none, none⟩) 2 ∧
  decodeWords [0x0180000143510002] = .one (.csrWr (o (v 0) (v 0) (.spc .zero) 2 none)) 1 ∧
  decodeWords [0xE100000000000400, 0x2860801405D10001] = .one (.cvtE4m3 (o (v 16) (v 10) (v 11) 1 (some ⟨0, 0, 0, 0x400⟩))) 2 ∧
  decodeWords [0xCF48EE3700A00000, 0xCC53] = .one (.smxSol ⟨.x, v 119, v 110, .imm 0xCC53, ⟨v 5, false, 0⟩, 0, none, none⟩) 2 ∧
  decodeWords [0x4A80A00143510000] = .one (.barSync (o (v 20) (v 0) (.spc .zero) 0 none)) 1 ∧
  decodeWords [0xE100000000000100, 0x4841400001510005] = .one (.ldSp (o (v 40) (v 0) (v 2) 5 (some ⟨0, 0, 0, 0x100⟩))) 2 ∧
  decodeWords [0x58A0601402510000] = .one (.bbarWait (o (v 12) (v 10) (v 4) 0 none)) 1 ∧
  decodeWords [0xE100000000040000, 0x6000500001510000] = .one (.mmGo (o (v 10) (v 0) (v 2) 0 (some ⟨0, 0, 1, 0⟩))) 2 ∧
  decodeWords [0x5920402801D10003] = .one (.qPush (o (v 8) (v 20) (v 3) 3 none)) 1 ∧
  decodeWords [0x68A320500451002F] = .one (.trvInit (o (v 100) (v 40) (v 8) 0x2F none)) 1 ∧
  decodeWords [0x707430000A510000] = .one (.cmbFree (o (.spc .zero) (v 0) (v 20) 0 none)) 1 ∧
  decodeWords [0x80020000_1809A280] = .pair (some (.mov ⟨.h, v 4, v 0, v 0, .always, 0, none, none⟩))
    (some (.fmov ⟨.h, v 9, v 0, .spc .fpone, .always, 0, none, none⟩))

/-- Decoding the words of any well-formed instruction of the table in an F or X form, with every operand, predicate,
modifier and prefix at every value the encoding admits, gives back the instruction and the number of its words; and
whatever words decode to one instruction are the words that encode it, and it is well formed. (R61, R62, R63, R65,
R67, R68, R69, R71, R72, R75, 03_encoding_and_assembly.md) -/
def Obligations.EncodingsRoundTrip : Prop :=
  (∀ i : Instr, i.wellFormed = true → i.operands.form ≠ .h → ∀ ws, decodeWords (encode i ++ ws) = .one i (encode i).length) ∧
  (∀ ws i k, (∀ w ∈ ws, w < 2 ^ 64) → decodeWords ws = .one i k → i.wellFormed = true ∧ i.operands.form ≠ .h ∧ encode i = ws.take k)

/-- Decoding the P word of any two well-formed H instructions gives both halves; a word that decodes to two H
instructions without a field misuse is their P word. (R64, R66, R73, 03_encoding_and_assembly.md) -/
def Obligations.PairsRoundTrip : Prop :=
  (∀ i j : Instr, i.wellFormed = true → j.wellFormed = true → i.operands.form = .h → j.operands.form = .h →
    ∀ ws, decodeWords (encodePair i j :: ws) = .pair (some i) (some j)) ∧
  (∀ w ws i j, w < 2 ^ 64 → decodeWords (w :: ws) = .pair (some i) (some j) → staticLegal i = true → staticLegal j = true →
    i.wellFormed = true ∧ j.wellFormed = true ∧ w = encodePair i j)

/-- A word of kind 0b1111, a prefix of a reserved type or with a reserved bit set, a P word after one prefix or both, an
X head whose bits 7:0 are not 0 and one whose extension has a bit set above 31 are refused by name with trap 0x01,
and an F word of an unassigned opcode with trap 0x02. (R61, R63, R67, R69, R77, R82, 03_encoding_and_assembly.md
Table 3.6) -/
def Obligations.MalformedWordsRefused : Prop :=
  let code (d : Decoded) : Option Nat := match d with
    | .bad e _ => some e.trap
    | _ => none
  (∀ w ws, w < 2 ^ 64 → w / 2 ^ 60 = 15 → decodeWords (w :: ws) = .bad .reservedWord 0) ∧
  (∀ w ws, w < 2 ^ 64 → w / 2 ^ 60 = 14 → 2 ≤ w / 2 ^ 56 % 16 → decodeWords (w :: ws) = .bad .badPrefix 0) ∧
  (∀ w ws, w < 2 ^ 64 → w / 2 ^ 56 = 14 * 16 → w % 2 ^ 41 ≠ 0 → decodeWords (w :: ws) = .bad .badPrefix 0) ∧
  (∀ w ws, w < 2 ^ 64 → w / 2 ^ 56 = 14 * 16 + 1 → w / 2 ^ 32 % 2 ^ 24 ≠ 0 → decodeWords (w :: ws) = .bad .badPrefix 0) ∧
  (∀ w p ws, w / 2 ^ 56 = 14 * 16 → w % 2 ^ 41 = 0 → p / 2 ^ 62 = 2 → decodeWords (w :: p :: ws) = .bad .badPrefix 0) ∧
  (∀ w p ws, w / 2 ^ 56 = 14 * 16 + 1 → w / 2 ^ 32 % 2 ^ 24 = 0 → p / 2 ^ 62 = 2 → decodeWords (w :: p :: ws) = .bad .badPrefix 0) ∧
  (∀ w x p ws, w / 2 ^ 56 = 14 * 16 → w % 2 ^ 41 = 0 → x / 2 ^ 56 = 14 * 16 + 1 → x / 2 ^ 32 % 2 ^ 24 = 0 → p / 2 ^ 62 = 2 →
    decodeWords (w :: x :: p :: ws) = .bad .badPrefix 0) ∧
  (∀ w ws, w < 2 ^ 64 → w / 2 ^ 61 = 6 → w % 256 ≠ 0 → decodeWords (w :: ws) = .bad .badExtension (w / 2 ^ 51 % 1024)) ∧
  (∀ w x ws, w < 2 ^ 64 → w / 2 ^ 61 = 6 → w % 256 = 0 → x / 2 ^ 32 ≠ 0 →
    decodeWords (w :: x :: ws) = .bad .badExtension (w / 2 ^ 51 % 1024)) ∧
  (∀ w ws, w < 2 ^ 63 → (∀ o, mkInstr (w / 2 ^ 53) o = none) → decodeWords (w :: ws) = .bad .unassignedOpcode (w / 2 ^ 53)) ∧
  (∀ opc, (∀ o, mkInstr opc o = none) ∨ (opc < 1024 ∧ ∀ o, ∃ i, mkInstr opc o = some i ∧ i.isa? = some (opc, o))) ∧
  code (.bad .reservedWord 0) = some 1 ∧ code (.bad .badPrefix 0) = some 1 ∧ code (.bad .badExtension 0) = some 1 ∧
  code (.bad .noSuchForm 0) = some 1 ∧ code (.bad .unusedField 0) = some 1 ∧ code (.bad .unassignedOpcode 0) = some 2

/-- When the turn of a port that has not issued in this cycle comes and the first warp on it has one lane set that can
issue, at a position whose words are cached and decode to an instruction, and no Combine slot event is due (R404),
or a port has issued in this cycle, the step is exec of that instruction at its repeat index, for that lane set,
after the issue is counted; then the move is closed and what follows it at once follows. An event of the agenda runs
exec of the event in the same way. The agenda is the model's own way to say what comes next (assumption log 2), and
that the first of the lane sets that can issue is the primary is its choice (assumption log 20). (R70, R75, R164,
R167, R183, R404, 07_warps_and_issue.md) -/
def Obligations.StepRunsTheDecodedInstruction : Prop :=
  (∀ s d c p ms w rest x i k (ws : List Nat), s.secondary = none → s.agenda = .port d c p :: ms → s.clocksStopped = false →
    s.portsDone.contains (d, c, p) = false →
    let s0 : State := { s with agenda := ms }
    (s0.portsDone ≠ [] ∨ s0.slotEvents.find? s0.changes = none) → s0.portOrder d c p = w :: rest → s0.readySets w = [x] →
    (x.1.1 < w.image.codeStart + 8 ∨ ∃ y, s0.codeAt w (x.1.1 - 8) = .cached y ∧ isXHead y = false) →
    ws.length = k → (∀ j < k, s0.codeAt w (x.1.1 + 8 * j) = .cached (ws.getD j 0)) → decodeWords ws = .one i k →
    let j := i.atRepeat x.1.2.2
    let t : State := { (s0.noteIssue w x.2 1).portUsed w with cur := some (curOf w x i k) }
    ∀ u, exec j t = .next u → step s = .next (u.closeMove t j).finish) ∧
  (∀ s e ms, s.secondary = none → s.agenda = .event e :: ms → e.isa? = none →
    let t : State := { s with agenda := ms }
    ∀ u, exec e t = .next u → step s = .next (u.closeMove t e).finish)

/-- From every state, reachable or not, a step answers a next state: no fault and no refusal is met by a run. (R22,
R425, 21_faults_and_preemption.md, 95_what_each_step_holds.md) -/
def Obligations.EveryStepGoesOn : Prop :=
  ∀ s, GoesOn s

/-- An instruction of the table with an issue trap answers a next state in which every lane of the issuing set, whatever
its predicate, stands parked in one faulted record at the instruction with the lowest trap, FADDR 0 and EVENT 0, and
nothing else changes; where the warp is of the supervisor or the context has no handler entry, the record is the one
that escalates when the machine settles after the move, if no other record of the context is due. One that names in
an active lane a register that a matrix operation holds suspends the whole set before itself in a record that waits
for those registers, and nothing else changes. (R10, R22, R216, R223, R310, R425, R426, R443) -/
def Obligations.IssueTrapsAndHeldRegisters : Prop :=
  ∀ s i c w, s.cur = some c → (s.warp? c.wid).map (·.readBy c) = some w → w.lanes.length = 32 → (∀ l ∈ c.lanes, l < 32) → i.isa?.isSome = true →
    (s.issueTrap w i ≠ 0 → ∃ t, exec i s = .next t ∧ Parks s t w c.lanes (s.issueTrap w i) c.pc c.half 0 0 ∧
      (∀ x, s.ctx? w.ctx = some x → x.escalated = none → (w.supervisor = true ∨ x.trapv.toNat < 8) → s.escalates x = [] →
        (s.ctxs.map (·.id)).Nodup →
        ∃ y, t.escalateDue.ctx? w.ctx = some y ∧ y.escalated = some (c.wid, w.seqNext))) ∧
    (s.issueTrap w i = 0 → s.namesHeld w (activeLanes s i c w) i ≠ [] → s.hasRoom w 0 → ∃ t, exec i s = .next t ∧
      SuspendedIn s t 0 c.wid c.lanes (.hold (s.namesHeld w (activeLanes s i c w) i)) true [] ∧
      SuspendFrame s t c.wid c.lanes nowhere Warp.recordless id)

/-- From every state whose memories are in canonical form, a step that answers a next state answers one whose memories
are: device DRAM, host memory, both scratchpads, and every block's shared memory and weight-buffer allocation. The
form is the model's own. (09_memory_levels_and_continuations.md, 10_consistency_model.md) -/
def Obligations.MemoriesStayCanonical : Prop :=
  ∀ s t, s.memoryOk = true → step s = .next t → t.memoryOk = true

/-- After reset no context, launch, block, warp, engine operation or owned line exists, BOOT is 0, queues are off with
LOG2N 1, the display timing and the rendering registers hold their reset values on both dies, and every memory is in
canonical form. The empty memories are the model's choice (assumption log 4). (16_sample_stream.md Table 16.2,
23_dies_host_and_startup.md Table 23.2, 01_lane_machine.md) -/
def Obligations.ResetValues : Prop :=
  let s := State.reset
  s.memoryOk = true ∧ s.ctxs = [] ∧ s.launches = [] ∧ s.blocks = [] ∧ s.warps = [] ∧ s.ops = [] ∧ s.owned = [] ∧
  s.bootState = 0 ∧ s.bootFail = 0 ∧ s.bootWarm = false ∧ s.point = 0 ∧ s.belt = false ∧ s.ctxa0 = 0 ∧ s.ctxa1 = 0 ∧ s.ctxst = 0 ∧
  s.retained = [] ∧ s.dies.length = 2 ∧ s.queues.length = 16 ∧
  (∀ q < 16, let x := s.queue q
    x.en = false ∧ x.swIn = false ∧ x.err = false ∧ x.irq = false ∧ x.cls = 0 ∧ x.die = 0 ∧ x.ctx = 0 ∧ x.log2n = 1 ∧ x.tail = 0 ∧
      x.prog = 0 ∧ x.base0 = 0 ∧ x.base1 = 0 ∧ x.base2 = 0) ∧
  (∀ d < 2, let x := s.die d
    let r := x.render
    x.clkr = 0 ∧ x.dtim0 = 4096 ∧ x.dtim1 = 4166 ∧ x.dtim2 = 2000 ∧ x.cores.length = 32 ∧ x.sensors.length = 16 ∧
      r.ownerV = false ∧ r.ownerCtx = 0 ∧ r.rate = 0 ∧ r.wgt = 0 ∧ r.agesh = 10 ∧ r.sh = 0 ∧ r.lead = 0 ∧ r.th = 256 ∧ r.tw = 256 ∧
      r.rayl = 0 ∧ r.prbl = 0 ∧ r.maxw = 64 ∧ r.sbfb = 0 ∧ r.axl = 0 ∧ r.pt = 0 ∧ r.picks = 0 ∧ r.dropped = 0 ∧ r.fdrop = 0 ∧
      r.souEn = false ∧ r.rql = 2 ∧ r.recl = 0 ∧ r.seq = 0 ∧ r.miss = 0 ∧ r.pxdrop = 0 ∧ ∀ t, r.map.get t = 0)
end

