-- ==== Sys2Proof/Laws/Cells.lean ====
section
/-! SUPPORT. Laws of storage: what a key reads after a write, and that every operation keeps the canonical form. -/

namespace Sys2Proof

theorem Cells.get_drop {n : Nat} (m : Cells n) (k j : Nat) :
    Cells.get (Cells.drop m k) j = if j = k then 0 else Cells.get m j := by
  induction m with
  | nil => simp [Cells.get, Cells.drop]
  | cons c m ih =>
    unfold Cells.drop
    split <;> rename_i h
    · simp only [beq_iff_eq] at h
      rw [ih]
      split <;> rename_i hj
      · rfl
      · have : ¬ j = c.1 := by omega
        simp [Cells.get, this]
    · simp only [beq_iff_eq] at h
      simp only [Cells.get, ih]
      split <;> rename_i hj
      · simp only [beq_iff_eq] at hj
        have : ¬ j = k := by omega
        simp [this]
      · rfl

theorem Cells.get_put {n : Nat} (m : Cells n) (k j : Nat) (v : BitVec n) (h : ∀ c ∈ m, c.1 ≠ k) :
    Cells.get (Cells.put m k v) j = if j = k then v else Cells.get m j := by
  induction m with
  | nil => simp [Cells.get, Cells.put]
  | cons c m ih =>
    have h1 : c.1 ≠ k := h c (by simp)
    have h2 : ∀ c ∈ m, c.1 ≠ k := fun d hd => h d (by simp [hd])
    unfold Cells.put
    split
    · simp [Cells.get]
    · simp only [Cells.get, ih h2]
      split <;> rename_i hj
      · simp only [beq_iff_eq] at hj
        have : ¬ j = k := by omega
        simp [this]
      · rfl

theorem Cells.not_mem_drop {n : Nat} (m : Cells n) (k : Nat) : ∀ c ∈ Cells.drop m k, c.1 ≠ k := by
  induction m with
  | nil => simp [Cells.drop]
  | cons d m ih =>
    intro c hc
    unfold Cells.drop at hc
    split at hc <;> rename_i h
    · exact ih c hc
    · simp only [beq_iff_eq] at h
      rcases List.mem_cons.mp hc with rfl | hc
      · omega
      · exact ih c hc

/-- A key reads what was last written to it, and no other key changes. -/
@[simp] theorem Cells.get_set {n : Nat} (m : Cells n) (k j : Nat) (v : BitVec n) :
    Cells.get (Cells.set m k v) j = if j = k then v else Cells.get m j := by
  unfold Cells.set
  split <;> rename_i h
  · simp only [beq_iff_eq] at h
    rw [Cells.get_drop, h]
  · rw [Cells.get_put _ _ _ _ (Cells.not_mem_drop m k), Cells.get_drop]
    split <;> simp_all

@[simp] theorem Cells.get_nil {n : Nat} (k : Nat) : Cells.get ([] : Cells n) k = 0 := rfl

theorem Cells.wfFrom_mono {n : Nat} (m : Cells n) (lo hi : Nat) (h : lo ≤ hi) (w : Cells.wfFrom hi m = true) :
    Cells.wfFrom lo m = true := by
  cases m with
  | nil => rfl
  | cons c m =>
    simp only [Cells.wfFrom, Bool.and_eq_true, decide_eq_true_eq] at w ⊢
    exact ⟨⟨by omega, w.1.2⟩, w.2⟩

theorem Cells.wfFrom_drop {n : Nat} (m : Cells n) (k lo : Nat) (w : Cells.wfFrom lo m = true) :
    Cells.wfFrom lo (Cells.drop m k) = true := by
  induction m generalizing lo with
  | nil => rfl
  | cons c m ih =>
    simp only [Cells.wfFrom, Bool.and_eq_true, decide_eq_true_eq] at w
    unfold Cells.drop
    split
    · exact Cells.wfFrom_mono _ _ (c.1 + 1) (by omega) (ih _ w.2)
    · simp only [Cells.wfFrom, Bool.and_eq_true, decide_eq_true_eq]
      exact ⟨w.1, ih _ w.2⟩

theorem Cells.wfFrom_put {n : Nat} (m : Cells n) (k lo : Nat) (v : BitVec n) (hv : v ≠ 0) (hk : lo ≤ k)
    (h : ∀ c ∈ m, c.1 ≠ k) (w : Cells.wfFrom lo m = true) : Cells.wfFrom lo (Cells.put m k v) = true := by
  induction m generalizing lo with
  | nil =>
    have hv : ¬ v = 0#n := hv
    simp [Cells.put, Cells.wfFrom, hk, hv]
  | cons c m ih =>
    have h1 : c.1 ≠ k := h c (by simp)
    have h2 : ∀ c ∈ m, c.1 ≠ k := fun d hd => h d (by simp [hd])
    simp only [Cells.wfFrom, Bool.and_eq_true, decide_eq_true_eq] at w
    unfold Cells.put
    split
    · simp only [Cells.wfFrom, Bool.and_eq_true, decide_eq_true_eq]
      exact ⟨⟨hk, by simpa using hv⟩, ⟨by omega, w.1.2⟩, w.2⟩
    · simp only [Cells.wfFrom, Bool.and_eq_true, decide_eq_true_eq]
      exact ⟨w.1, ih _ (by omega) h2 w.2⟩

/-- Every write keeps the canonical form. -/
theorem Cells.wf_set {n : Nat} (m : Cells n) (k : Nat) (v : BitVec n) (w : Cells.wf m = true) :
    Cells.wf (Cells.set m k v) = true := by
  unfold Cells.set Cells.wf at *
  split <;> rename_i h
  · exact Cells.wfFrom_drop _ _ _ w
  · exact Cells.wfFrom_put _ _ _ _ (by simpa using h) (Nat.zero_le _) (Cells.not_mem_drop m k) (Cells.wfFrom_drop _ _ _ w)

theorem Cells.wfFrom_filter {n : Nat} (p : Nat × BitVec n → Bool) (m : Cells n) (lo : Nat)
    (w : Cells.wfFrom lo m = true) : Cells.wfFrom lo (m.filter p) = true := by
  induction m generalizing lo with
  | nil => rfl
  | cons c m ih =>
    simp only [Cells.wfFrom, Bool.and_eq_true, decide_eq_true_eq] at w
    rw [List.filter_cons]
    split
    · simp only [Cells.wfFrom, Bool.and_eq_true, decide_eq_true_eq]
      exact ⟨w.1, ih _ w.2⟩
    · exact Cells.wfFrom_mono _ _ (c.1 + 1) (by omega) (ih _ w.2)

/-- Dropping cells keeps the canonical form. -/
theorem Cells.wf_filter {n : Nat} (p : Nat × BitVec n → Bool) (m : Cells n) (w : Cells.wf m = true) :
    Cells.wf (m.filter p : Cells n) = true := Cells.wfFrom_filter p m 0 w

theorem Cells.get_of_lt {n : Nat} (m : Cells n) (lo k : Nat) (w : Cells.wfFrom lo m = true) (h : k < lo) :
    Cells.get m k = 0 := by
  induction m generalizing lo with
  | nil => rfl
  | cons c m ih =>
    simp only [Cells.wfFrom, Bool.and_eq_true, decide_eq_true_eq] at w
    have : ¬ k = c.1 := by omega
    simp only [Cells.get, beq_iff_eq, this, if_false]
    exact ih _ w.2 (by omega)

/-- Two storages in canonical form that read the same at every key are the same list. -/
theorem Cells.ext_wf {n : Nat} (a b : Cells n) (ha : Cells.wf a = true) (hb : Cells.wf b = true)
    (h : ∀ k, Cells.get a k = Cells.get b k) : a = b := by
  unfold Cells.wf at ha hb
  generalize 0 = lo at ha hb
  induction a generalizing b lo with
  | nil =>
    cases b with
    | nil => rfl
    | cons d b =>
      simp only [Cells.wfFrom, Bool.and_eq_true, decide_eq_true_eq, bne_iff_ne, ne_eq] at hb
      have := h d.1
      simp [Cells.get] at this
      exact absurd this.symm hb.1.2
  | cons c a ih =>
    cases b with
    | nil =>
      simp only [Cells.wfFrom, Bool.and_eq_true, decide_eq_true_eq, bne_iff_ne, ne_eq] at ha
      have := h c.1
      simp [Cells.get] at this
      exact absurd this ha.1.2
    | cons d b =>
      simp only [Cells.wfFrom, Bool.and_eq_true, decide_eq_true_eq, bne_iff_ne, ne_eq] at ha hb
      have hc := h c.1
      have hd := h d.1
      simp only [Cells.get, beq_self_eq_true, if_true] at hc hd
      have e1 : c.1 = d.1 := by
        rcases Nat.lt_trichotomy c.1 d.1 with g | g | g
        · have : ¬ c.1 = d.1 := by omega
          simp only [beq_iff_eq, this, if_false] at hc
          rw [Cells.get_of_lt b (d.1 + 1) c.1 hb.2 (by omega)] at hc
          exact absurd hc ha.1.2
        · exact g
        · have : ¬ d.1 = c.1 := by omega
          simp only [beq_iff_eq, this, if_false] at hd
          rw [Cells.get_of_lt a (c.1 + 1) d.1 ha.2 (by omega)] at hd
          exact absurd hd.symm hb.1.2
      have e2 : c.2 = d.2 := by simpa [e1] using hc
      have e3 : c = d := Prod.ext e1 e2
      subst e3
      congr 1
      refine ih b ?_ (c.1 + 1) ha.2 hb.2
      intro k
      have hk := h k
      simp only [Cells.get, beq_iff_eq] at hk
      by_cases g : k = c.1
      · rw [Cells.get_of_lt a (c.1 + 1) k ha.2 (by omega), Cells.get_of_lt b (c.1 + 1) k hb.2 (by omega)]
      · simpa [g] using hk

theorem Memory.wf_writeBytes (m : Memory) (a : Nat) (bs : List Byte) (w : Memory.wf m = true) :
    Memory.wf (Memory.writeBytes m a bs) = true := by
  induction bs generalizing m a with
  | nil => exact w
  | cons b bs ih => exact ih _ _ (Cells.wf_set m a b w)

/-- A byte outside the bytes written reads as before; one inside reads as written. -/
@[simp] theorem Memory.get_writeBytes (m : Memory) (a k : Nat) (bs : List Byte) :
    Cells.get (Memory.writeBytes m a bs) k =
      if a ≤ k ∧ k < a + bs.length then bs.getD (k - a) 0 else Cells.get m k := by
  induction bs generalizing m a with
  | nil =>
    simp [Memory.writeBytes]
  | cons b bs ih =>
    simp only [Memory.writeBytes, ih, Cells.get_set, List.length_cons]
    by_cases h : a + 1 ≤ k ∧ k < a + 1 + bs.length
    · have h2 : a ≤ k ∧ k < a + (bs.length + 1) := by omega
      obtain ⟨j, hj⟩ : ∃ j, k - a = j + 1 := ⟨k - a - 1, by omega⟩
      have hj2 : k - (a + 1) = j := by omega
      rw [if_pos h, if_pos h2, hj, hj2]
      simp
    · rw [if_neg h]
      by_cases g : k = a
      · subst g
        simp
      · have h2 : ¬ (a ≤ k ∧ k < a + (bs.length + 1)) := by omega
        rw [if_neg g, if_neg h2]

theorem Memory.readBytes_eq (m : Memory) (a n : Nat) :
    Memory.readBytes m a n = (List.range n).map (fun k => Cells.get m (a + k)) := by
  induction n generalizing a with
  | zero => rfl
  | succ n ih =>
    rw [Memory.readBytes, ih, List.range_succ_eq_map, List.map_cons, List.map_map]
    congr 1
    apply List.map_congr_left
    intro k _
    simp only [Function.comp]
    congr 1
    omega

@[simp] theorem Memory.length_readBytes (m : Memory) (a n : Nat) : (Memory.readBytes m a n).length = n := by
  simp [Memory.readBytes_eq]

/-- What was just written is read back. -/
@[simp] theorem Memory.readBytes_writeBytes (m : Memory) (a : Nat) (bs : List Byte) :
    Memory.readBytes (Memory.writeBytes m a bs) a bs.length = bs := by
  rw [Memory.readBytes_eq]
  apply List.ext_getElem
  · simp
  · intro k h1 h2
    simp only [List.length_map, List.length_range] at h1
    have h3 : a ≤ a + k ∧ a + k < a + bs.length := by omega
    simp [h1]

@[simp] theorem natToBytes_length (n v : Nat) : (natToBytes n v).length = n := by
  induction n generalizing v with
  | zero => rfl
  | succ n ih => simp [natToBytes, ih]

/-- Little-endian bytes of a number give back the number (R5). -/
@[simp] theorem bytesToNat_natToBytes (n v : Nat) : bytesToNat (natToBytes n v) = v % 256 ^ n := by
  induction n generalizing v with
  | zero => simp [natToBytes, bytesToNat, Nat.mod_one]
  | succ n ih =>
    simp only [natToBytes, bytesToNat, ih, BitVec.toNat_ofNat]
    rw [show (2 : Nat) ^ 8 = 256 from rfl, Nat.pow_succ, Nat.mul_comm (256 ^ n) 256, Nat.mod_mul]

end Sys2Proof
end

