-- ==== Sys2Proof/Laws/State.lean ====
section
/-! SUPPORT. What each update of the state leaves unchanged: one lemma per field per update. -/

namespace Sys2Proof.Machine

@[simp] theorem State.modDie_t9c (s : State) (d : Nat) (f : Die → Die) : (s.modDie d f).t9c = s.t9c := rfl
@[simp] theorem State.modDie_rev (s : State) (d : Nat) (f : Die → Die) : (s.modDie d f).rev = s.rev := rfl
@[simp] theorem State.modDie_keyHash (s : State) (d : Nat) (f : Die → Die) : (s.modDie d f).keyHash = s.keyHash := rfl
@[simp] theorem State.modDie_minVersion (s : State) (d : Nat) (f : Die → Die) : (s.modDie d f).minVersion = s.minVersion := rfl
@[simp] theorem State.modDie_firmware (s : State) (d : Nat) (f : Die → Die) : (s.modDie d f).firmware = s.firmware := rfl
@[simp] theorem State.modDie_bootFail (s : State) (d : Nat) (f : Die → Die) : (s.modDie d f).bootFail = s.bootFail := rfl
@[simp] theorem State.modDie_bootWarm (s : State) (d : Nat) (f : Die → Die) : (s.modDie d f).bootWarm = s.bootWarm := rfl
@[simp] theorem State.modDie_bootState (s : State) (d : Nat) (f : Die → Die) : (s.modDie d f).bootState = s.bootState := rfl
@[simp] theorem State.modDie_trainingValid (s : State) (d : Nat) (f : Die → Die) : (s.modDie d f).trainingValid = s.trainingValid := rfl
@[simp] theorem State.modDie_retentionValid (s : State) (d : Nat) (f : Die → Die) : (s.modDie d f).retentionValid = s.retentionValid := rfl
@[simp] theorem State.modDie_retained (s : State) (d : Nat) (f : Die → Die) : (s.modDie d f).retained = s.retained := rfl
@[simp] theorem State.modDie_keeping (s : State) (d : Nat) (f : Die → Die) : (s.modDie d f).keeping = s.keeping := rfl
@[simp] theorem State.modDie_mailbox (s : State) (d : Nat) (f : Die → Die) : (s.modDie d f).mailbox = s.mailbox := rfl
@[simp] theorem State.modDie_nonceDue (s : State) (d : Nat) (f : Die → Die) : (s.modDie d f).nonceDue = s.nonceDue := rfl
@[simp] theorem State.modDie_nonce (s : State) (d : Nat) (f : Die → Die) : (s.modDie d f).nonce = s.nonce := rfl
@[simp] theorem State.modDie_report (s : State) (d : Nat) (f : Die → Die) : (s.modDie d f).report = s.report := rfl
@[simp] theorem State.modDie_belt (s : State) (d : Nat) (f : Die → Die) : (s.modDie d f).belt = s.belt := rfl
@[simp] theorem State.modDie_point (s : State) (d : Nat) (f : Die → Die) : (s.modDie d f).point = s.point := rfl
@[simp] theorem State.modDie_temp (s : State) (d : Nat) (f : Die → Die) : (s.modDie d f).temp = s.temp := rfl
@[simp] theorem State.modDie_modeDue (s : State) (d : Nat) (f : Die → Die) : (s.modDie d f).modeDue = s.modeDue := rfl
@[simp] theorem State.modDie_hotTicks (s : State) (d : Nat) (f : Die → Die) : (s.modDie d f).hotTicks = s.hotTicks := rfl
@[simp] theorem State.modDie_coolTicks (s : State) (d : Nat) (f : Die → Die) : (s.modDie d f).coolTicks = s.coolTicks := rfl
@[simp] theorem State.modDie_clocksStopped (s : State) (d : Nat) (f : Die → Die) : (s.modDie d f).clocksStopped = s.clocksStopped := rfl
@[simp] theorem State.modDie_ctxa0 (s : State) (d : Nat) (f : Die → Die) : (s.modDie d f).ctxa0 = s.ctxa0 := rfl
@[simp] theorem State.modDie_ctxa1 (s : State) (d : Nat) (f : Die → Die) : (s.modDie d f).ctxa1 = s.ctxa1 := rfl
@[simp] theorem State.modDie_ctxst (s : State) (d : Nat) (f : Die → Die) : (s.modDie d f).ctxst = s.ctxst := rfl
@[simp] theorem State.modDie_queues (s : State) (d : Nat) (f : Die → Die) : (s.modDie d f).queues = s.queues := rfl
@[simp] theorem State.modDie_dram (s : State) (d : Nat) (f : Die → Die) : (s.modDie d f).dram = s.dram := rfl
@[simp] theorem State.modDie_hostMem (s : State) (d : Nat) (f : Die → Die) : (s.modDie d f).hostMem = s.hostMem := rfl
@[simp] theorem State.modDie_ctxs (s : State) (d : Nat) (f : Die → Die) : (s.modDie d f).ctxs = s.ctxs := rfl
@[simp] theorem State.modDie_launches (s : State) (d : Nat) (f : Die → Die) : (s.modDie d f).launches = s.launches := rfl
@[simp] theorem State.modDie_calls (s : State) (d : Nat) (f : Die → Die) : (s.modDie d f).calls = s.calls := rfl
@[simp] theorem State.modDie_blocks (s : State) (d : Nat) (f : Die → Die) : (s.modDie d f).blocks = s.blocks := rfl
@[simp] theorem State.modDie_warps (s : State) (d : Nat) (f : Die → Die) : (s.modDie d f).warps = s.warps := rfl
@[simp] theorem State.modDie_ops (s : State) (d : Nat) (f : Die → Die) : (s.modDie d f).ops = s.ops := rfl
@[simp] theorem State.modDie_owned (s : State) (d : Nat) (f : Die → Die) : (s.modDie d f).owned = s.owned := rfl
@[simp] theorem State.modDie_words (s : State) (d : Nat) (f : Die → Die) : (s.modDie d f).words = s.words := rfl
@[simp] theorem State.modDie_outbound (s : State) (d : Nat) (f : Die → Die) : (s.modDie d f).outbound = s.outbound := rfl
@[simp] theorem State.modDie_realTime (s : State) (d : Nat) (f : Die → Die) : (s.modDie d f).realTime = s.realTime := rfl
@[simp] theorem State.modDie_agenda (s : State) (d : Nat) (f : Die → Die) : (s.modDie d f).agenda = s.agenda := rfl
@[simp] theorem State.modDie_cur (s : State) (d : Nat) (f : Die → Die) : (s.modDie d f).cur = s.cur := rfl
@[simp] theorem State.modDie_secondary (s : State) (d : Nat) (f : Die → Die) : (s.modDie d f).secondary = s.secondary := rfl
@[simp] theorem State.modDie_portsDone (s : State) (d : Nat) (f : Die → Die) : (s.modDie d f).portsDone = s.portsDone := rfl
@[simp] theorem State.modDie_resumed (s : State) (d : Nat) (f : Die → Die) : (s.modDie d f).resumed = s.resumed := rfl
@[simp] theorem State.modDie_nextId (s : State) (d : Nat) (f : Die → Die) : (s.modDie d f).nextId = s.nextId := rfl
@[simp] theorem State.modDie_fresh (s : State) (d : Nat) (f : Die → Die) : (s.modDie d f).fresh = s.fresh := rfl
@[simp] theorem State.modDie_arrivals (s : State) (d : Nat) (f : Die → Die) : (s.modDie d f).arrivals = s.arrivals := rfl
@[simp] theorem State.modDie_hostWaiting (s : State) (d : Nat) (f : Die → Die) : (s.modDie d f).hostWaiting = s.hostWaiting := rfl
@[simp] theorem State.modDie_sensorWaiting (s : State) (d : Nat) (f : Die → Die) : (s.modDie d f).sensorWaiting = s.sensorWaiting := rfl

@[simp] theorem State.modWarp_t9c (s : State) (v : Nat) (f : Warp → Warp) : (s.modWarp v f).t9c = s.t9c := rfl
@[simp] theorem State.modWarp_rev (s : State) (v : Nat) (f : Warp → Warp) : (s.modWarp v f).rev = s.rev := rfl
@[simp] theorem State.modWarp_keyHash (s : State) (v : Nat) (f : Warp → Warp) : (s.modWarp v f).keyHash = s.keyHash := rfl
@[simp] theorem State.modWarp_minVersion (s : State) (v : Nat) (f : Warp → Warp) : (s.modWarp v f).minVersion = s.minVersion := rfl
@[simp] theorem State.modWarp_firmware (s : State) (v : Nat) (f : Warp → Warp) : (s.modWarp v f).firmware = s.firmware := rfl
@[simp] theorem State.modWarp_bootFail (s : State) (v : Nat) (f : Warp → Warp) : (s.modWarp v f).bootFail = s.bootFail := rfl
@[simp] theorem State.modWarp_bootWarm (s : State) (v : Nat) (f : Warp → Warp) : (s.modWarp v f).bootWarm = s.bootWarm := rfl
@[simp] theorem State.modWarp_bootState (s : State) (v : Nat) (f : Warp → Warp) : (s.modWarp v f).bootState = s.bootState := rfl
@[simp] theorem State.modWarp_trainingValid (s : State) (v : Nat) (f : Warp → Warp) : (s.modWarp v f).trainingValid = s.trainingValid := rfl
@[simp] theorem State.modWarp_retentionValid (s : State) (v : Nat) (f : Warp → Warp) : (s.modWarp v f).retentionValid = s.retentionValid := rfl
@[simp] theorem State.modWarp_retained (s : State) (v : Nat) (f : Warp → Warp) : (s.modWarp v f).retained = s.retained := rfl
@[simp] theorem State.modWarp_keeping (s : State) (v : Nat) (f : Warp → Warp) : (s.modWarp v f).keeping = s.keeping := rfl
@[simp] theorem State.modWarp_mailbox (s : State) (v : Nat) (f : Warp → Warp) : (s.modWarp v f).mailbox = s.mailbox := rfl
@[simp] theorem State.modWarp_nonceDue (s : State) (v : Nat) (f : Warp → Warp) : (s.modWarp v f).nonceDue = s.nonceDue := rfl
@[simp] theorem State.modWarp_nonce (s : State) (v : Nat) (f : Warp → Warp) : (s.modWarp v f).nonce = s.nonce := rfl
@[simp] theorem State.modWarp_report (s : State) (v : Nat) (f : Warp → Warp) : (s.modWarp v f).report = s.report := rfl
@[simp] theorem State.modWarp_belt (s : State) (v : Nat) (f : Warp → Warp) : (s.modWarp v f).belt = s.belt := rfl
@[simp] theorem State.modWarp_point (s : State) (v : Nat) (f : Warp → Warp) : (s.modWarp v f).point = s.point := rfl
@[simp] theorem State.modWarp_temp (s : State) (v : Nat) (f : Warp → Warp) : (s.modWarp v f).temp = s.temp := rfl
@[simp] theorem State.modWarp_modeDue (s : State) (v : Nat) (f : Warp → Warp) : (s.modWarp v f).modeDue = s.modeDue := rfl
@[simp] theorem State.modWarp_hotTicks (s : State) (v : Nat) (f : Warp → Warp) : (s.modWarp v f).hotTicks = s.hotTicks := rfl
@[simp] theorem State.modWarp_coolTicks (s : State) (v : Nat) (f : Warp → Warp) : (s.modWarp v f).coolTicks = s.coolTicks := rfl
@[simp] theorem State.modWarp_clocksStopped (s : State) (v : Nat) (f : Warp → Warp) : (s.modWarp v f).clocksStopped = s.clocksStopped := rfl
@[simp] theorem State.modWarp_ctxa0 (s : State) (v : Nat) (f : Warp → Warp) : (s.modWarp v f).ctxa0 = s.ctxa0 := rfl
@[simp] theorem State.modWarp_ctxa1 (s : State) (v : Nat) (f : Warp → Warp) : (s.modWarp v f).ctxa1 = s.ctxa1 := rfl
@[simp] theorem State.modWarp_ctxst (s : State) (v : Nat) (f : Warp → Warp) : (s.modWarp v f).ctxst = s.ctxst := rfl
@[simp] theorem State.modWarp_queues (s : State) (v : Nat) (f : Warp → Warp) : (s.modWarp v f).queues = s.queues := rfl
@[simp] theorem State.modWarp_dies (s : State) (v : Nat) (f : Warp → Warp) : (s.modWarp v f).dies = s.dies := rfl
@[simp] theorem State.modWarp_dram (s : State) (v : Nat) (f : Warp → Warp) : (s.modWarp v f).dram = s.dram := rfl
@[simp] theorem State.modWarp_hostMem (s : State) (v : Nat) (f : Warp → Warp) : (s.modWarp v f).hostMem = s.hostMem := rfl
@[simp] theorem State.modWarp_ctxs (s : State) (v : Nat) (f : Warp → Warp) : (s.modWarp v f).ctxs = s.ctxs := rfl
@[simp] theorem State.modWarp_launches (s : State) (v : Nat) (f : Warp → Warp) : (s.modWarp v f).launches = s.launches := rfl
@[simp] theorem State.modWarp_calls (s : State) (v : Nat) (f : Warp → Warp) : (s.modWarp v f).calls = s.calls := rfl
@[simp] theorem State.modWarp_blocks (s : State) (v : Nat) (f : Warp → Warp) : (s.modWarp v f).blocks = s.blocks := rfl
@[simp] theorem State.modWarp_ops (s : State) (v : Nat) (f : Warp → Warp) : (s.modWarp v f).ops = s.ops := rfl
@[simp] theorem State.modWarp_owned (s : State) (v : Nat) (f : Warp → Warp) : (s.modWarp v f).owned = s.owned := rfl
@[simp] theorem State.modWarp_words (s : State) (v : Nat) (f : Warp → Warp) : (s.modWarp v f).words = s.words := rfl
@[simp] theorem State.modWarp_outbound (s : State) (v : Nat) (f : Warp → Warp) : (s.modWarp v f).outbound = s.outbound := rfl
@[simp] theorem State.modWarp_realTime (s : State) (v : Nat) (f : Warp → Warp) : (s.modWarp v f).realTime = s.realTime := rfl
@[simp] theorem State.modWarp_agenda (s : State) (v : Nat) (f : Warp → Warp) : (s.modWarp v f).agenda = s.agenda := rfl
@[simp] theorem State.modWarp_cur (s : State) (v : Nat) (f : Warp → Warp) : (s.modWarp v f).cur = s.cur := rfl
@[simp] theorem State.modWarp_secondary (s : State) (v : Nat) (f : Warp → Warp) : (s.modWarp v f).secondary = s.secondary := rfl
@[simp] theorem State.modWarp_portsDone (s : State) (v : Nat) (f : Warp → Warp) : (s.modWarp v f).portsDone = s.portsDone := rfl
@[simp] theorem State.modWarp_resumed (s : State) (v : Nat) (f : Warp → Warp) : (s.modWarp v f).resumed = s.resumed := rfl
@[simp] theorem State.modWarp_nextId (s : State) (v : Nat) (f : Warp → Warp) : (s.modWarp v f).nextId = s.nextId := rfl
@[simp] theorem State.modWarp_fresh (s : State) (v : Nat) (f : Warp → Warp) : (s.modWarp v f).fresh = s.fresh := rfl
@[simp] theorem State.modWarp_arrivals (s : State) (v : Nat) (f : Warp → Warp) : (s.modWarp v f).arrivals = s.arrivals := rfl
@[simp] theorem State.modWarp_hostWaiting (s : State) (v : Nat) (f : Warp → Warp) : (s.modWarp v f).hostWaiting = s.hostWaiting := rfl
@[simp] theorem State.modWarp_sensorWaiting (s : State) (v : Nat) (f : Warp → Warp) : (s.modWarp v f).sensorWaiting = s.sensorWaiting := rfl

@[simp] theorem State.modBlock_t9c (s : State) (b : Nat) (f : Block → Block) : (s.modBlock b f).t9c = s.t9c := rfl
@[simp] theorem State.modBlock_rev (s : State) (b : Nat) (f : Block → Block) : (s.modBlock b f).rev = s.rev := rfl
@[simp] theorem State.modBlock_keyHash (s : State) (b : Nat) (f : Block → Block) : (s.modBlock b f).keyHash = s.keyHash := rfl
@[simp] theorem State.modBlock_minVersion (s : State) (b : Nat) (f : Block → Block) : (s.modBlock b f).minVersion = s.minVersion := rfl
@[simp] theorem State.modBlock_firmware (s : State) (b : Nat) (f : Block → Block) : (s.modBlock b f).firmware = s.firmware := rfl
@[simp] theorem State.modBlock_bootFail (s : State) (b : Nat) (f : Block → Block) : (s.modBlock b f).bootFail = s.bootFail := rfl
@[simp] theorem State.modBlock_bootWarm (s : State) (b : Nat) (f : Block → Block) : (s.modBlock b f).bootWarm = s.bootWarm := rfl
@[simp] theorem State.modBlock_bootState (s : State) (b : Nat) (f : Block → Block) : (s.modBlock b f).bootState = s.bootState := rfl
@[simp] theorem State.modBlock_trainingValid (s : State) (b : Nat) (f : Block → Block) : (s.modBlock b f).trainingValid = s.trainingValid := rfl
@[simp] theorem State.modBlock_retentionValid (s : State) (b : Nat) (f : Block → Block) : (s.modBlock b f).retentionValid = s.retentionValid := rfl
@[simp] theorem State.modBlock_retained (s : State) (b : Nat) (f : Block → Block) : (s.modBlock b f).retained = s.retained := rfl
@[simp] theorem State.modBlock_keeping (s : State) (b : Nat) (f : Block → Block) : (s.modBlock b f).keeping = s.keeping := rfl
@[simp] theorem State.modBlock_mailbox (s : State) (b : Nat) (f : Block → Block) : (s.modBlock b f).mailbox = s.mailbox := rfl
@[simp] theorem State.modBlock_nonceDue (s : State) (b : Nat) (f : Block → Block) : (s.modBlock b f).nonceDue = s.nonceDue := rfl
@[simp] theorem State.modBlock_nonce (s : State) (b : Nat) (f : Block → Block) : (s.modBlock b f).nonce = s.nonce := rfl
@[simp] theorem State.modBlock_report (s : State) (b : Nat) (f : Block → Block) : (s.modBlock b f).report = s.report := rfl
@[simp] theorem State.modBlock_belt (s : State) (b : Nat) (f : Block → Block) : (s.modBlock b f).belt = s.belt := rfl
@[simp] theorem State.modBlock_point (s : State) (b : Nat) (f : Block → Block) : (s.modBlock b f).point = s.point := rfl
@[simp] theorem State.modBlock_temp (s : State) (b : Nat) (f : Block → Block) : (s.modBlock b f).temp = s.temp := rfl
@[simp] theorem State.modBlock_modeDue (s : State) (b : Nat) (f : Block → Block) : (s.modBlock b f).modeDue = s.modeDue := rfl
@[simp] theorem State.modBlock_hotTicks (s : State) (b : Nat) (f : Block → Block) : (s.modBlock b f).hotTicks = s.hotTicks := rfl
@[simp] theorem State.modBlock_coolTicks (s : State) (b : Nat) (f : Block → Block) : (s.modBlock b f).coolTicks = s.coolTicks := rfl
@[simp] theorem State.modBlock_clocksStopped (s : State) (b : Nat) (f : Block → Block) : (s.modBlock b f).clocksStopped = s.clocksStopped := rfl
@[simp] theorem State.modBlock_ctxa0 (s : State) (b : Nat) (f : Block → Block) : (s.modBlock b f).ctxa0 = s.ctxa0 := rfl
@[simp] theorem State.modBlock_ctxa1 (s : State) (b : Nat) (f : Block → Block) : (s.modBlock b f).ctxa1 = s.ctxa1 := rfl
@[simp] theorem State.modBlock_ctxst (s : State) (b : Nat) (f : Block → Block) : (s.modBlock b f).ctxst = s.ctxst := rfl
@[simp] theorem State.modBlock_queues (s : State) (b : Nat) (f : Block → Block) : (s.modBlock b f).queues = s.queues := rfl
@[simp] theorem State.modBlock_dies (s : State) (b : Nat) (f : Block → Block) : (s.modBlock b f).dies = s.dies := rfl
@[simp] theorem State.modBlock_dram (s : State) (b : Nat) (f : Block → Block) : (s.modBlock b f).dram = s.dram := rfl
@[simp] theorem State.modBlock_hostMem (s : State) (b : Nat) (f : Block → Block) : (s.modBlock b f).hostMem = s.hostMem := rfl
@[simp] theorem State.modBlock_ctxs (s : State) (b : Nat) (f : Block → Block) : (s.modBlock b f).ctxs = s.ctxs := rfl
@[simp] theorem State.modBlock_launches (s : State) (b : Nat) (f : Block → Block) : (s.modBlock b f).launches = s.launches := rfl
@[simp] theorem State.modBlock_calls (s : State) (b : Nat) (f : Block → Block) : (s.modBlock b f).calls = s.calls := rfl
@[simp] theorem State.modBlock_warps (s : State) (b : Nat) (f : Block → Block) : (s.modBlock b f).warps = s.warps := rfl
@[simp] theorem State.modBlock_ops (s : State) (b : Nat) (f : Block → Block) : (s.modBlock b f).ops = s.ops := rfl
@[simp] theorem State.modBlock_owned (s : State) (b : Nat) (f : Block → Block) : (s.modBlock b f).owned = s.owned := rfl
@[simp] theorem State.modBlock_words (s : State) (b : Nat) (f : Block → Block) : (s.modBlock b f).words = s.words := rfl
@[simp] theorem State.modBlock_outbound (s : State) (b : Nat) (f : Block → Block) : (s.modBlock b f).outbound = s.outbound := rfl
@[simp] theorem State.modBlock_realTime (s : State) (b : Nat) (f : Block → Block) : (s.modBlock b f).realTime = s.realTime := rfl
@[simp] theorem State.modBlock_agenda (s : State) (b : Nat) (f : Block → Block) : (s.modBlock b f).agenda = s.agenda := rfl
@[simp] theorem State.modBlock_cur (s : State) (b : Nat) (f : Block → Block) : (s.modBlock b f).cur = s.cur := rfl
@[simp] theorem State.modBlock_secondary (s : State) (b : Nat) (f : Block → Block) : (s.modBlock b f).secondary = s.secondary := rfl
@[simp] theorem State.modBlock_portsDone (s : State) (b : Nat) (f : Block → Block) : (s.modBlock b f).portsDone = s.portsDone := rfl
@[simp] theorem State.modBlock_resumed (s : State) (b : Nat) (f : Block → Block) : (s.modBlock b f).resumed = s.resumed := rfl
@[simp] theorem State.modBlock_nextId (s : State) (b : Nat) (f : Block → Block) : (s.modBlock b f).nextId = s.nextId := rfl
@[simp] theorem State.modBlock_fresh (s : State) (b : Nat) (f : Block → Block) : (s.modBlock b f).fresh = s.fresh := rfl
@[simp] theorem State.modBlock_arrivals (s : State) (b : Nat) (f : Block → Block) : (s.modBlock b f).arrivals = s.arrivals := rfl
@[simp] theorem State.modBlock_hostWaiting (s : State) (b : Nat) (f : Block → Block) : (s.modBlock b f).hostWaiting = s.hostWaiting := rfl
@[simp] theorem State.modBlock_sensorWaiting (s : State) (b : Nat) (f : Block → Block) : (s.modBlock b f).sensorWaiting = s.sensorWaiting := rfl

@[simp] theorem State.modCtx_t9c (s : State) (c : Nat) (f : Context → Context) : (s.modCtx c f).t9c = s.t9c := rfl
@[simp] theorem State.modCtx_rev (s : State) (c : Nat) (f : Context → Context) : (s.modCtx c f).rev = s.rev := rfl
@[simp] theorem State.modCtx_keyHash (s : State) (c : Nat) (f : Context → Context) : (s.modCtx c f).keyHash = s.keyHash := rfl
@[simp] theorem State.modCtx_minVersion (s : State) (c : Nat) (f : Context → Context) : (s.modCtx c f).minVersion = s.minVersion := rfl
@[simp] theorem State.modCtx_firmware (s : State) (c : Nat) (f : Context → Context) : (s.modCtx c f).firmware = s.firmware := rfl
@[simp] theorem State.modCtx_bootFail (s : State) (c : Nat) (f : Context → Context) : (s.modCtx c f).bootFail = s.bootFail := rfl
@[simp] theorem State.modCtx_bootWarm (s : State) (c : Nat) (f : Context → Context) : (s.modCtx c f).bootWarm = s.bootWarm := rfl
@[simp] theorem State.modCtx_bootState (s : State) (c : Nat) (f : Context → Context) : (s.modCtx c f).bootState = s.bootState := rfl
@[simp] theorem State.modCtx_trainingValid (s : State) (c : Nat) (f : Context → Context) : (s.modCtx c f).trainingValid = s.trainingValid := rfl
@[simp] theorem State.modCtx_retentionValid (s : State) (c : Nat) (f : Context → Context) : (s.modCtx c f).retentionValid = s.retentionValid := rfl
@[simp] theorem State.modCtx_retained (s : State) (c : Nat) (f : Context → Context) : (s.modCtx c f).retained = s.retained := rfl
@[simp] theorem State.modCtx_keeping (s : State) (c : Nat) (f : Context → Context) : (s.modCtx c f).keeping = s.keeping := rfl
@[simp] theorem State.modCtx_mailbox (s : State) (c : Nat) (f : Context → Context) : (s.modCtx c f).mailbox = s.mailbox := rfl
@[simp] theorem State.modCtx_nonceDue (s : State) (c : Nat) (f : Context → Context) : (s.modCtx c f).nonceDue = s.nonceDue := rfl
@[simp] theorem State.modCtx_nonce (s : State) (c : Nat) (f : Context → Context) : (s.modCtx c f).nonce = s.nonce := rfl
@[simp] theorem State.modCtx_report (s : State) (c : Nat) (f : Context → Context) : (s.modCtx c f).report = s.report := rfl
@[simp] theorem State.modCtx_belt (s : State) (c : Nat) (f : Context → Context) : (s.modCtx c f).belt = s.belt := rfl
@[simp] theorem State.modCtx_point (s : State) (c : Nat) (f : Context → Context) : (s.modCtx c f).point = s.point := rfl
@[simp] theorem State.modCtx_temp (s : State) (c : Nat) (f : Context → Context) : (s.modCtx c f).temp = s.temp := rfl
@[simp] theorem State.modCtx_modeDue (s : State) (c : Nat) (f : Context → Context) : (s.modCtx c f).modeDue = s.modeDue := rfl
@[simp] theorem State.modCtx_hotTicks (s : State) (c : Nat) (f : Context → Context) : (s.modCtx c f).hotTicks = s.hotTicks := rfl
@[simp] theorem State.modCtx_coolTicks (s : State) (c : Nat) (f : Context → Context) : (s.modCtx c f).coolTicks = s.coolTicks := rfl
@[simp] theorem State.modCtx_clocksStopped (s : State) (c : Nat) (f : Context → Context) : (s.modCtx c f).clocksStopped = s.clocksStopped := rfl
@[simp] theorem State.modCtx_ctxa0 (s : State) (c : Nat) (f : Context → Context) : (s.modCtx c f).ctxa0 = s.ctxa0 := rfl
@[simp] theorem State.modCtx_ctxa1 (s : State) (c : Nat) (f : Context → Context) : (s.modCtx c f).ctxa1 = s.ctxa1 := rfl
@[simp] theorem State.modCtx_ctxst (s : State) (c : Nat) (f : Context → Context) : (s.modCtx c f).ctxst = s.ctxst := rfl
@[simp] theorem State.modCtx_queues (s : State) (c : Nat) (f : Context → Context) : (s.modCtx c f).queues = s.queues := rfl
@[simp] theorem State.modCtx_dies (s : State) (c : Nat) (f : Context → Context) : (s.modCtx c f).dies = s.dies := rfl
@[simp] theorem State.modCtx_dram (s : State) (c : Nat) (f : Context → Context) : (s.modCtx c f).dram = s.dram := rfl
@[simp] theorem State.modCtx_hostMem (s : State) (c : Nat) (f : Context → Context) : (s.modCtx c f).hostMem = s.hostMem := rfl
@[simp] theorem State.modCtx_launches (s : State) (c : Nat) (f : Context → Context) : (s.modCtx c f).launches = s.launches := rfl
@[simp] theorem State.modCtx_calls (s : State) (c : Nat) (f : Context → Context) : (s.modCtx c f).calls = s.calls := rfl
@[simp] theorem State.modCtx_blocks (s : State) (c : Nat) (f : Context → Context) : (s.modCtx c f).blocks = s.blocks := rfl
@[simp] theorem State.modCtx_warps (s : State) (c : Nat) (f : Context → Context) : (s.modCtx c f).warps = s.warps := rfl
@[simp] theorem State.modCtx_ops (s : State) (c : Nat) (f : Context → Context) : (s.modCtx c f).ops = s.ops := rfl
@[simp] theorem State.modCtx_owned (s : State) (c : Nat) (f : Context → Context) : (s.modCtx c f).owned = s.owned := rfl
@[simp] theorem State.modCtx_words (s : State) (c : Nat) (f : Context → Context) : (s.modCtx c f).words = s.words := rfl
@[simp] theorem State.modCtx_outbound (s : State) (c : Nat) (f : Context → Context) : (s.modCtx c f).outbound = s.outbound := rfl
@[simp] theorem State.modCtx_realTime (s : State) (c : Nat) (f : Context → Context) : (s.modCtx c f).realTime = s.realTime := rfl
@[simp] theorem State.modCtx_agenda (s : State) (c : Nat) (f : Context → Context) : (s.modCtx c f).agenda = s.agenda := rfl
@[simp] theorem State.modCtx_cur (s : State) (c : Nat) (f : Context → Context) : (s.modCtx c f).cur = s.cur := rfl
@[simp] theorem State.modCtx_secondary (s : State) (c : Nat) (f : Context → Context) : (s.modCtx c f).secondary = s.secondary := rfl
@[simp] theorem State.modCtx_portsDone (s : State) (c : Nat) (f : Context → Context) : (s.modCtx c f).portsDone = s.portsDone := rfl
@[simp] theorem State.modCtx_resumed (s : State) (c : Nat) (f : Context → Context) : (s.modCtx c f).resumed = s.resumed := rfl
@[simp] theorem State.modCtx_nextId (s : State) (c : Nat) (f : Context → Context) : (s.modCtx c f).nextId = s.nextId := rfl
@[simp] theorem State.modCtx_fresh (s : State) (c : Nat) (f : Context → Context) : (s.modCtx c f).fresh = s.fresh := rfl
@[simp] theorem State.modCtx_arrivals (s : State) (c : Nat) (f : Context → Context) : (s.modCtx c f).arrivals = s.arrivals := rfl
@[simp] theorem State.modCtx_hostWaiting (s : State) (c : Nat) (f : Context → Context) : (s.modCtx c f).hostWaiting = s.hostWaiting := rfl
@[simp] theorem State.modCtx_sensorWaiting (s : State) (c : Nat) (f : Context → Context) : (s.modCtx c f).sensorWaiting = s.sensorWaiting := rfl

@[simp] theorem State.modLaunch_t9c (s : State) (l : Nat) (f : Launch → Launch) : (s.modLaunch l f).t9c = s.t9c := rfl
@[simp] theorem State.modLaunch_rev (s : State) (l : Nat) (f : Launch → Launch) : (s.modLaunch l f).rev = s.rev := rfl
@[simp] theorem State.modLaunch_keyHash (s : State) (l : Nat) (f : Launch → Launch) : (s.modLaunch l f).keyHash = s.keyHash := rfl
@[simp] theorem State.modLaunch_minVersion (s : State) (l : Nat) (f : Launch → Launch) : (s.modLaunch l f).minVersion = s.minVersion := rfl
@[simp] theorem State.modLaunch_firmware (s : State) (l : Nat) (f : Launch → Launch) : (s.modLaunch l f).firmware = s.firmware := rfl
@[simp] theorem State.modLaunch_bootFail (s : State) (l : Nat) (f : Launch → Launch) : (s.modLaunch l f).bootFail = s.bootFail := rfl
@[simp] theorem State.modLaunch_bootWarm (s : State) (l : Nat) (f : Launch → Launch) : (s.modLaunch l f).bootWarm = s.bootWarm := rfl
@[simp] theorem State.modLaunch_bootState (s : State) (l : Nat) (f : Launch → Launch) : (s.modLaunch l f).bootState = s.bootState := rfl
@[simp] theorem State.modLaunch_trainingValid (s : State) (l : Nat) (f : Launch → Launch) : (s.modLaunch l f).trainingValid = s.trainingValid := rfl
@[simp] theorem State.modLaunch_retentionValid (s : State) (l : Nat) (f : Launch → Launch) : (s.modLaunch l f).retentionValid = s.retentionValid := rfl
@[simp] theorem State.modLaunch_retained (s : State) (l : Nat) (f : Launch → Launch) : (s.modLaunch l f).retained = s.retained := rfl
@[simp] theorem State.modLaunch_keeping (s : State) (l : Nat) (f : Launch → Launch) : (s.modLaunch l f).keeping = s.keeping := rfl
@[simp] theorem State.modLaunch_mailbox (s : State) (l : Nat) (f : Launch → Launch) : (s.modLaunch l f).mailbox = s.mailbox := rfl
@[simp] theorem State.modLaunch_nonceDue (s : State) (l : Nat) (f : Launch → Launch) : (s.modLaunch l f).nonceDue = s.nonceDue := rfl
@[simp] theorem State.modLaunch_nonce (s : State) (l : Nat) (f : Launch → Launch) : (s.modLaunch l f).nonce = s.nonce := rfl
@[simp] theorem State.modLaunch_report (s : State) (l : Nat) (f : Launch → Launch) : (s.modLaunch l f).report = s.report := rfl
@[simp] theorem State.modLaunch_belt (s : State) (l : Nat) (f : Launch → Launch) : (s.modLaunch l f).belt = s.belt := rfl
@[simp] theorem State.modLaunch_point (s : State) (l : Nat) (f : Launch → Launch) : (s.modLaunch l f).point = s.point := rfl
@[simp] theorem State.modLaunch_temp (s : State) (l : Nat) (f : Launch → Launch) : (s.modLaunch l f).temp = s.temp := rfl
@[simp] theorem State.modLaunch_modeDue (s : State) (l : Nat) (f : Launch → Launch) : (s.modLaunch l f).modeDue = s.modeDue := rfl
@[simp] theorem State.modLaunch_hotTicks (s : State) (l : Nat) (f : Launch → Launch) : (s.modLaunch l f).hotTicks = s.hotTicks := rfl
@[simp] theorem State.modLaunch_coolTicks (s : State) (l : Nat) (f : Launch → Launch) : (s.modLaunch l f).coolTicks = s.coolTicks := rfl
@[simp] theorem State.modLaunch_clocksStopped (s : State) (l : Nat) (f : Launch → Launch) : (s.modLaunch l f).clocksStopped = s.clocksStopped := rfl
@[simp] theorem State.modLaunch_ctxa0 (s : State) (l : Nat) (f : Launch → Launch) : (s.modLaunch l f).ctxa0 = s.ctxa0 := rfl
@[simp] theorem State.modLaunch_ctxa1 (s : State) (l : Nat) (f : Launch → Launch) : (s.modLaunch l f).ctxa1 = s.ctxa1 := rfl
@[simp] theorem State.modLaunch_ctxst (s : State) (l : Nat) (f : Launch → Launch) : (s.modLaunch l f).ctxst = s.ctxst := rfl
@[simp] theorem State.modLaunch_queues (s : State) (l : Nat) (f : Launch → Launch) : (s.modLaunch l f).queues = s.queues := rfl
@[simp] theorem State.modLaunch_dies (s : State) (l : Nat) (f : Launch → Launch) : (s.modLaunch l f).dies = s.dies := rfl
@[simp] theorem State.modLaunch_dram (s : State) (l : Nat) (f : Launch → Launch) : (s.modLaunch l f).dram = s.dram := rfl
@[simp] theorem State.modLaunch_hostMem (s : State) (l : Nat) (f : Launch → Launch) : (s.modLaunch l f).hostMem = s.hostMem := rfl
@[simp] theorem State.modLaunch_ctxs (s : State) (l : Nat) (f : Launch → Launch) : (s.modLaunch l f).ctxs = s.ctxs := rfl
@[simp] theorem State.modLaunch_calls (s : State) (l : Nat) (f : Launch → Launch) : (s.modLaunch l f).calls = s.calls := rfl
@[simp] theorem State.modLaunch_blocks (s : State) (l : Nat) (f : Launch → Launch) : (s.modLaunch l f).blocks = s.blocks := rfl
@[simp] theorem State.modLaunch_warps (s : State) (l : Nat) (f : Launch → Launch) : (s.modLaunch l f).warps = s.warps := rfl
@[simp] theorem State.modLaunch_ops (s : State) (l : Nat) (f : Launch → Launch) : (s.modLaunch l f).ops = s.ops := rfl
@[simp] theorem State.modLaunch_owned (s : State) (l : Nat) (f : Launch → Launch) : (s.modLaunch l f).owned = s.owned := rfl
@[simp] theorem State.modLaunch_words (s : State) (l : Nat) (f : Launch → Launch) : (s.modLaunch l f).words = s.words := rfl
@[simp] theorem State.modLaunch_outbound (s : State) (l : Nat) (f : Launch → Launch) : (s.modLaunch l f).outbound = s.outbound := rfl
@[simp] theorem State.modLaunch_realTime (s : State) (l : Nat) (f : Launch → Launch) : (s.modLaunch l f).realTime = s.realTime := rfl
@[simp] theorem State.modLaunch_agenda (s : State) (l : Nat) (f : Launch → Launch) : (s.modLaunch l f).agenda = s.agenda := rfl
@[simp] theorem State.modLaunch_cur (s : State) (l : Nat) (f : Launch → Launch) : (s.modLaunch l f).cur = s.cur := rfl
@[simp] theorem State.modLaunch_secondary (s : State) (l : Nat) (f : Launch → Launch) : (s.modLaunch l f).secondary = s.secondary := rfl
@[simp] theorem State.modLaunch_portsDone (s : State) (l : Nat) (f : Launch → Launch) : (s.modLaunch l f).portsDone = s.portsDone := rfl
@[simp] theorem State.modLaunch_resumed (s : State) (l : Nat) (f : Launch → Launch) : (s.modLaunch l f).resumed = s.resumed := rfl
@[simp] theorem State.modLaunch_nextId (s : State) (l : Nat) (f : Launch → Launch) : (s.modLaunch l f).nextId = s.nextId := rfl
@[simp] theorem State.modLaunch_fresh (s : State) (l : Nat) (f : Launch → Launch) : (s.modLaunch l f).fresh = s.fresh := rfl
@[simp] theorem State.modLaunch_arrivals (s : State) (l : Nat) (f : Launch → Launch) : (s.modLaunch l f).arrivals = s.arrivals := rfl
@[simp] theorem State.modLaunch_hostWaiting (s : State) (l : Nat) (f : Launch → Launch) : (s.modLaunch l f).hostWaiting = s.hostWaiting := rfl
@[simp] theorem State.modLaunch_sensorWaiting (s : State) (l : Nat) (f : Launch → Launch) : (s.modLaunch l f).sensorWaiting = s.sensorWaiting := rfl

@[simp] theorem State.modOp_t9c (s : State) (k : Nat) (f : EngineOp → EngineOp) : (s.modOp k f).t9c = s.t9c := rfl
@[simp] theorem State.modOp_rev (s : State) (k : Nat) (f : EngineOp → EngineOp) : (s.modOp k f).rev = s.rev := rfl
@[simp] theorem State.modOp_keyHash (s : State) (k : Nat) (f : EngineOp → EngineOp) : (s.modOp k f).keyHash = s.keyHash := rfl
@[simp] theorem State.modOp_minVersion (s : State) (k : Nat) (f : EngineOp → EngineOp) : (s.modOp k f).minVersion = s.minVersion := rfl
@[simp] theorem State.modOp_firmware (s : State) (k : Nat) (f : EngineOp → EngineOp) : (s.modOp k f).firmware = s.firmware := rfl
@[simp] theorem State.modOp_bootFail (s : State) (k : Nat) (f : EngineOp → EngineOp) : (s.modOp k f).bootFail = s.bootFail := rfl
@[simp] theorem State.modOp_bootWarm (s : State) (k : Nat) (f : EngineOp → EngineOp) : (s.modOp k f).bootWarm = s.bootWarm := rfl
@[simp] theorem State.modOp_bootState (s : State) (k : Nat) (f : EngineOp → EngineOp) : (s.modOp k f).bootState = s.bootState := rfl
@[simp] theorem State.modOp_trainingValid (s : State) (k : Nat) (f : EngineOp → EngineOp) : (s.modOp k f).trainingValid = s.trainingValid := rfl
@[simp] theorem State.modOp_retentionValid (s : State) (k : Nat) (f : EngineOp → EngineOp) : (s.modOp k f).retentionValid = s.retentionValid := rfl
@[simp] theorem State.modOp_retained (s : State) (k : Nat) (f : EngineOp → EngineOp) : (s.modOp k f).retained = s.retained := rfl
@[simp] theorem State.modOp_keeping (s : State) (k : Nat) (f : EngineOp → EngineOp) : (s.modOp k f).keeping = s.keeping := rfl
@[simp] theorem State.modOp_mailbox (s : State) (k : Nat) (f : EngineOp → EngineOp) : (s.modOp k f).mailbox = s.mailbox := rfl
@[simp] theorem State.modOp_nonceDue (s : State) (k : Nat) (f : EngineOp → EngineOp) : (s.modOp k f).nonceDue = s.nonceDue := rfl
@[simp] theorem State.modOp_nonce (s : State) (k : Nat) (f : EngineOp → EngineOp) : (s.modOp k f).nonce = s.nonce := rfl
@[simp] theorem State.modOp_report (s : State) (k : Nat) (f : EngineOp → EngineOp) : (s.modOp k f).report = s.report := rfl
@[simp] theorem State.modOp_belt (s : State) (k : Nat) (f : EngineOp → EngineOp) : (s.modOp k f).belt = s.belt := rfl
@[simp] theorem State.modOp_point (s : State) (k : Nat) (f : EngineOp → EngineOp) : (s.modOp k f).point = s.point := rfl
@[simp] theorem State.modOp_temp (s : State) (k : Nat) (f : EngineOp → EngineOp) : (s.modOp k f).temp = s.temp := rfl
@[simp] theorem State.modOp_modeDue (s : State) (k : Nat) (f : EngineOp → EngineOp) : (s.modOp k f).modeDue = s.modeDue := rfl
@[simp] theorem State.modOp_hotTicks (s : State) (k : Nat) (f : EngineOp → EngineOp) : (s.modOp k f).hotTicks = s.hotTicks := rfl
@[simp] theorem State.modOp_coolTicks (s : State) (k : Nat) (f : EngineOp → EngineOp) : (s.modOp k f).coolTicks = s.coolTicks := rfl
@[simp] theorem State.modOp_clocksStopped (s : State) (k : Nat) (f : EngineOp → EngineOp) : (s.modOp k f).clocksStopped = s.clocksStopped := rfl
@[simp] theorem State.modOp_ctxa0 (s : State) (k : Nat) (f : EngineOp → EngineOp) : (s.modOp k f).ctxa0 = s.ctxa0 := rfl
@[simp] theorem State.modOp_ctxa1 (s : State) (k : Nat) (f : EngineOp → EngineOp) : (s.modOp k f).ctxa1 = s.ctxa1 := rfl
@[simp] theorem State.modOp_ctxst (s : State) (k : Nat) (f : EngineOp → EngineOp) : (s.modOp k f).ctxst = s.ctxst := rfl
@[simp] theorem State.modOp_queues (s : State) (k : Nat) (f : EngineOp → EngineOp) : (s.modOp k f).queues = s.queues := rfl
@[simp] theorem State.modOp_dies (s : State) (k : Nat) (f : EngineOp → EngineOp) : (s.modOp k f).dies = s.dies := rfl
@[simp] theorem State.modOp_dram (s : State) (k : Nat) (f : EngineOp → EngineOp) : (s.modOp k f).dram = s.dram := rfl
@[simp] theorem State.modOp_hostMem (s : State) (k : Nat) (f : EngineOp → EngineOp) : (s.modOp k f).hostMem = s.hostMem := rfl
@[simp] theorem State.modOp_ctxs (s : State) (k : Nat) (f : EngineOp → EngineOp) : (s.modOp k f).ctxs = s.ctxs := rfl
@[simp] theorem State.modOp_launches (s : State) (k : Nat) (f : EngineOp → EngineOp) : (s.modOp k f).launches = s.launches := rfl
@[simp] theorem State.modOp_calls (s : State) (k : Nat) (f : EngineOp → EngineOp) : (s.modOp k f).calls = s.calls := rfl
@[simp] theorem State.modOp_blocks (s : State) (k : Nat) (f : EngineOp → EngineOp) : (s.modOp k f).blocks = s.blocks := rfl
@[simp] theorem State.modOp_warps (s : State) (k : Nat) (f : EngineOp → EngineOp) : (s.modOp k f).warps = s.warps := rfl
@[simp] theorem State.modOp_owned (s : State) (k : Nat) (f : EngineOp → EngineOp) : (s.modOp k f).owned = s.owned := rfl
@[simp] theorem State.modOp_words (s : State) (k : Nat) (f : EngineOp → EngineOp) : (s.modOp k f).words = s.words := rfl
@[simp] theorem State.modOp_outbound (s : State) (k : Nat) (f : EngineOp → EngineOp) : (s.modOp k f).outbound = s.outbound := rfl
@[simp] theorem State.modOp_realTime (s : State) (k : Nat) (f : EngineOp → EngineOp) : (s.modOp k f).realTime = s.realTime := rfl
@[simp] theorem State.modOp_agenda (s : State) (k : Nat) (f : EngineOp → EngineOp) : (s.modOp k f).agenda = s.agenda := rfl
@[simp] theorem State.modOp_cur (s : State) (k : Nat) (f : EngineOp → EngineOp) : (s.modOp k f).cur = s.cur := rfl
@[simp] theorem State.modOp_secondary (s : State) (k : Nat) (f : EngineOp → EngineOp) : (s.modOp k f).secondary = s.secondary := rfl
@[simp] theorem State.modOp_portsDone (s : State) (k : Nat) (f : EngineOp → EngineOp) : (s.modOp k f).portsDone = s.portsDone := rfl
@[simp] theorem State.modOp_resumed (s : State) (k : Nat) (f : EngineOp → EngineOp) : (s.modOp k f).resumed = s.resumed := rfl
@[simp] theorem State.modOp_nextId (s : State) (k : Nat) (f : EngineOp → EngineOp) : (s.modOp k f).nextId = s.nextId := rfl
@[simp] theorem State.modOp_fresh (s : State) (k : Nat) (f : EngineOp → EngineOp) : (s.modOp k f).fresh = s.fresh := rfl
@[simp] theorem State.modOp_arrivals (s : State) (k : Nat) (f : EngineOp → EngineOp) : (s.modOp k f).arrivals = s.arrivals := rfl
@[simp] theorem State.modOp_hostWaiting (s : State) (k : Nat) (f : EngineOp → EngineOp) : (s.modOp k f).hostWaiting = s.hostWaiting := rfl
@[simp] theorem State.modOp_sensorWaiting (s : State) (k : Nat) (f : EngineOp → EngineOp) : (s.modOp k f).sensorWaiting = s.sensorWaiting := rfl

@[simp] theorem State.modQueue_t9c (s : State) (q : Nat) (f : Queue → Queue) : (s.modQueue q f).t9c = s.t9c := rfl
@[simp] theorem State.modQueue_rev (s : State) (q : Nat) (f : Queue → Queue) : (s.modQueue q f).rev = s.rev := rfl
@[simp] theorem State.modQueue_keyHash (s : State) (q : Nat) (f : Queue → Queue) : (s.modQueue q f).keyHash = s.keyHash := rfl
@[simp] theorem State.modQueue_minVersion (s : State) (q : Nat) (f : Queue → Queue) : (s.modQueue q f).minVersion = s.minVersion := rfl
@[simp] theorem State.modQueue_firmware (s : State) (q : Nat) (f : Queue → Queue) : (s.modQueue q f).firmware = s.firmware := rfl
@[simp] theorem State.modQueue_bootFail (s : State) (q : Nat) (f : Queue → Queue) : (s.modQueue q f).bootFail = s.bootFail := rfl
@[simp] theorem State.modQueue_bootWarm (s : State) (q : Nat) (f : Queue → Queue) : (s.modQueue q f).bootWarm = s.bootWarm := rfl
@[simp] theorem State.modQueue_bootState (s : State) (q : Nat) (f : Queue → Queue) : (s.modQueue q f).bootState = s.bootState := rfl
@[simp] theorem State.modQueue_trainingValid (s : State) (q : Nat) (f : Queue → Queue) : (s.modQueue q f).trainingValid = s.trainingValid := rfl
@[simp] theorem State.modQueue_retentionValid (s : State) (q : Nat) (f : Queue → Queue) : (s.modQueue q f).retentionValid = s.retentionValid := rfl
@[simp] theorem State.modQueue_retained (s : State) (q : Nat) (f : Queue → Queue) : (s.modQueue q f).retained = s.retained := rfl
@[simp] theorem State.modQueue_keeping (s : State) (q : Nat) (f : Queue → Queue) : (s.modQueue q f).keeping = s.keeping := rfl
@[simp] theorem State.modQueue_mailbox (s : State) (q : Nat) (f : Queue → Queue) : (s.modQueue q f).mailbox = s.mailbox := rfl
@[simp] theorem State.modQueue_nonceDue (s : State) (q : Nat) (f : Queue → Queue) : (s.modQueue q f).nonceDue = s.nonceDue := rfl
@[simp] theorem State.modQueue_nonce (s : State) (q : Nat) (f : Queue → Queue) : (s.modQueue q f).nonce = s.nonce := rfl
@[simp] theorem State.modQueue_report (s : State) (q : Nat) (f : Queue → Queue) : (s.modQueue q f).report = s.report := rfl
@[simp] theorem State.modQueue_belt (s : State) (q : Nat) (f : Queue → Queue) : (s.modQueue q f).belt = s.belt := rfl
@[simp] theorem State.modQueue_point (s : State) (q : Nat) (f : Queue → Queue) : (s.modQueue q f).point = s.point := rfl
@[simp] theorem State.modQueue_temp (s : State) (q : Nat) (f : Queue → Queue) : (s.modQueue q f).temp = s.temp := rfl
@[simp] theorem State.modQueue_modeDue (s : State) (q : Nat) (f : Queue → Queue) : (s.modQueue q f).modeDue = s.modeDue := rfl
@[simp] theorem State.modQueue_hotTicks (s : State) (q : Nat) (f : Queue → Queue) : (s.modQueue q f).hotTicks = s.hotTicks := rfl
@[simp] theorem State.modQueue_coolTicks (s : State) (q : Nat) (f : Queue → Queue) : (s.modQueue q f).coolTicks = s.coolTicks := rfl
@[simp] theorem State.modQueue_clocksStopped (s : State) (q : Nat) (f : Queue → Queue) : (s.modQueue q f).clocksStopped = s.clocksStopped := rfl
@[simp] theorem State.modQueue_ctxa0 (s : State) (q : Nat) (f : Queue → Queue) : (s.modQueue q f).ctxa0 = s.ctxa0 := rfl
@[simp] theorem State.modQueue_ctxa1 (s : State) (q : Nat) (f : Queue → Queue) : (s.modQueue q f).ctxa1 = s.ctxa1 := rfl
@[simp] theorem State.modQueue_ctxst (s : State) (q : Nat) (f : Queue → Queue) : (s.modQueue q f).ctxst = s.ctxst := rfl
@[simp] theorem State.modQueue_dies (s : State) (q : Nat) (f : Queue → Queue) : (s.modQueue q f).dies = s.dies := rfl
@[simp] theorem State.modQueue_dram (s : State) (q : Nat) (f : Queue → Queue) : (s.modQueue q f).dram = s.dram := rfl
@[simp] theorem State.modQueue_hostMem (s : State) (q : Nat) (f : Queue → Queue) : (s.modQueue q f).hostMem = s.hostMem := rfl
@[simp] theorem State.modQueue_ctxs (s : State) (q : Nat) (f : Queue → Queue) : (s.modQueue q f).ctxs = s.ctxs := rfl
@[simp] theorem State.modQueue_launches (s : State) (q : Nat) (f : Queue → Queue) : (s.modQueue q f).launches = s.launches := rfl
@[simp] theorem State.modQueue_calls (s : State) (q : Nat) (f : Queue → Queue) : (s.modQueue q f).calls = s.calls := rfl
@[simp] theorem State.modQueue_blocks (s : State) (q : Nat) (f : Queue → Queue) : (s.modQueue q f).blocks = s.blocks := rfl
@[simp] theorem State.modQueue_warps (s : State) (q : Nat) (f : Queue → Queue) : (s.modQueue q f).warps = s.warps := rfl
@[simp] theorem State.modQueue_ops (s : State) (q : Nat) (f : Queue → Queue) : (s.modQueue q f).ops = s.ops := rfl
@[simp] theorem State.modQueue_owned (s : State) (q : Nat) (f : Queue → Queue) : (s.modQueue q f).owned = s.owned := rfl
@[simp] theorem State.modQueue_words (s : State) (q : Nat) (f : Queue → Queue) : (s.modQueue q f).words = s.words := rfl
@[simp] theorem State.modQueue_outbound (s : State) (q : Nat) (f : Queue → Queue) : (s.modQueue q f).outbound = s.outbound := rfl
@[simp] theorem State.modQueue_realTime (s : State) (q : Nat) (f : Queue → Queue) : (s.modQueue q f).realTime = s.realTime := rfl
@[simp] theorem State.modQueue_agenda (s : State) (q : Nat) (f : Queue → Queue) : (s.modQueue q f).agenda = s.agenda := rfl
@[simp] theorem State.modQueue_cur (s : State) (q : Nat) (f : Queue → Queue) : (s.modQueue q f).cur = s.cur := rfl
@[simp] theorem State.modQueue_secondary (s : State) (q : Nat) (f : Queue → Queue) : (s.modQueue q f).secondary = s.secondary := rfl
@[simp] theorem State.modQueue_portsDone (s : State) (q : Nat) (f : Queue → Queue) : (s.modQueue q f).portsDone = s.portsDone := rfl
@[simp] theorem State.modQueue_resumed (s : State) (q : Nat) (f : Queue → Queue) : (s.modQueue q f).resumed = s.resumed := rfl
@[simp] theorem State.modQueue_nextId (s : State) (q : Nat) (f : Queue → Queue) : (s.modQueue q f).nextId = s.nextId := rfl
@[simp] theorem State.modQueue_fresh (s : State) (q : Nat) (f : Queue → Queue) : (s.modQueue q f).fresh = s.fresh := rfl
@[simp] theorem State.modQueue_arrivals (s : State) (q : Nat) (f : Queue → Queue) : (s.modQueue q f).arrivals = s.arrivals := rfl
@[simp] theorem State.modQueue_hostWaiting (s : State) (q : Nat) (f : Queue → Queue) : (s.modQueue q f).hostWaiting = s.hostWaiting := rfl
@[simp] theorem State.modQueue_sensorWaiting (s : State) (q : Nat) (f : Queue → Queue) : (s.modQueue q f).sensorWaiting = s.sensorWaiting := rfl

end Sys2Proof.Machine
end

