-- ==== Sys2Proof/Laws/Lanes.lean ====
section
/-! SUPPORT. Laws of finding and changing warps, lanes, blocks and registers. -/

namespace Sys2Proof.Machine

theorem Warp.lane_eq (w : Warp) (l : Nat) : w.lane l = (w.lanes[l]?).getD { st := .ended } := by
  unfold Warp.lane
  rw [List.getD_eq_getElem?_getD]

/-- Changing one lane changes no other, and no lane comes to exist. -/
theorem Warp.lane_modLane (w : Warp) (l k : Nat) (f : Lane → Lane) :
    (w.modLane l f).lane k = if k = l ∧ k < w.lanes.length then f (w.lane k) else w.lane k := by
  simp only [Warp.lane_eq, Warp.modLane, List.getElem?_modify]
  by_cases h : l = k
  · subst h
    by_cases g : l < w.lanes.length
    · simp [g]
    · simp [g]
  · have : ¬ (k = l ∧ k < w.lanes.length) := fun x => h x.1.symm
    simp [h, this]

@[simp] theorem Warp.length_modLane (w : Warp) (l : Nat) (f : Lane → Lane) :
    (w.modLane l f).lanes.length = w.lanes.length := by simp [Warp.modLane]
@[simp] theorem Warp.still_modLane (w : Warp) (l : Nat) (f : Lane → Lane) : (w.modLane l f).still = w.still := rfl
@[simp] theorem Warp.wid_modLane (w : Warp) (l : Nat) (f : Lane → Lane) : (w.modLane l f).wid = w.wid := rfl

/-- Changing the lanes of a list, each in its own way. -/
theorem Warp.lane_foldl (ls : List Nat) (g : Nat → Lane → Lane) (w : Warp) (k : Nat) (h : ls.Nodup) :
    (ls.foldl (fun w l => w.modLane l (g l)) w).lane k =
      if k ∈ ls ∧ k < w.lanes.length then g k (w.lane k) else w.lane k := by
  induction ls generalizing w with
  | nil => simp
  | cons l ls ih =>
    rw [List.nodup_cons] at h
    rw [List.foldl_cons, ih _ h.2, Warp.lane_modLane, Warp.length_modLane]
    by_cases e : k = l
    · subst e
      simp [h.1]
    · simp [e]

@[simp] theorem Warp.length_foldl (ls : List Nat) (g : Nat → Lane → Lane) (w : Warp) :
    (ls.foldl (fun w l => w.modLane l (g l)) w).lanes.length = w.lanes.length := by
  induction ls generalizing w with
  | nil => rfl
  | cons l ls ih => rw [List.foldl_cons, ih, Warp.length_modLane]

@[simp] theorem Warp.still_foldl (ls : List Nat) (g : Nat → Lane → Lane) (w : Warp) :
    (ls.foldl (fun w l => w.modLane l (g l)) w).still = w.still := by
  induction ls generalizing w with
  | nil => rfl
  | cons l ls ih => rw [List.foldl_cons, ih, Warp.still_modLane]

theorem Warp.wid_of_still {a b : Warp} (h : a.still = b.still) : a.wid = b.wid := by
  have := congrArg Warp.wid h
  simpa [Warp.still] using this

@[simp] theorem Warp.wid_foldl (ls : List Nat) (g : Nat → Lane → Lane) (w : Warp) :
    (ls.foldl (fun w l => w.modLane l (g l)) w).wid = w.wid := Warp.wid_of_still (Warp.still_foldl ls g w)

theorem Warp.modLanes_def (w : Warp) (ls : List Nat) (f : Lane → Lane) :
    w.modLanes ls f = ls.foldl (fun w l => w.modLane l ((fun _ => f) l)) w := rfl

/-- Finding by a number after a change of the elements of one number. -/
theorem find_map_if {α : Type} (key : α → Nat) (xs : List α) (v n : Nat) (f : α → α) (hf : ∀ x, key (f x) = key x) :
    (xs.map (fun x => if key x == n then f x else x)).find? (fun x => key x == v) =
      (xs.find? (fun x => key x == v)).map (fun x => if v = n then f x else x) := by
  rw [List.find?_map]
  have e : ((fun x => key x == v) ∘ fun x => if key x == n then f x else x) = fun x => key x == v := by
    funext x
    simp only [Function.comp]
    split <;> simp [hf]
  rw [e]
  cases h : xs.find? (fun x => key x == v) with
  | none => rfl
  | some x =>
    have hk : key x = v := by simpa using List.find?_some h
    simp only [Option.map_some, hk, beq_iff_eq]

/-- A warp found after a change of one warp. -/
theorem State.warp?_modWarp (s : State) (v wid : Nat) (f : Warp → Warp) (hf : ∀ w, (f w).wid = w.wid) :
    (s.modWarp wid f).warp? v = (s.warp? v).map (fun w => if v = wid then f w else w) :=
  find_map_if Warp.wid s.warps v wid f hf

theorem State.find_wid {s : State} {v : Nat} {w : Warp} (h : s.warp? v = some w) : w.wid = v := by
  have := List.find?_some h
  simpa using this

theorem State.map_still_modWarp (s : State) (wid : Nat) (f : Warp → Warp) (hf : ∀ w, (f w).still = w.still) :
    (s.modWarp wid f).warps.map Warp.still = s.warps.map Warp.still := by
  unfold State.modWarp
  simp only [List.map_map]
  apply List.map_congr_left
  intro w _
  simp only [Function.comp]
  split
  · exact hf w
  · rfl

theorem State.still_modWarp (s : State) (wid : Nat) (f : Warp → Warp) : (s.modWarp wid f).still = s.still := rfl

/-- A block found after a change of one block. -/
theorem State.block?_modBlock (s : State) (v b : Nat) (f : Block → Block) (hf : ∀ x, (f x).bid = x.bid) :
    (s.modBlock b f).block? v = (s.block? v).map (fun x => if v = b then f x else x) :=
  find_map_if Block.bid s.blocks v b f hf

/-- A context found after a change of one context. -/
theorem State.ctx?_modCtx (s : State) (v c : Nat) (f : Context → Context) (hf : ∀ x, (f x).id = x.id) :
    (s.modCtx c f).ctx? v = (s.ctx? v).map (fun x => if v = c then f x else x) :=
  find_map_if Context.id s.ctxs v c f hf

/-- A lane after a change of a warp's lanes. -/
theorem State.laneAt_modWarp (s : State) (v wid l : Nat) (f : Warp → Warp) (hf : ∀ w, (f w).wid = w.wid) :
    (s.modWarp wid f).laneAt v l =
      ((s.warp? v).map (fun w => if v = wid then (f w).lane l else w.lane l)).getD { st := .ended } := by
  unfold State.laneAt
  rw [State.warp?_modWarp _ _ _ _ hf]
  cases s.warp? v with
  | none => rfl
  | some w =>
    simp only [Option.map_some, Option.getD_some]
    split <;> rfl

/-- Writing registers changes those registers and nothing else of a lane. -/
theorem Lane.reg_setReg (x : Lane) (n k : Nat) (v : Word) :
    (x.setReg n v).reg k = if k = n then v else x.reg k := by simp [Lane.reg, Lane.setReg]

theorem Lane.reg_writeFrom (x : Lane) (b k : Nat) (vs : List Word) :
    (x.writeFrom b vs).reg k = if b ≤ k ∧ k < b + vs.length then vs.getD (k - b) 0 else x.reg k := by
  induction vs generalizing x b with
  | nil => simp [Lane.writeFrom]
  | cons v vs ih =>
    simp only [Lane.writeFrom, ih, Lane.reg_setReg, List.length_cons]
    by_cases h : b + 1 ≤ k ∧ k < b + 1 + vs.length
    · have h2 : b ≤ k ∧ k < b + (vs.length + 1) := by omega
      obtain ⟨j, hj⟩ : ∃ j, k - b = j + 1 := ⟨k - b - 1, by omega⟩
      have hj2 : k - (b + 1) = j := by omega
      rw [if_pos h, if_pos h2, hj, hj2]
      simp
    · rw [if_neg h]
      by_cases g : k = b
      · subst g
        simp
      · have h2 : ¬ (b ≤ k ∧ k < b + (vs.length + 1)) := by omega
        rw [if_neg g, if_neg h2]

/-- A lane but for its registers. -/
theorem Lane.writeFrom_rest (x : Lane) (b : Nat) (vs : List Word) :
    ∃ r, x.writeFrom b vs = { x with regs := r } := by
  induction vs generalizing x b with
  | nil => exact ⟨x.regs, rfl⟩
  | cons v vs ih =>
    obtain ⟨r, h⟩ := ih (x.setReg b v) (b + 1)
    exact ⟨r, by rw [Lane.writeFrom, h]; rfl⟩

theorem Lane.writeDst_rest (x : Lane) (d : Operand) (vs : List Word) :
    ∃ r, x.writeDst d vs = { x with regs := r } := by
  unfold Lane.writeDst
  split
  · exact Lane.writeFrom_rest x _ vs
  · exact ⟨x.regs, rfl⟩

/-- Only destination registers change (R20). -/
theorem Lane.reg_writeDst_other (x : Lane) (d : Operand) (vs : List Word) (k n : Nat) (hn : vs.length ≤ n)
    (h : inDst d n k = false) : (x.writeDst d vs).reg k = x.reg k := by
  unfold Lane.writeDst
  split
  · rw [Lane.reg_writeFrom]
    simp only [inDst, Bool.and_eq_false_iff, decide_eq_false_iff_not] at h
    rw [if_neg (by omega)]
  · rfl

/-- Destination registers take the words in order. -/
theorem Lane.reg_writeDst (x : Lane) (b : Nat) (vs : List Word) (k : Nat) (h : k < vs.length) :
    (x.writeDst (.reg b) vs).reg (b + k) = vs.getD k 0 := by
  unfold Lane.writeDst
  rw [Lane.reg_writeFrom, if_pos (by omega)]
  congr 1
  omega

end Sys2Proof.Machine
end

