-- ==== Sys2Proof/Laws/Issue.lean ====
section
/-! SUPPORT. What an issue does, said once: the advance of the issuing lanes, the frame of changes to lanes alone, and the
results of an instruction that writes words and flags in each lane. -/

namespace Sys2Proof.Machine

/-- An instruction without an issue trap or a held register has its effect on the advanced state. -/
theorem issue_next {s : State} {i : Instr} {c : Cur} {w : Warp} (h : Issuing s i c w) (body : Env → State → State) :
    issue i s body = .next (body (s.env i c w) (s.advance c)) := by
  have hh : s.namesHeld w (s.env i c w).p i = [] := h.notHeld
  simp [issue, h.cur, h.warp, h.noTrap, hh]

@[simp] theorem Warp.readBy_lanes (w : Warp) (c : Cur) : (w.readBy c).lanes = w.lanes := by
  unfold Warp.readBy; split <;> rfl
@[simp] theorem Warp.readBy_wid (w : Warp) (c : Cur) : (w.readBy c).wid = w.wid := by
  unfold Warp.readBy; split <;> rfl

/-- The warp of an issuing set stands in the machine, with the lanes that the set reads. -/
theorem Issuing.found {s : State} {i : Instr} {c : Cur} {w : Warp} (h : Issuing s i c w) :
    ∃ v, s.warp? c.wid = Option.some v ∧ v.readBy c = w ∧ v.lanes = w.lanes := by
  obtain ⟨v, hv, rfl⟩ := Option.map_eq_some_iff.mp h.warp
  exact ⟨v, hv, rfl, by simp⟩

/-- An issue trap parks the whole issuing set (R22). -/
theorem issue_trap {s : State} {i : Instr} {c : Cur} {w : Warp} (hc : s.cur = some c)
    (hw : (s.warp? c.wid).map (·.readBy c) = some w)
    (ht : s.issueTrap w i ≠ 0) (body : Env → State → State) :
    issue i s body = .next (s.raiseAll (s.env i c w) c.lanes (s.issueTrap w i) 0 0) := by
  simp [issue, hc, hw, ht]

/-- A held register suspends the whole issuing set before the instruction (R310). -/
theorem issue_held {s : State} {i : Instr} {c : Cur} {w : Warp} (hc : s.cur = some c)
    (hw : (s.warp? c.wid).map (·.readBy c) = some w)
    (ht : s.issueTrap w i = 0) (hh : s.namesHeld w (activeLanes s i c w) i ≠ []) (body : Env → State → State) :
    issue i s body = .next (s.suspend (s.env i c w)
      { lanes := c.lanes, before := true, wait := .hold (s.namesHeld w (activeLanes s i c w) i) }) := by
  have hp : s.namesHeld w (s.env i c w).p i ≠ [] := hh
  simp only [issue, hc, hw, ht, bne_self_eq_false, Bool.false_eq_true, if_false, bne_iff_ne, ne_eq, hp, not_false_eq_true,
    if_true]
  rfl

@[simp] theorem State.env_p (s : State) (i : Instr) (c : Cur) (w : Warp) : (s.env i c w).p = activeLanes s i c w := rfl
@[simp] theorem State.env_c (s : State) (i : Instr) (c : Cur) (w : Warp) : (s.env i c w).c = c := rfl
@[simp] theorem State.env_w (s : State) (i : Instr) (c : Cur) (w : Warp) : (s.env i c w).w = w := rfl
@[simp] theorem State.env_o (s : State) (i : Instr) (c : Cur) (w : Warp) : (s.env i c w).o = i.operands := rfl
@[simp] theorem State.env_i (s : State) (i : Instr) (c : Cur) (w : Warp) : (s.env i c w).i = i := rfl

/-- A runnable lane is one the warp has. -/
theorem Issuing.lt {s : State} {i : Instr} {c : Cur} {w : Warp} (h : Issuing s i c w) (l : Nat) (hl : l ∈ c.lanes) :
    l < w.lanes.length := by
  have := h.runnable l hl
  rw [Warp.lane_eq] at this
  by_contra g
  rw [List.getElem?_eq_none (by omega)] at this
  simp at this

theorem activeLanes_sorted {s : State} {i : Instr} {c : Cur} {w : Warp} (h : Issuing s i c w) :
    (activeLanes s i c w).Pairwise (· < ·) := h.sorted.filter _

theorem activeLanes_nodup {s : State} {i : Instr} {c : Cur} {w : Warp} (h : Issuing s i c w) :
    (activeLanes s i c w).Nodup := (activeLanes_sorted h).imp (fun x => Nat.ne_of_lt x)

theorem activeLanes_lt {s : State} {i : Instr} {c : Cur} {w : Warp} (h : Issuing s i c w) :
    ∀ l ∈ activeLanes s i c w, l < w.lanes.length := fun l hl => h.lt l (List.mem_of_mem_filter hl)

/-- Nothing but pc, half and repc of the issuing lanes is touched by the advance. -/
theorem State.advance_eq (s : State) (c : Cur) :
    ∃ f : Lane → Lane, (∀ x, ∃ pc half repc, f x = { x with pc := pc, half := half, repc := repc }) ∧
      s.advance c = s.modWarp c.wid (fun w => w.modLanes c.lanes f) := by
  refine ⟨fun x => if c.count ≤ c.idx + 1 then { x with pc := c.nextPc, half := c.nextHalf, repc := 0 }
    else { x with repc := c.count - c.idx - 1 }, fun x => ?_, rfl⟩
  by_cases h : c.count ≤ c.idx + 1
  · exact ⟨c.nextPc, c.nextHalf, 0, by simp [h]⟩
  · exact ⟨x.pc, x.half, c.count - c.idx - 1, by simp [h]⟩

theorem State.still_advance (s : State) (c : Cur) : (s.advance c).still = s.still := by
  obtain ⟨f, _, h⟩ := s.advance_eq c
  rw [h]
  rfl

/-- Equality of what is still gives equality of every memory. -/
theorem SameMemory.of_still {s t : State} (h : t.still = s.still) : SameMemory s t := by
  have e1 : t.dram = s.dram := by simpa [State.still] using congrArg State.dram h
  have e2 : t.hostMem = s.hostMem := by simpa [State.still] using congrArg State.hostMem h
  have e3 : t.dies = s.dies := by simpa [State.still] using congrArg State.dies h
  have e4 : t.blocks = s.blocks := by simpa [State.still] using congrArg State.blocks h
  exact ⟨fun a => by rw [e1], fun a => by rw [e2], fun d a => by simp [State.spadAt, State.die, e3],
    fun b a => by simp [State.sharedAt, State.block?, e4], fun b a => by simp [State.weightAt, State.block?, e4]⟩

/-- The frame of a change to lanes of one warp that keeps every state and touches registers, flags, generators and
positions only. -/
theorem registersOnly_of_lanes {s t : State} {wid : Nat} {ls : List Nat} {K : Nat → Bool}
    (hs : t.still = s.still) (hw : t.warps.map Warp.still = s.warps.map Warp.still)
    (hl : ∀ v l, (t.laneAt v l).still = (s.laneAt v l).still)
    (ho : ∀ v l, ¬ (v = wid ∧ l ∈ ls) → (t.laneAt v l).regs = (s.laneAt v l).regs ∧
      (t.laneAt v l).fpx = (s.laneAt v l).fpx ∧ (t.laneAt v l).gen = (s.laneAt v l).gen)
    (hr : ∀ l ∈ ls, ∀ k, K k = false → t.regAt wid l k = s.regAt wid l k) :
    RegistersOnly s t wid ls K where
  regs := by
    intro v l k h
    by_cases g : v = wid ∧ l ∈ ls
    · obtain ⟨rfl, g⟩ := g
      refine hr l g k ?_
      cases hd : K k
      · rfl
      · exact absurd ⟨rfl, g, hd⟩ h
    · simp only [State.regAt, Lane.reg, (ho v l g).1]
  flags := fun v l h => (ho v l h).2.1
  gens := fun v l h => (ho v l h).2.2
  lanes := hl
  warps := hw
  memory := SameMemory.of_still hs
  rest := hs

theorem State.laneAt_advance (s : State) (c : Cur) (v l : Nat) :
    ∃ pc half repc, (s.advance c).laneAt v l = { s.laneAt v l with pc := pc, half := half, repc := repc } := by
  obtain ⟨f, hf, h⟩ := s.advance_eq c
  have e : (s.advance c).laneAt v l = (s.modWarp c.wid (fun w => w.modLanes c.lanes f)).laneAt v l := by
    rw [h]
  rw [e, State.laneAt_modWarp _ _ _ _ _ (fun w => by rw [Warp.modLanes_def]; simp)]
  unfold State.laneAt
  cases s.warp? v with
  | none => exact ⟨_, _, _, rfl⟩
  | some w =>
    simp only [Option.map_some, Option.getD_some]
    by_cases hv : v = c.wid
    · simp only [hv, if_true]
      have : ∀ (ls : List Nat) (w : Warp), ∃ pc half repc,
          (w.modLanes ls f).lane l = { w.lane l with pc := pc, half := half, repc := repc } := by
        intro ls
        induction ls with
        | nil => intro w; exact ⟨_, _, _, rfl⟩
        | cons a ls ih =>
          intro w
          obtain ⟨p, q, r, hh⟩ := ih (w.modLane a f)
          have : (w.modLanes (a :: ls) f) = (w.modLane a f).modLanes ls f := rfl
          rw [this, hh, Warp.lane_modLane]
          split
          · obtain ⟨p2, q2, r2, h2⟩ := hf (w.lane l)
            rw [h2]
            exact ⟨_, _, _, rfl⟩
          · exact ⟨_, _, _, rfl⟩
      exact this c.lanes w
    · simp only [hv, if_false]
      exact ⟨_, _, _, rfl⟩

theorem State.warps_advance (s : State) (c : Cur) : (s.advance c).warps.map Warp.still = s.warps.map Warp.still := by
  obtain ⟨f, _, h⟩ := s.advance_eq c
  rw [h]
  exact State.map_still_modWarp s c.wid _ (fun w => by rw [Warp.modLanes_def]; exact Warp.still_foldl _ _ _)

/-- The warp of an issuing set after the advance: found, with as many lanes. -/
theorem State.warp?_advance {s : State} {c : Cur} {w : Warp} (hw : s.warp? c.wid = some w) :
    ∃ w', (s.advance c).warp? c.wid = some w' ∧ w'.lanes.length = w.lanes.length ∧ w'.wid = c.wid := by
  obtain ⟨f, _, h⟩ := s.advance_eq c
  have e : (s.advance c).warp? c.wid = (s.modWarp c.wid (fun w => w.modLanes c.lanes f)).warp? c.wid := by rw [h]
  refine ⟨w.modLanes c.lanes f, ?_, ?_, ?_⟩
  · rw [e, State.warp?_modWarp _ _ _ _ (fun w => by rw [Warp.modLanes_def]; simp), hw]
    simp
  · rw [Warp.modLanes_def]; simp
  · rw [Warp.modLanes_def]
    simp [State.find_wid hw]

theorem Issuing.found_advance {s : State} {i : Instr} {c : Cur} {w : Warp} (h : Issuing s i c w) :
    ∃ w', (s.advance c).warp? c.wid = Option.some w' ∧ w'.lanes.length = w.lanes.length := by
  obtain ⟨v, hv, -, hl⟩ := h.found
  obtain ⟨w', hw', hlen, -⟩ := State.warp?_advance hv
  exact ⟨w', hw', by rw [hlen, hl]⟩

/-- Changes of lanes of one warp, each in its own way. -/
theorem State.laneAt_foldl (s : State) (wid : Nat) (ls : List Nat) (g : Nat → Lane → Lane) (w : Warp)
    (hw : s.warp? wid = some w) (nd : ls.Nodup) (lt : ∀ l ∈ ls, l < w.lanes.length) (v l : Nat) :
    (s.modWarp wid (fun w => ls.foldl (fun w l => w.modLane l (g l)) w)).laneAt v l =
      if v = wid ∧ l ∈ ls then g l (s.laneAt v l) else s.laneAt v l := by
  rw [State.laneAt_modWarp _ _ _ _ _ (fun w => Warp.wid_foldl _ _ _)]
  unfold State.laneAt
  by_cases hv : v = wid
  · subst hv
    simp only [hw, Option.map_some, Option.getD_some, true_and, if_true]
    rw [Warp.lane_foldl _ _ _ _ nd]
    by_cases hl : l ∈ ls
    · simp [hl, lt l hl]
    · simp [hl]
  · simp [hv]

/-- The frame of changes of lanes that keep their state and, outside the destination, their registers. -/
theorem State.registersOnly_foldl (s : State) (wid : Nat) (ls : List Nat) (g : Nat → Lane → Lane) (w : Warp)
    (K : Nat → Bool) (hw : s.warp? wid = some w) (nd : ls.Nodup) (lt : ∀ l ∈ ls, l < w.lanes.length)
    (hg : ∀ l x, (g l x).still = x.still)
    (hr : ∀ l x k, K k = false → (g l x).reg k = x.reg k) :
    RegistersOnly s (s.modWarp wid (fun w => ls.foldl (fun w l => w.modLane l (g l)) w)) wid ls K := by
  refine registersOnly_of_lanes rfl (State.map_still_modWarp s wid _ (fun w => Warp.still_foldl _ _ _)) ?_ ?_ ?_
  · intro v l
    rw [State.laneAt_foldl s wid ls g w hw nd lt]
    split
    · exact hg _ _
    · rfl
  · intro v l hv
    rw [State.laneAt_foldl s wid ls g w hw nd lt, if_neg hv]
    exact ⟨rfl, rfl, rfl⟩
  · intro l hl k hk
    rw [State.regAt, State.laneAt_foldl s wid ls g w hw nd lt, if_pos ⟨rfl, hl⟩]
    exact hr _ _ _ hk

/-- The advance is within every frame. -/
theorem State.registersOnly_advance (s : State) (c : Cur) (ls : List Nat) (K : Nat → Bool) :
    RegistersOnly s (s.advance c) c.wid ls K := by
  refine registersOnly_of_lanes (s.still_advance c) (s.warps_advance c) ?_ ?_ ?_
  · intro v l
    obtain ⟨p, q, r, h⟩ := s.laneAt_advance c v l
    rw [h]; rfl
  · intro v l _
    obtain ⟨p, q, r, h⟩ := s.laneAt_advance c v l
    rw [h]; exact ⟨rfl, rfl, rfl⟩
  · intro l _ k _
    obtain ⟨p, q, r, h⟩ := s.laneAt_advance c c.wid l
    rw [State.regAt, h]; rfl

/-- The advance moves the issuing lanes and no other (R61, R70). -/
theorem State.moved_advance {s : State} {i : Instr} {c : Cur} {w : Warp} (h : Issuing s i c w) : Moved s (s.advance c) c := by
  obtain ⟨v, hv, -, hl⟩ := h.found
  have L := State.laneAt_foldl s c.wid c.lanes
    (fun _ x => if c.count ≤ c.idx + 1 then { x with pc := c.nextPc, half := c.nextHalf, repc := 0 }
      else { x with repc := c.count - c.idx - 1 }) v hv (h.sorted.imp (fun x => Nat.ne_of_lt x)) (fun l g => hl ▸ h.lt l g)
  have e : ∀ v l, (s.advance c).laneAt v l = if v = c.wid ∧ l ∈ c.lanes then
      (if c.count ≤ c.idx + 1 then { s.laneAt v l with pc := c.nextPc, half := c.nextHalf, repc := 0 }
        else { s.laneAt v l with repc := c.count - c.idx - 1 }) else s.laneAt v l := fun v l => L v l
  refine ⟨fun g l hl => ?_, fun g l hl => ?_, fun v l hv => ?_⟩
  · rw [e, if_pos ⟨rfl, hl⟩, if_pos g]
    exact ⟨rfl, rfl, rfl⟩
  · rw [e, if_pos ⟨rfl, hl⟩, if_neg (by omega)]
    exact ⟨rfl, rfl, rfl⟩
  · rw [e, if_neg hv]
    exact ⟨rfl, rfl, rfl⟩

/-- Where positions keep, lanes have moved as before. -/
theorem Moved.congr {s t u : State} {c : Cur} (h : Moved s t c)
    (g : ∀ v l, (u.laneAt v l).pc = (t.laneAt v l).pc ∧ (u.laneAt v l).half = (t.laneAt v l).half ∧
      (u.laneAt v l).repc = (t.laneAt v l).repc) : Moved s u c where
  past a l hl := by rw [(g c.wid l).1, (g c.wid l).2.1, (g c.wid l).2.2]; exact h.past a l hl
  again a l hl := by rw [(g c.wid l).1, (g c.wid l).2.1, (g c.wid l).2.2]; exact h.again a l hl
  others v l hv := by rw [(g v l).1, (g v l).2.1, (g v l).2.2]; exact h.others v l hv

theorem SameMemory.trans {s t u : State} (h : SameMemory s t) (g : SameMemory t u) : SameMemory s u where
  dram a := (g.dram a).trans (h.dram a)
  host a := (g.host a).trans (h.host a)
  spad d a := (g.spad d a).trans (h.spad d a)
  shared b a := (g.shared b a).trans (h.shared b a)
  weight b a := (g.weight b a).trans (h.weight b a)

theorem RegistersOnly.trans {s t u : State} {wid : Nat} {ls : List Nat} {K : Nat → Bool}
    (h : RegistersOnly s t wid ls K) (g : RegistersOnly t u wid ls K) : RegistersOnly s u wid ls K where
  regs v l k x := (g.regs v l k x).trans (h.regs v l k x)
  flags v l x := (g.flags v l x).trans (h.flags v l x)
  gens v l x := (g.gens v l x).trans (h.gens v l x)
  lanes v l := (g.lanes v l).trans (h.lanes v l)
  warps := g.warps.trans h.warps
  memory := h.memory.trans g.memory
  rest := g.rest.trans h.rest

/-- A lane that takes words at a destination and flags. -/
def Lane.take (x : Lane) (d : Operand) (r : List Word × BitVec 6) : Lane :=
  { x.writeDst d r.1 with fpx := x.fpx ||| r.2 }

theorem Lane.take_eq (x : Lane) (d : Operand) (r : List Word × BitVec 6) :
    ∃ m, x.take d r = { x with regs := m, fpx := x.fpx ||| r.2 } := by
  obtain ⟨m, h⟩ := x.writeDst_rest d r.1
  exact ⟨m, by rw [Lane.take, h]⟩

/-- What an instruction that writes words and flags in each active lane does, all of it (R20, R57). -/
theorem perLane_spec {s : State} {i : Instr} {c : Cur} {w : Warp} (h : Issuing s i c w)
    (f : Nat → List Word × BitVec 6) (n : Nat) (hn : ∀ l, (f l).1.length ≤ n) :
    let t := (s.advance c).perLane (s.env i c w) f
    RegistersOnly s t c.wid (activeLanes s i c w) (inDst i.operands.d n) ∧
    ∀ l ∈ activeLanes s i c w,
      t.fpxAt c.wid l = s.fpxAt c.wid l ||| (f l).2 ∧
      (t.laneAt c.wid l).gen = (s.laneAt c.wid l).gen ∧
      ∀ b, i.operands.d = .reg b → ∀ k < (f l).1.length, t.regAt c.wid l (b + k) = (f l).1.getD k 0 := by
  obtain ⟨w', hw', hlen⟩ := h.found_advance
  have lt : ∀ l ∈ activeLanes s i c w, l < w'.lanes.length := fun l hl => by
    rw [hlen]; exact activeLanes_lt h l hl
  have e : (s.advance c).perLane (s.env i c w) f =
      (s.advance c).modWarp c.wid (fun w_1 => (activeLanes s i c w).foldl (fun w l =>
        w.modLane l ((fun l x => x.take i.operands.d (f l)) l)) w_1) := rfl
  intro t
  have ht : t = _ := e
  refine ⟨?_, ?_⟩
  · refine (s.registersOnly_advance c _ _).trans ?_
    rw [ht]
    refine State.registersOnly_foldl _ _ _ _ w' _ hw' (activeLanes_nodup h) lt ?_ ?_
    · intro l x
      obtain ⟨m, hm⟩ := x.take_eq i.operands.d (f l)
      rw [hm]; rfl
    · intro l x k hk
      exact Lane.reg_writeDst_other x _ _ k n (hn l) hk
  · intro l hl
    have hL : t.laneAt c.wid l = ((s.advance c).laneAt c.wid l).take i.operands.d (f l) := by
      rw [ht, State.laneAt_foldl _ _ _ _ w' hw' (activeLanes_nodup h) lt, if_pos ⟨rfl, hl⟩]
    obtain ⟨p, q, r, ha⟩ := s.laneAt_advance c c.wid l
    refine ⟨?_, ?_, ?_⟩
    · simp only [State.fpxAt, hL, Lane.take, ha]
    · obtain ⟨m, hm⟩ := ((s.advance c).laneAt c.wid l).take_eq i.operands.d (f l)
      rw [hL, hm, ha]
    · intro b hb k hk
      have : t.regAt c.wid l (b + k) = (((s.advance c).laneAt c.wid l).writeDst i.operands.d (f l).1).reg (b + k) := by
        simp only [State.regAt, hL]; rfl
      rw [this, hb]
      exact Lane.reg_writeDst _ b _ k hk

/-- An instruction that writes words and flags in each active lane leaves its lanes past itself. -/
theorem perLane_moved {s : State} {i : Instr} {c : Cur} {w : Warp} (h : Issuing s i c w)
    (f : Nat → List Word × BitVec 6) : Moved s ((s.advance c).perLane (s.env i c w) f) c := by
  obtain ⟨w', hw', hlen⟩ := h.found_advance
  have lt : ∀ l ∈ activeLanes s i c w, l < w'.lanes.length := fun l hl => by
    rw [hlen]; exact activeLanes_lt h l hl
  refine (State.moved_advance h).congr (fun v l => ?_)
  have L := State.laneAt_foldl (s.advance c) c.wid (activeLanes s i c w) (fun l x => x.take i.operands.d (f l)) w' hw'
    (activeLanes_nodup h) lt v l
  have e : ((s.advance c).perLane (s.env i c w) f).laneAt v l = if v = c.wid ∧ l ∈ activeLanes s i c w then
      ((s.advance c).laneAt v l).take i.operands.d (f l) else (s.advance c).laneAt v l := L
  rw [e]
  split
  · obtain ⟨m, hm⟩ := ((s.advance c).laneAt v l).take_eq i.operands.d (f l)
    rw [hm]
    exact ⟨rfl, rfl, rfl⟩
  · exact ⟨rfl, rfl, rfl⟩

/-- One word in each active lane, and no flag (R20). -/
theorem perWord_spec {s : State} {i : Instr} {c : Cur} {w : Warp} (h : Issuing s i c w) (f : Nat → Word) :
    let t := (s.advance c).perWord (s.env i c w) f
    RegistersOnly s t c.wid (activeLanes s i c w) (inDst i.operands.d 1) ∧ SameFlags s t ∧
    ∀ l ∈ activeLanes s i c w, ∀ b, i.operands.d = .reg b → t.regAt c.wid l b = f l := by
  intro t
  have := perLane_spec h (fun l => ([f l], 0)) 1 (fun l => by simp)
  refine ⟨this.1, ?_, ?_⟩
  · intro v l
    by_cases g : v = c.wid ∧ l ∈ activeLanes s i c w
    · obtain ⟨rfl, g⟩ := g
      have h2 := this.2 l g
      exact ⟨h2.1.trans (by simp), h2.2.1⟩
    · exact ⟨this.1.flags v l g, this.1.gens v l g⟩
  · intro l hl b hb
    exact (this.2 l hl).2.2 b hb 0 (by simp)

end Sys2Proof.Machine
end

