-- ==== Sys2Proof/Laws/Memory.lean ====
section
/-! SUPPORT. Every shared operation keeps the canonical form of every memory: one lemma each, cited instead of unfolding
it. -/

namespace Sys2Proof.Machine

theorem State.memoryOk_iff (s : State) :
    s.memoryOk = true ↔ Memory.wf s.dram = true ∧ Memory.wf s.hostMem = true ∧ (∀ d ∈ s.dies, Memory.wf d.spad = true) ∧
      ∀ b ∈ s.blocks, Memory.wf b.shared = true ∧ Memory.wf b.wb = true := by
  simp [State.memoryOk, List.all_eq_true, and_assoc]

/-- The memories of a state are those of another. -/
theorem State.memoryOk_of_eq {s t : State} (h1 : t.dram = s.dram) (h2 : t.hostMem = s.hostMem) (h3 : t.dies = s.dies)
    (h4 : t.blocks = s.blocks) (h : s.memoryOk = true) : t.memoryOk = true := by
  rw [State.memoryOk_iff] at *
  rw [h1, h2, h3, h4]
  exact h

@[simp] theorem State.memoryOk_modWarp (s : State) (k : Nat) (f : Warp → Warp) : (s.modWarp k f).memoryOk = s.memoryOk := rfl
@[simp] theorem State.memoryOk_modLane (s : State) (k l : Nat) (f : Lane → Lane) : (s.modLane k l f).memoryOk = s.memoryOk := rfl
@[simp] theorem State.memoryOk_modLanes (s : State) (k : Nat) (ls : List Nat) (f : Lane → Lane) :
    (s.modLanes k ls f).memoryOk = s.memoryOk := rfl
@[simp] theorem State.memoryOk_modRecord (s : State) (k n : Nat) (f : Record → Record) :
    (s.modRecord k n f).memoryOk = s.memoryOk := rfl
@[simp] theorem State.memoryOk_modCtx (s : State) (k : Nat) (f : Context → Context) : (s.modCtx k f).memoryOk = s.memoryOk := rfl
@[simp] theorem State.memoryOk_modLaunch (s : State) (k : Nat) (f : Launch → Launch) :
    (s.modLaunch k f).memoryOk = s.memoryOk := rfl
@[simp] theorem State.memoryOk_modOp (s : State) (k : Nat) (f : EngineOp → EngineOp) : (s.modOp k f).memoryOk = s.memoryOk := rfl
@[simp] theorem State.memoryOk_modQueue (s : State) (k : Nat) (f : Queue → Queue) : (s.modQueue k f).memoryOk = s.memoryOk := rfl
@[simp] theorem State.memoryOk_advance (s : State) (c : Cur) : (s.advance c).memoryOk = s.memoryOk := rfl
@[simp] theorem State.memoryOk_writeRegs (s : State) (k : Nat) (ws : List RegWrite) : (s.writeRegs k ws).memoryOk = s.memoryOk := rfl
@[simp] theorem State.memoryOk_writeDst (s : State) (k : Nat) (ls : List Nat) (d : Operand) (f : Nat → List Word) :
    (s.writeDst k ls d f).memoryOk = s.memoryOk := rfl
@[simp] theorem State.memoryOk_foldStore (s : State) (k o : Nat) (bs : List Byte) : (s.foldStore k o bs).memoryOk = s.memoryOk := rfl
@[simp] theorem State.memoryOk_foldDet (s : State) (k hi lo : Nat) : (s.foldDet k hi lo).memoryOk = s.memoryOk := rfl
@[simp] theorem State.memoryOk_releaseLines (s : State) (o : Owner) (ks : List LineKey) :
    (s.releaseLines o ks).memoryOk = s.memoryOk := rfl

/-- A change to a block keeps the form when the block's memories keep it. -/
theorem State.memoryOk_modBlock (s : State) (k : Nat) (f : Block → Block)
    (hf : ∀ b, Memory.wf b.shared = true ∧ Memory.wf b.wb = true → Memory.wf (f b).shared = true ∧ Memory.wf (f b).wb = true)
    (h : s.memoryOk = true) : (s.modBlock k f).memoryOk = true := by
  rw [State.memoryOk_iff] at *
  refine ⟨h.1, h.2.1, h.2.2.1, fun b hb => ?_⟩
  obtain ⟨x, hx, rfl⟩ := List.mem_map.1 hb
  split
  · exact hf x (h.2.2.2 x hx)
  · exact h.2.2.2 x hx

/-- A change to a die keeps the form when the die's scratchpad keeps it. -/
theorem State.memoryOk_modDie (s : State) (k : Nat) (f : Die → Die)
    (hf : ∀ d, Memory.wf d.spad = true → Memory.wf (f d).spad = true) (h : s.memoryOk = true) : (s.modDie k f).memoryOk = true := by
  rw [State.memoryOk_iff] at *
  refine ⟨h.1, h.2.1, fun d hd => ?_, h.2.2.2⟩
  obtain ⟨n, hn, rfl⟩ := List.getElem_of_mem hd
  simp only [State.modDie] at hn ⊢
  rw [List.getElem_modify]
  split
  · exact hf _ (h.2.2.1 _ (List.getElem_mem _))
  · exact h.2.2.1 _ (List.getElem_mem _)

theorem State.memoryOk_modCore (s : State) (d c : Nat) (f : Core → Core) (h : s.memoryOk = true) :
    (s.modCore d c f).memoryOk = true := s.memoryOk_modDie d _ (fun _ x => x) h
theorem State.memoryOk_modRender (s : State) (d : Nat) (f : Render → Render) (h : s.memoryOk = true) :
    (s.modRender d f).memoryOk = true := s.memoryOk_modDie d _ (fun _ x => x) h

theorem State.memoryOk_spacePut (s : State) (sp : Space) (a : Nat) (bs : List Byte) (h : s.memoryOk = true) :
    (s.spacePut sp a bs).memoryOk = true := by
  cases sp with
  | shared b => exact s.memoryOk_modBlock b _ (fun x hx => ⟨Memory.wf_writeBytes _ _ _ hx.1, hx.2⟩) h
  | spad d => exact s.memoryOk_modDie d _ (fun x hx => Memory.wf_writeBytes _ _ _ hx) h
  | weight b => exact s.memoryOk_modBlock b _ (fun x hx => ⟨hx.1, Memory.wf_writeBytes _ _ _ hx.2⟩) h

@[simp] theorem State.memoryOk_beforeWrite (s : State) (sp : Space) (a n : Nat) :
    (s.beforeWrite sp a n).memoryOk = s.memoryOk := by
  unfold State.beforeWrite
  split <;> rfl

theorem State.memoryOk_spaceWrite (s : State) (sp : Space) (a : Nat) (bs : List Byte) (k : Option (Nat × Nat))
    (h : s.memoryOk = true) : (s.spaceWrite sp a bs k).memoryOk = true := by
  unfold State.spaceWrite
  split
  · exact h
  · exact State.memoryOk_of_eq rfl rfl rfl rfl
      (State.memoryOk_spacePut (s.beforeWrite sp a bs.length) sp a bs (by simpa using h))

theorem State.memoryOk_spaceWriteNat (s : State) (sp : Space) (a n v : Nat) (k : Option (Nat × Nat)) (h : s.memoryOk = true) :
    (s.spaceWriteNat sp a n v k).memoryOk = true := s.memoryOk_spaceWrite sp a _ k h

theorem State.memoryOk_putRecord (s : State) (w : Warp) (r : Record) (h : s.memoryOk = true) : (s.putRecord w r).memoryOk = true := by
  unfold State.putRecord
  split
  · exact s.memoryOk_spacePut _ _ _ h
  · exact s.memoryOk_spacePut _ _ _ h
  · exact h

theorem State.memoryOk_updateRecord (s : State) (k n : Nat) (f : Record → Record) (h : s.memoryOk = true) :
    (s.updateRecord k n f).memoryOk = true := by
  unfold State.updateRecord
  simp only
  split
  · exact h
  · split
    · exact h
    · split
      · exact State.memoryOk_spacePut _ _ _ _ h
      · exact State.memoryOk_spacePut _ _ _ _ h
      · exact h

@[simp] theorem State.memoryOk_freeRecord (s : State) (k n : Nat) : (s.freeRecord k n).memoryOk = s.memoryOk := rfl

theorem State.memoryOk_narrowRecord (s : State) (k n : Nat) (ls : List Nat) (h : s.memoryOk = true) :
    (s.narrowRecord k n ls).memoryOk = true := by
  unfold State.narrowRecord
  simp only
  split
  · exact h
  · split
    · exact h
    · exact State.memoryOk_putRecord _ _ _ h

theorem State.memoryOk_addRecord (s : State) (k : Nat) (mk : Nat → Record) (h : s.memoryOk = true) :
    (s.addRecord k mk).memoryOk = true := by
  unfold State.addRecord
  split
  · exact h
  · exact State.memoryOk_putRecord _ _ _ h

/-- A fold of operations that keep the form keeps it. -/
theorem State.memoryOk_foldl {α : Type} (xs : List α) (f : State → α → State)
    (hf : ∀ s x, s.memoryOk = true → (f s x).memoryOk = true) (s : State) (h : s.memoryOk = true) :
    (xs.foldl f s).memoryOk = true := by
  induction xs generalizing s with
  | nil => exact h
  | cons x xs ih => exact ih _ (hf s x h)

theorem State.memoryOk_preemptSet (s : State) (k : Nat) (x : (Nat × Nat × Nat) × List Nat) (h : s.memoryOk = true) :
    (s.preemptSet k x).memoryOk = true := by
  unfold State.preemptSet
  split
  · exact h
  · simp only
    split <;> simp only [State.memoryOk_modLanes] <;> exact State.memoryOk_addRecord _ _ _ h

theorem State.memoryOk_preemptWarp (s : State) (k : Nat) (h : s.memoryOk = true) : (s.preemptWarp k).memoryOk = true := by
  unfold State.preemptWarp
  split
  · exact h
  · exact State.memoryOk_foldl _ _ (fun s x => s.memoryOk_preemptSet k x) _ h

theorem State.memoryOk_escalate (s : State) (c w n : Nat) (h : s.memoryOk = true) : (s.escalate c w n).memoryOk = true := by
  unfold State.escalate
  split
  · exact h
  · split
    · exact h
    · exact State.memoryOk_foldl _ _ (fun s (x : Warp) => s.memoryOk_preemptWarp x.wid) _ h

/-- Taking a trap writes memory only through the record's header. -/
theorem State.memoryOk_park (s : State) (k : Nat) (ls : List Nat) (code pc half repc opc faddr event : Nat) (h : s.memoryOk = true) :
    (s.park k ls code pc half repc opc faddr event).memoryOk = true := by
  unfold State.park
  split
  · exact h
  · simp only [State.memoryOk_modLanes]
    exact State.memoryOk_of_eq rfl rfl rfl rfl (State.memoryOk_addRecord s _ _ h)

theorem State.memoryOk_raise (s : State) (e : Env) (ts : List LaneTrap) (h : s.memoryOk = true) : (s.raise e ts).memoryOk = true :=
  State.memoryOk_foldl _ _ (fun s _ => s.memoryOk_park _ _ _ _ _ _ _ _ _) _ h

theorem State.memoryOk_raiseAll (s : State) (e : Env) (ls : List Nat) (code faddr event : Nat) (h : s.memoryOk = true) :
    (s.raiseAll e ls code faddr event).memoryOk = true := s.memoryOk_park _ _ _ _ _ _ _ _ _ h

theorem State.memoryOk_suspend? (s t : State) (e : Env) (x : Suspension) (ht : s.suspend? e x = some t) (h : s.memoryOk = true) :
    t.memoryOk = true := by
  unfold State.suspend? at ht
  split at ht
  · simp at ht
  · simp only at ht
    split at ht
    · simp at ht
    · rw [Option.some.injEq] at ht
      rw [← ht, State.memoryOk_modLanes]
      refine State.memoryOk_addRecord _ _ _ ?_
      split
      · exact (State.memoryOk_modWarp _ _ _).trans h
      · exact h

theorem State.memoryOk_suspend (s : State) (e : Env) (x : Suspension) (h : s.memoryOk = true) : (s.suspend e x).memoryOk = true := by
  unfold State.suspend
  split
  · rename_i t ht
    exact s.memoryOk_suspend? t e x ht h
  · exact s.memoryOk_raiseAll e _ _ _ _ h

theorem State.memoryOk_ready (s : State) (k n : Nat) (ws : List RegWrite) (h : s.memoryOk = true) : (s.ready k n ws).memoryOk = true := by
  unfold State.ready
  split
  · exact h
  · exact s.memoryOk_updateRecord k n _ h

@[simp] theorem State.memoryOk_rewait (s : State) (k n : Nat) (x : Wait) : (s.rewait k n x).memoryOk = s.memoryOk := rfl

@[simp] theorem State.memoryOk_restoreLanes (s : State) (k : Nat) (r : Record) : (s.restoreLanes k r).memoryOk = s.memoryOk := by
  unfold State.restoreLanes
  split <;> rfl

@[simp] theorem State.memoryOk_resumeRecord (s : State) (k n : Nat) : (s.resumeRecord k n).memoryOk = s.memoryOk := by
  unfold State.resumeRecord
  split
  · rfl
  · simp

theorem State.memoryOk_trapRecord (s : State) (w : Warp) (r : Record) (code faddr event : Nat) (h : s.memoryOk = true) :
    (s.trapRecord w r code faddr event).memoryOk = true := by
  unfold State.trapRecord
  exact State.memoryOk_park _ _ _ _ _ _ _ _ _ _ (by simpa using h)

theorem State.memoryOk_trapLanes (s : State) (w : Warp) (r : Record) (ts : List LaneTrap) (h : s.memoryOk = true) :
    (s.trapLanes w r ts).memoryOk = true := by
  unfold State.trapLanes
  refine State.memoryOk_foldl _ _ (fun s _ => s.memoryOk_park _ _ _ _ _ _ _ _ _) _ ?_
  split
  · simpa using h
  · exact State.memoryOk_narrowRecord _ _ _ _ (by simpa using h)

theorem State.memoryOk_resolve (s : State) (k n : Nat) (h : s.memoryOk = true) : (s.resolve k n).memoryOk = true := by
  have u := s.memoryOk_updateRecord k n (fun r => { r with state := .resolved }) h
  unfold State.resolve
  simp only
  split
  · exact u
  · split
    · exact u
    · split
      · split
        · exact u
        · exact u
      · exact u

theorem State.memoryOk_endLane (s : State) (k l : Nat) (h : s.memoryOk = true) : (s.endLane k l).memoryOk = true := by
  unfold State.endLane
  simp only
  split
  · exact h
  · exact State.memoryOk_modBlock _ _ _ (fun _ x => x) h

theorem State.memoryOk_endLanes (s : State) (k : Nat) (ls : List Nat) (h : s.memoryOk = true) : (s.endLanes k ls).memoryOk = true :=
  State.memoryOk_foldl _ _ (fun s l => s.memoryOk_endLane k l) _ h

/-- The return from a trap keeps the form. -/
theorem State.memoryOk_returnFrom (s : State) (w : Warp) (r : Record) (h : s.memoryOk = true) : (s.returnFrom w r).memoryOk = true :=
  State.memoryOk_resolve _ _ _ h

theorem State.memoryOk_killRecord (s : State) (w : Warp) (r : Record) (h : s.memoryOk = true) : (s.killRecord w r).memoryOk = true :=
  State.memoryOk_resolve _ _ _ (by simpa using s.memoryOk_endLanes w.wid r.lanes h)

theorem State.memoryOk_acquire (s : State) (o : Owner) (ks : List LineKey) (h : s.memoryOk = true) : (s.acquire o ks).memoryOk = true :=
  State.memoryOk_foldl _ _ (fun s k h => by
    split
    · exact State.memoryOk_of_eq rfl rfl rfl rfl h
    · exact State.memoryOk_of_eq rfl rfl rfl rfl h) _ h

@[simp] theorem State.memoryOk_beforeAcquire (s : State) (o : Owner) (k : LineKey) :
    (s.beforeAcquire o k).memoryOk = s.memoryOk := by
  unfold State.beforeAcquire
  simp only
  split <;> rfl

theorem State.memoryOk_own (s : State) (o : Owner) (ks : List LineKey) (h : s.memoryOk = true) : (s.own o ks).memoryOk = true :=
  State.memoryOk_acquire _ _ _ (State.memoryOk_foldl _ _ (fun s k h => by simpa using h) _ h)

theorem State.memoryOk_engineWord (s : State) (d a v : Nat) (h : s.memoryOk = true) : (s.engineWord d a v).memoryOk = true := by
  unfold State.engineWord
  split
  · exact h
  · exact s.memoryOk_spaceWriteNat _ _ _ _ _ h

theorem State.memoryOk_storeWords (s : State) (h : s.memoryOk = true) : s.storeWords.memoryOk = true :=
  State.memoryOk_foldl _ _ (fun s _ => s.memoryOk_engineWord _ _ _) _ h

theorem State.memoryOk_writeMain (s : State) (c : Context) (va : Nat) (b : Byte) (h : s.memoryOk = true) :
    (s.writeMain c va b).memoryOk = true := by
  have g := (State.memoryOk_iff s).1 h
  unfold State.writeMain
  split
  · exact h
  · split
    · exact (State.memoryOk_iff _).2 ⟨Cells.wf_set _ _ _ g.1, g.2⟩
    · split
      · exact (State.memoryOk_iff _).2 ⟨g.1, Cells.wf_set _ _ _ g.2.1, g.2.2⟩
      · exact State.memoryOk_of_eq rfl rfl rfl rfl h

theorem State.memoryOk_writeMainBytes (bs : List Byte) (s : State) (c : Context) (va : Nat) (h : s.memoryOk = true) :
    (s.writeMainBytes c va bs).memoryOk = true := by
  induction bs generalizing s va with
  | nil => exact h
  | cons b bs ih => exact ih _ _ (s.memoryOk_writeMain c va b h)

/-- What an instruction's envelope adds to its effect keeps the form (R22, R216). -/
theorem issue_memoryOk {i : Instr} {s t : State} {body : Env → State → State} (h : s.memoryOk = true)
    (hb : ∀ e s, s.memoryOk = true → (body e s).memoryOk = true) (ht : issue i s body = .next t) : t.memoryOk = true := by
  unfold issue at ht
  split at ht
  · simp at ht
  · split at ht
    · simp at ht
    · simp only at ht
      split at ht
      · rw [Host.Outcome.next.injEq] at ht
        exact ht ▸ s.memoryOk_raiseAll _ _ _ _ _ h
      · split at ht
        · rw [Host.Outcome.next.injEq] at ht
          exact ht ▸ s.memoryOk_suspend _ _ h
        · rw [Host.Outcome.next.injEq] at ht
          exact ht ▸ hb _ _ h

/-- The memories are in canonical form after reset. -/
theorem reset_memoryOk : State.reset.memoryOk = true := by decide

end Sys2Proof.Machine
end

