-- ==== Sys2Proof/Laws/PerInstr.lean ====
section
/-! SUPPORT. For every constructor: the opcode that its instruction encodes (Table 3.9) names the constructor again, and
the fields stay; a step without an encoding has no opcode. -/

namespace Sys2Proof.Laws

/-- No opcode has two rows. -/
theorem rows_nodup : (opcodeRows.map (·.1)).Nodup := by decide +kernel

/-- With keys that differ the first match of a key is its row. -/
theorem find_of_nodup {α : Type} : ∀ (xs : List (Nat × α)) (k n : Nat) (f : α), (xs.map (·.1)).Nodup → xs[k]? = some (n, f) →
    xs.find? (fun r => r.1 == n) = some (n, f)
  | [], _, _, _, _, h => by simp at h
  | x :: xs, 0, n, f, _, h => by
    simp only [List.getElem?_cons_zero, Option.some.injEq] at h
    simp [h]
  | x :: xs, k + 1, n, f, hd, h => by
    simp only [List.getElem?_cons_succ] at h
    simp only [List.map_cons, List.nodup_cons] at hd
    have ne : x.1 ≠ n := fun e => hd.1 (e ▸ List.mem_map.mpr ⟨_, List.mem_of_getElem? h, rfl⟩)
    rw [List.find?_cons_of_neg (by simpa using ne)]
    exact find_of_nodup xs k n f hd.2 h

/-- A row of the table builds its instruction. -/
theorem mkInstr_row {k opc : Nat} {mk : Operands → Instr} (o : Operands) (h : opcodeRows[k]? = some (opc, mk)) :
    mkInstr opc o = some (mk o) := by
  simp only [mkInstr, find_of_nodup _ _ _ _ rows_nodup h, Option.map_some]

/-- The row of an instruction's opcode builds that instruction from its fields. -/
def Enc.Statement (i : Instr) : Prop := ∀ opc o, i.isa? = some (opc, o) → mkInstr opc o = some i

theorem Enc.row {i : Instr} {o : Operands} {opc : Nat} {mk : Operands → Instr} (k : Nat) (hi : i.isa? = some (opc, o))
    (hr : opcodeRows[k]? = some (opc, mk)) (he : mk o = i) : Enc.Statement i := by
  intro opc' o' h
  obtain ⟨rfl, rfl⟩ := Prod.mk.inj (Option.some.inj (hi.symm.trans h))
  rw [mkInstr_row o hr, he]

theorem Enc.noRow {i : Instr} (hi : i.isa? = none) : Enc.Statement i := fun _ _ h => by simp [hi] at h

theorem Enc.nop (o : Operands) : Enc.Statement (.nop o) := Enc.row 0 rfl rfl rfl
theorem Enc.br (o : Operands) : Enc.Statement (.br o) := Enc.row 1 rfl rfl rfl
theorem Enc.brx (o : Operands) : Enc.Statement (.brx o) := Enc.row 2 rfl rfl rfl
theorem Enc.call (o : Operands) : Enc.Statement (.call o) := Enc.row 3 rfl rfl rfl
theorem Enc.callx (o : Operands) : Enc.Statement (.callx o) := Enc.row 4 rfl rfl rfl
theorem Enc.ret (o : Operands) : Enc.Statement (.ret o) := Enc.row 5 rfl rfl rfl
theorem Enc.exit (o : Operands) : Enc.Statement (.exit o) := Enc.row 6 rfl rfl rfl
theorem Enc.join (o : Operands) : Enc.Statement (.join o) := Enc.row 7 rfl rfl rfl
theorem Enc.yield (o : Operands) : Enc.Statement (.yield o) := Enc.row 8 rfl rfl rfl
theorem Enc.trap (o : Operands) : Enc.Statement (.trap o) := Enc.row 9 rfl rfl rfl
theorem Enc.brk (o : Operands) : Enc.Statement (.brk o) := Enc.row 10 rfl rfl rfl
theorem Enc.csrRd (o : Operands) : Enc.Statement (.csrRd o) := Enc.row 11 rfl rfl rfl
theorem Enc.csrWr (o : Operands) : Enc.Statement (.csrWr o) := Enc.row 12 rfl rfl rfl
theorem Enc.csrSet (o : Operands) : Enc.Statement (.csrSet o) := Enc.row 13 rfl rfl rfl
theorem Enc.csrClr (o : Operands) : Enc.Statement (.csrClr o) := Enc.row 14 rfl rfl rfl
theorem Enc.clkRd (o : Operands) : Enc.Statement (.clkRd o) := Enc.row 15 rfl rfl rfl
theorem Enc.digFold (o : Operands) : Enc.Statement (.digFold o) := Enc.row 16 rfl rfl rfl
theorem Enc.pcRd (o : Operands) : Enc.Statement (.pcRd o) := Enc.row 17 rfl rfl rfl
theorem Enc.hdlResume (o : Operands) : Enc.Statement (.hdlResume o) := Enc.row 18 rfl rfl rfl
theorem Enc.hdlKill (o : Operands) : Enc.Statement (.hdlKill o) := Enc.row 19 rfl rfl rfl
theorem Enc.hdlEsc (o : Operands) : Enc.Statement (.hdlEsc o) := Enc.row 20 rfl rfl rfl
theorem Enc.iadd (o : Operands) : Enc.Statement (.iadd o) := Enc.row 21 rfl rfl rfl
theorem Enc.isub (o : Operands) : Enc.Statement (.isub o) := Enc.row 22 rfl rfl rfl
theorem Enc.imul (o : Operands) : Enc.Statement (.imul o) := Enc.row 23 rfl rfl rfl
theorem Enc.imulh (o : Operands) : Enc.Statement (.imulh o) := Enc.row 24 rfl rfl rfl
theorem Enc.imad (o : Operands) : Enc.Statement (.imad o) := Enc.row 25 rfl rfl rfl
theorem Enc.imadw (o : Operands) : Enc.Statement (.imadw o) := Enc.row 26 rfl rfl rfl
theorem Enc.iaddx (o : Operands) : Enc.Statement (.iaddx o) := Enc.row 27 rfl rfl rfl
theorem Enc.idiv (o : Operands) : Enc.Statement (.idiv o) := Enc.row 28 rfl rfl rfl
theorem Enc.irem (o : Operands) : Enc.Statement (.irem o) := Enc.row 29 rfl rfl rfl
theorem Enc.iabs (o : Operands) : Enc.Statement (.iabs o) := Enc.row 30 rfl rfl rfl
theorem Enc.imin (o : Operands) : Enc.Statement (.imin o) := Enc.row 31 rfl rfl rfl
theorem Enc.imax (o : Operands) : Enc.Statement (.imax o) := Enc.row 32 rfl rfl rfl
theorem Enc.sel (o : Operands) : Enc.Statement (.sel o) := Enc.row 33 rfl rfl rfl
theorem Enc.mov (o : Operands) : Enc.Statement (.mov o) := Enc.row 34 rfl rfl rfl
theorem Enc.icmp (o : Operands) : Enc.Statement (.icmp o) := Enc.row 35 rfl rfl rfl
theorem Enc.and (o : Operands) : Enc.Statement (.and o) := Enc.row 36 rfl rfl rfl
theorem Enc.or (o : Operands) : Enc.Statement (.or o) := Enc.row 37 rfl rfl rfl
theorem Enc.xor (o : Operands) : Enc.Statement (.xor o) := Enc.row 38 rfl rfl rfl
theorem Enc.andn (o : Operands) : Enc.Statement (.andn o) := Enc.row 39 rfl rfl rfl
theorem Enc.orn (o : Operands) : Enc.Statement (.orn o) := Enc.row 40 rfl rfl rfl
theorem Enc.lgc3 (o : Operands) : Enc.Statement (.lgc3 o) := Enc.row 41 rfl rfl rfl
theorem Enc.shl (o : Operands) : Enc.Statement (.shl o) := Enc.row 42 rfl rfl rfl
theorem Enc.shr (o : Operands) : Enc.Statement (.shr o) := Enc.row 43 rfl rfl rfl
theorem Enc.sar (o : Operands) : Enc.Statement (.sar o) := Enc.row 44 rfl rfl rfl
theorem Enc.rol (o : Operands) : Enc.Statement (.rol o) := Enc.row 45 rfl rfl rfl
theorem Enc.ror (o : Operands) : Enc.Statement (.ror o) := Enc.row 46 rfl rfl rfl
theorem Enc.fsh (o : Operands) : Enc.Statement (.fsh o) := Enc.row 47 rfl rfl rfl
theorem Enc.bfx (o : Operands) : Enc.Statement (.bfx o) := Enc.row 48 rfl rfl rfl
theorem Enc.bfi (o : Operands) : Enc.Statement (.bfi o) := Enc.row 49 rfl rfl rfl
theorem Enc.popc (o : Operands) : Enc.Statement (.popc o) := Enc.row 50 rfl rfl rfl
theorem Enc.clz (o : Operands) : Enc.Statement (.clz o) := Enc.row 51 rfl rfl rfl
theorem Enc.brev (o : Operands) : Enc.Statement (.brev o) := Enc.row 52 rfl rfl rfl
theorem Enc.bset (o : Operands) : Enc.Statement (.bset o) := Enc.row 53 rfl rfl rfl
theorem Enc.bclr (o : Operands) : Enc.Statement (.bclr o) := Enc.row 54 rfl rfl rfl
theorem Enc.vaAdd (o : Operands) : Enc.Statement (.vaAdd o) := Enc.row 55 rfl rfl rfl
theorem Enc.vaSub (o : Operands) : Enc.Statement (.vaSub o) := Enc.row 56 rfl rfl rfl
theorem Enc.vaCmp (o : Operands) : Enc.Statement (.vaCmp o) := Enc.row 57 rfl rfl rfl
theorem Enc.vaMov (o : Operands) : Enc.Statement (.vaMov o) := Enc.row 58 rfl rfl rfl
theorem Enc.fadd (o : Operands) : Enc.Statement (.fadd o) := Enc.row 59 rfl rfl rfl
theorem Enc.fsub (o : Operands) : Enc.Statement (.fsub o) := Enc.row 60 rfl rfl rfl
theorem Enc.fmul (o : Operands) : Enc.Statement (.fmul o) := Enc.row 61 rfl rfl rfl
theorem Enc.fma (o : Operands) : Enc.Statement (.fma o) := Enc.row 62 rfl rfl rfl
theorem Enc.fms (o : Operands) : Enc.Statement (.fms o) := Enc.row 63 rfl rfl rfl
theorem Enc.fnma (o : Operands) : Enc.Statement (.fnma o) := Enc.row 64 rfl rfl rfl
theorem Enc.fmin (o : Operands) : Enc.Statement (.fmin o) := Enc.row 65 rfl rfl rfl
theorem Enc.fmax (o : Operands) : Enc.Statement (.fmax o) := Enc.row 66 rfl rfl rfl
theorem Enc.fcmp (o : Operands) : Enc.Statement (.fcmp o) := Enc.row 67 rfl rfl rfl
theorem Enc.fcmpAx (o : Operands) : Enc.Statement (.fcmpAx o) := Enc.row 68 rfl rfl rfl
theorem Enc.fclass (o : Operands) : Enc.Statement (.fclass o) := Enc.row 69 rfl rfl rfl
theorem Enc.fmov (o : Operands) : Enc.Statement (.fmov o) := Enc.row 70 rfl rfl rfl
theorem Enc.frnd (o : Operands) : Enc.Statement (.frnd o) := Enc.row 71 rfl rfl rfl
theorem Enc.fscale (o : Operands) : Enc.Statement (.fscale o) := Enc.row 72 rfl rfl rfl
theorem Enc.fgetx (o : Operands) : Enc.Statement (.fgetx o) := Enc.row 73 rfl rfl rfl
theorem Enc.fdot2 (o : Operands) : Enc.Statement (.fdot2 o) := Enc.row 74 rfl rfl rfl
theorem Enc.fclamp (o : Operands) : Enc.Statement (.fclamp o) := Enc.row 75 rfl rfl rfl
theorem Enc.fminmag (o : Operands) : Enc.Statement (.fminmag o) := Enc.row 76 rfl rfl rfl
theorem Enc.fmaxmag (o : Operands) : Enc.Statement (.fmaxmag o) := Enc.row 77 rfl rfl rfl
theorem Enc.ffrac (o : Operands) : Enc.Statement (.ffrac o) := Enc.row 78 rfl rfl rfl
theorem Enc.cvtF32 (o : Operands) : Enc.Statement (.cvtF32 o) := Enc.row 79 rfl rfl rfl
theorem Enc.cvtF16 (o : Operands) : Enc.Statement (.cvtF16 o) := Enc.row 80 rfl rfl rfl
theorem Enc.cvtBf16 (o : Operands) : Enc.Statement (.cvtBf16 o) := Enc.row 81 rfl rfl rfl
theorem Enc.cvtE4m3 (o : Operands) : Enc.Statement (.cvtE4m3 o) := Enc.row 82 rfl rfl rfl
theorem Enc.cvtE5m2 (o : Operands) : Enc.Statement (.cvtE5m2 o) := Enc.row 83 rfl rfl rfl
theorem Enc.cvtE2m1 (o : Operands) : Enc.Statement (.cvtE2m1 o) := Enc.row 84 rfl rfl rfl
theorem Enc.cvtInt (o : Operands) : Enc.Statement (.cvtInt o) := Enc.row 85 rfl rfl rfl
theorem Enc.cvtRgb (o : Operands) : Enc.Statement (.cvtRgb o) := Enc.row 86 rfl rfl rfl
theorem Enc.cvtMxf4 (o : Operands) : Enc.Statement (.cvtMxf4 o) := Enc.row 87 rfl rfl rfl
theorem Enc.cvtMxi8 (o : Operands) : Enc.Statement (.cvtMxi8 o) := Enc.row 88 rfl rfl rfl
theorem Enc.cvtMxi4 (o : Operands) : Enc.Statement (.cvtMxi4 o) := Enc.row 89 rfl rfl rfl
theorem Enc.cvtUnrgb (o : Operands) : Enc.Statement (.cvtUnrgb o) := Enc.row 90 rfl rfl rfl
theorem Enc.cvtUnmx (o : Operands) : Enc.Statement (.cvtUnmx o) := Enc.row 91 rfl rfl rfl
theorem Enc.rcp (o : Operands) : Enc.Statement (.rcp o) := Enc.row 92 rfl rfl rfl
theorem Enc.rsqrt (o : Operands) : Enc.Statement (.rsqrt o) := Enc.row 93 rfl rfl rfl
theorem Enc.sqrt (o : Operands) : Enc.Statement (.sqrt o) := Enc.row 94 rfl rfl rfl
theorem Enc.exp2 (o : Operands) : Enc.Statement (.exp2 o) := Enc.row 95 rfl rfl rfl
theorem Enc.log2 (o : Operands) : Enc.Statement (.log2 o) := Enc.row 96 rfl rfl rfl
theorem Enc.sin (o : Operands) : Enc.Statement (.sin o) := Enc.row 97 rfl rfl rfl
theorem Enc.cos (o : Operands) : Enc.Statement (.cos o) := Enc.row 98 rfl rfl rfl
theorem Enc.tanh (o : Operands) : Enc.Statement (.tanh o) := Enc.row 99 rfl rfl rfl
theorem Enc.fdiv (o : Operands) : Enc.Statement (.fdiv o) := Enc.row 100 rfl rfl rfl
theorem Enc.sigm (o : Operands) : Enc.Statement (.sigm o) := Enc.row 101 rfl rfl rfl
theorem Enc.smxMul (o : Operands) : Enc.Statement (.smxMul o) := Enc.row 102 rfl rfl rfl
theorem Enc.smxMad (o : Operands) : Enc.Statement (.smxMad o) := Enc.row 103 rfl rfl rfl
theorem Enc.smxAdd (o : Operands) : Enc.Statement (.smxAdd o) := Enc.row 104 rfl rfl rfl
theorem Enc.smxScl (o : Operands) : Enc.Statement (.smxScl o) := Enc.row 105 rfl rfl rfl
theorem Enc.smxTr (o : Operands) : Enc.Statement (.smxTr o) := Enc.row 106 rfl rfl rfl
theorem Enc.smxSym (o : Operands) : Enc.Statement (.smxSym o) := Enc.row 107 rfl rfl rfl
theorem Enc.smxId (o : Operands) : Enc.Statement (.smxId o) := Enc.row 108 rfl rfl rfl
theorem Enc.smxChol (o : Operands) : Enc.Statement (.smxChol o) := Enc.row 109 rfl rfl rfl
theorem Enc.smxLu (o : Operands) : Enc.Statement (.smxLu o) := Enc.row 110 rfl rfl rfl
theorem Enc.smxSol (o : Operands) : Enc.Statement (.smxSol o) := Enc.row 111 rfl rfl rfl
theorem Enc.smxLdSh (o : Operands) : Enc.Statement (.smxLdSh o) := Enc.row 112 rfl rfl rfl
theorem Enc.smxStSh (o : Operands) : Enc.Statement (.smxStSh o) := Enc.row 113 rfl rfl rfl
theorem Enc.vote (o : Operands) : Enc.Statement (.vote o) := Enc.row 114 rfl rfl rfl
theorem Enc.elect (o : Operands) : Enc.Statement (.elect o) := Enc.row 115 rfl rfl rfl
theorem Enc.bcast (o : Operands) : Enc.Statement (.bcast o) := Enc.row 116 rfl rfl rfl
theorem Enc.shf (o : Operands) : Enc.Statement (.shf o) := Enc.row 117 rfl rfl rfl
theorem Enc.prm (o : Operands) : Enc.Statement (.prm o) := Enc.row 118 rfl rfl rfl
theorem Enc.matchKeys (o : Operands) : Enc.Statement (.matchKeys o) := Enc.row 119 rfl rfl rfl
theorem Enc.red (o : Operands) : Enc.Statement (.red o) := Enc.row 120 rfl rfl rfl
theorem Enc.scan (o : Operands) : Enc.Statement (.scan o) := Enc.row 121 rfl rfl rfl
theorem Enc.sscan (o : Operands) : Enc.Statement (.sscan o) := Enc.row 122 rfl rfl rfl
theorem Enc.rank (o : Operands) : Enc.Statement (.rank o) := Enc.row 123 rfl rfl rfl
theorem Enc.cmpct (o : Operands) : Enc.Statement (.cmpct o) := Enc.row 124 rfl rfl rfl
theorem Enc.part (o : Operands) : Enc.Statement (.part o) := Enc.row 125 rfl rfl rfl
theorem Enc.lsel (o : Operands) : Enc.Statement (.lsel o) := Enc.row 126 rfl rfl rfl
theorem Enc.ldSh (o : Operands) : Enc.Statement (.ldSh o) := Enc.row 127 rfl rfl rfl
theorem Enc.stSh (o : Operands) : Enc.Statement (.stSh o) := Enc.row 128 rfl rfl rfl
theorem Enc.ldSp (o : Operands) : Enc.Statement (.ldSp o) := Enc.row 129 rfl rfl rfl
theorem Enc.stSp (o : Operands) : Enc.Statement (.stSp o) := Enc.row 130 rfl rfl rfl
theorem Enc.ldmT (o : Operands) : Enc.Statement (.ldmT o) := Enc.row 131 rfl rfl rfl
theorem Enc.ldPar (o : Operands) : Enc.Statement (.ldPar o) := Enc.row 132 rfl rfl rfl
theorem Enc.prefSp (o : Operands) : Enc.Statement (.prefSp o) := Enc.row 133 rfl rfl rfl
theorem Enc.atm (o : Operands) : Enc.Statement (.atm o) := Enc.row 134 rfl rfl rfl
theorem Enc.atmCas (o : Operands) : Enc.Statement (.atmCas o) := Enc.row 135 rfl rfl rfl
theorem Enc.splPush (o : Operands) : Enc.Statement (.splPush o) := Enc.row 136 rfl rfl rfl
theorem Enc.splPop (o : Operands) : Enc.Statement (.splPop o) := Enc.row 137 rfl rfl rfl
theorem Enc.splRd (o : Operands) : Enc.Statement (.splRd o) := Enc.row 138 rfl rfl rfl
theorem Enc.waitAddr (o : Operands) : Enc.Statement (.waitAddr o) := Enc.row 139 rfl rfl rfl
theorem Enc.fenceC (o : Operands) : Enc.Statement (.fenceC o) := Enc.row 140 rfl rfl rfl
theorem Enc.barArv (o : Operands) : Enc.Statement (.barArv o) := Enc.row 141 rfl rfl rfl
theorem Enc.barWait (o : Operands) : Enc.Statement (.barWait o) := Enc.row 142 rfl rfl rfl
theorem Enc.barSync (o : Operands) : Enc.Statement (.barSync o) := Enc.row 143 rfl rfl rfl
theorem Enc.bcp (o : Operands) : Enc.Statement (.bcp o) := Enc.row 144 rfl rfl rfl
theorem Enc.bcpWait (o : Operands) : Enc.Statement (.bcpWait o) := Enc.row 145 rfl rfl rfl
theorem Enc.bcpSt (o : Operands) : Enc.Statement (.bcpSt o) := Enc.row 146 rfl rfl rfl
theorem Enc.bbarInit (o : Operands) : Enc.Statement (.bbarInit o) := Enc.row 147 rfl rfl rfl
theorem Enc.bbarWait (o : Operands) : Enc.Statement (.bbarWait o) := Enc.row 148 rfl rfl rfl
theorem Enc.bbarAdd (o : Operands) : Enc.Statement (.bbarAdd o) := Enc.row 149 rfl rfl rfl
theorem Enc.bbarRd (o : Operands) : Enc.Statement (.bbarRd o) := Enc.row 150 rfl rfl rfl
theorem Enc.qInit (o : Operands) : Enc.Statement (.qInit o) := Enc.row 151 rfl rfl rfl
theorem Enc.qPush (o : Operands) : Enc.Statement (.qPush o) := Enc.row 152 rfl rfl rfl
theorem Enc.qPop (o : Operands) : Enc.Statement (.qPop o) := Enc.row 153 rfl rfl rfl
theorem Enc.qLen (o : Operands) : Enc.Statement (.qLen o) := Enc.row 154 rfl rfl rfl
theorem Enc.hngInit (o : Operands) : Enc.Statement (.hngInit o) := Enc.row 155 rfl rfl rfl
theorem Enc.hngTake (o : Operands) : Enc.Statement (.hngTake o) := Enc.row 156 rfl rfl rfl
theorem Enc.hngGive (o : Operands) : Enc.Statement (.hngGive o) := Enc.row 157 rfl rfl rfl
theorem Enc.hngRd (o : Operands) : Enc.Statement (.hngRd o) := Enc.row 158 rfl rfl rfl
theorem Enc.spawn (o : Operands) : Enc.Statement (.spawn o) := Enc.row 159 rfl rfl rfl
theorem Enc.taskDone (o : Operands) : Enc.Statement (.taskDone o) := Enc.row 160 rfl rfl rfl
theorem Enc.depArm (o : Operands) : Enc.Statement (.depArm o) := Enc.row 161 rfl rfl rfl
theorem Enc.depDec (o : Operands) : Enc.Statement (.depDec o) := Enc.row 162 rfl rfl rfl
theorem Enc.taskWait (o : Operands) : Enc.Statement (.taskWait o) := Enc.row 163 rfl rfl rfl
theorem Enc.taskSt (o : Operands) : Enc.Statement (.taskSt o) := Enc.row 164 rfl rfl rfl
theorem Enc.dqPush (o : Operands) : Enc.Statement (.dqPush o) := Enc.row 165 rfl rfl rfl
theorem Enc.dqPop (o : Operands) : Enc.Statement (.dqPop o) := Enc.row 166 rfl rfl rfl
theorem Enc.dqSteal (o : Operands) : Enc.Statement (.dqSteal o) := Enc.row 167 rfl rfl rfl
theorem Enc.mmGo (o : Operands) : Enc.Statement (.mmGo o) := Enc.row 168 rfl rfl rfl
theorem Enc.mmWait (o : Operands) : Enc.Statement (.mmWait o) := Enc.row 169 rfl rfl rfl
theorem Enc.mmSt (o : Operands) : Enc.Statement (.mmSt o) := Enc.row 170 rfl rfl rfl
theorem Enc.mxqPop (o : Operands) : Enc.Statement (.mxqPop o) := Enc.row 171 rfl rfl rfl
theorem Enc.mxqLen (o : Operands) : Enc.Statement (.mxqLen o) := Enc.row 172 rfl rfl rfl
theorem Enc.mxqRst (o : Operands) : Enc.Statement (.mxqRst o) := Enc.row 173 rfl rfl rfl
theorem Enc.wbLoad (o : Operands) : Enc.Statement (.wbLoad o) := Enc.row 174 rfl rfl rfl
theorem Enc.wbClr (o : Operands) : Enc.Statement (.wbClr o) := Enc.row 175 rfl rfl rfl
theorem Enc.spkPrio (o : Operands) : Enc.Statement (.spkPrio o) := Enc.row 176 rfl rfl rfl
theorem Enc.spkMap (o : Operands) : Enc.Statement (.spkMap o) := Enc.row 177 rfl rfl rfl
theorem Enc.spkRd (o : Operands) : Enc.Statement (.spkRd o) := Enc.row 178 rfl rfl rfl
theorem Enc.sampEmit (o : Operands) : Enc.Statement (.sampEmit o) := Enc.row 179 rfl rfl rfl
theorem Enc.sampGth (o : Operands) : Enc.Statement (.sampGth o) := Enc.row 180 rfl rfl rfl
theorem Enc.trvInit (o : Operands) : Enc.Statement (.trvInit o) := Enc.row 181 rfl rfl rfl
theorem Enc.trvStep (o : Operands) : Enc.Statement (.trvStep o) := Enc.row 182 rfl rfl rfl
theorem Enc.trvHit (o : Operands) : Enc.Statement (.trvHit o) := Enc.row 183 rfl rfl rfl
theorem Enc.prbStep (o : Operands) : Enc.Statement (.prbStep o) := Enc.row 184 rfl rfl rfl
theorem Enc.texSmp (o : Operands) : Enc.Statement (.texSmp o) := Enc.row 185 rfl rfl rfl
theorem Enc.texQry (o : Operands) : Enc.Statement (.texQry o) := Enc.row 186 rfl rfl rfl
theorem Enc.truSort (o : Operands) : Enc.Statement (.truSort o) := Enc.row 187 rfl rfl rfl
theorem Enc.rowPut (o : Operands) : Enc.Statement (.rowPut o) := Enc.row 188 rfl rfl rfl
theorem Enc.rowAck (o : Operands) : Enc.Statement (.rowAck o) := Enc.row 189 rfl rfl rfl
theorem Enc.cmbAlloc (o : Operands) : Enc.Statement (.cmbAlloc o) := Enc.row 190 rfl rfl rfl
theorem Enc.cmbPut (o : Operands) : Enc.Statement (.cmbPut o) := Enc.row 191 rfl rfl rfl
theorem Enc.cmbStat (o : Operands) : Enc.Statement (.cmbStat o) := Enc.row 192 rfl rfl rfl
theorem Enc.cmbFree (o : Operands) : Enc.Statement (.cmbFree o) := Enc.row 193 rfl rfl rfl
theorem Enc.instructionCacheFill (die core ctx base pc : Nat) : Enc.Statement (.instructionCacheFill die core ctx base pc) := Enc.noRow rfl
theorem Enc.joinRelease (wid : Nat) : Enc.Statement (.joinRelease wid) := Enc.noRow rfl
theorem Enc.laneSetStarved (wid lane : Nat) : Enc.Statement (.laneSetStarved wid lane) := Enc.noRow rfl
theorem Enc.warpBoost (wid : Nat) : Enc.Statement (.warpBoost wid) := Enc.noRow rfl
theorem Enc.spinDemote (wid : Nat) : Enc.Statement (.spinDemote wid) := Enc.noRow rfl
theorem Enc.waitTimeout (wid seq : Nat) : Enc.Statement (.waitTimeout wid seq) := Enc.noRow rfl
theorem Enc.recordResume (wid seq : Nat) : Enc.Statement (.recordResume wid seq) := Enc.noRow rfl
theorem Enc.warpReenter (wid : Nat) : Enc.Statement (.warpReenter wid) := Enc.noRow rfl
theorem Enc.storePerformed (wid : Nat) : Enc.Statement (.storePerformed wid) := Enc.noRow rfl
theorem Enc.scratchpadLineFill (die core line : Nat) : Enc.Statement (.scratchpadLineFill die core line) := Enc.noRow rfl
theorem Enc.detRequestApply (wid seq : Nat) : Enc.Statement (.detRequestApply wid seq) := Enc.noRow rfl
theorem Enc.engineLineRelease (op : Nat) (line : LineKey) : Enc.Statement (.engineLineRelease op line) := Enc.noRow rfl
theorem Enc.copyComplete (op : Nat) : Enc.Statement (.copyComplete op) := Enc.noRow rfl
theorem Enc.copyFault (op : Nat) : Enc.Statement (.copyFault op) := Enc.noRow rfl
theorem Enc.matrixStart (op : Nat) : Enc.Statement (.matrixStart op) := Enc.noRow rfl
theorem Enc.mxqRowPush (op : Nat) : Enc.Statement (.mxqRowPush op) := Enc.noRow rfl
theorem Enc.matrixComplete (op : Nat) : Enc.Statement (.matrixComplete op) := Enc.noRow rfl
theorem Enc.forwardedRecordArrival (op : Nat) : Enc.Statement (.forwardedRecordArrival op) := Enc.noRow rfl
theorem Enc.taskStart (die core ctx : Nat) : Enc.Statement (.taskStart die core ctx) := Enc.noRow rfl
theorem Enc.taskSteal (die core ctx : Nat) : Enc.Statement (.taskSteal die core ctx) := Enc.noRow rfl
theorem Enc.traversalReadComplete (wid seq : Nat) : Enc.Statement (.traversalReadComplete wid seq) := Enc.noRow rfl
theorem Enc.textureSampleComplete (wid seq : Nat) : Enc.Statement (.textureSampleComplete wid seq) := Enc.noRow rfl
theorem Enc.sampleGatherComplete (wid seq : Nat) : Enc.Statement (.sampleGatherComplete wid seq) := Enc.noRow rfl
theorem Enc.putFirstByte (op : Nat) : Enc.Statement (.putFirstByte op) := Enc.noRow rfl
theorem Enc.putArrival (op : Nat) : Enc.Statement (.putArrival op) := Enc.noRow rfl
theorem Enc.combineDeadline (die slot : Nat) : Enc.Statement (.combineDeadline die slot) := Enc.noRow rfl
theorem Enc.combineRelease (die slot : Nat) : Enc.Statement (.combineRelease die slot) := Enc.noRow rfl
theorem Enc.launchRecordRead (queue : Nat) : Enc.Statement (.launchRecordRead queue) := Enc.noRow rfl
theorem Enc.blockPlace (launch : Nat) : Enc.Statement (.blockPlace launch) := Enc.noRow rfl
theorem Enc.handlerDispatch (wid seq : Nat) : Enc.Statement (.handlerDispatch wid seq) := Enc.noRow rfl
theorem Enc.rtPreempt (die core : Nat) : Enc.Statement (.rtPreempt die core) := Enc.noRow rfl
theorem Enc.drainTimeout (block : Nat) : Enc.Statement (.drainTimeout block) := Enc.noRow rfl
theorem Enc.blockSave (block : Nat) : Enc.Statement (.blockSave block) := Enc.noRow rfl
theorem Enc.watchdogExpiry (ctx : Nat) : Enc.Statement (.watchdogExpiry ctx) := Enc.noRow rfl
theorem Enc.uncorrectableError (place : ErrorPlace) : Enc.Statement (.uncorrectableError place) := Enc.noRow rfl
theorem Enc.dieBridgeLinkLoss : Enc.Statement .dieBridgeLinkLoss := Enc.noRow rfl
theorem Enc.coreDump (ctx : Nat) : Enc.Statement (.coreDump ctx) := Enc.noRow rfl
theorem Enc.pickerTick (die : Nat) : Enc.Statement (.pickerTick die) := Enc.noRow rfl
theorem Enc.bandRequest (die band : Nat) : Enc.Statement (.bandRequest die band) := Enc.noRow rfl
theorem Enc.bandScan (die band : Nat) : Enc.Statement (.bandScan die band) := Enc.noRow rfl
theorem Enc.sensorUnitDelivery (die chan : Nat) (unit : SensorUnit) (firstPt : Nat) (bad : Bool) :
    Enc.Statement (.sensorUnitDelivery die chan unit firstPt bad) := Enc.noRow rfl
theorem Enc.sensorI3cPeriod (die chan : Nat) (unit : SensorUnit) (firstPt : Nat) (bad : Bool) :
    Enc.Statement (.sensorI3cPeriod die chan unit firstPt bad) := Enc.noRow rfl
theorem Enc.contextCreate (id : Nat) : Enc.Statement (.contextCreate id) := Enc.noRow rfl
theorem Enc.contextRetire (id : Nat) : Enc.Statement (.contextRetire id) := Enc.noRow rfl
theorem Enc.queueSwitchOut (queue : Nat) : Enc.Statement (.queueSwitchOut queue) := Enc.noRow rfl
theorem Enc.queueSwitchIn (queue : Nat) : Enc.Statement (.queueSwitchIn queue) := Enc.noRow rfl
theorem Enc.qctlErrClear (queue : Nat) : Enc.Statement (.qctlErrClear queue) := Enc.noRow rfl
theorem Enc.tailWrite (queue : Nat) (value : Word) : Enc.Statement (.tailWrite queue value) := Enc.noRow rfl
theorem Enc.pwrModeWrite (belt : Bool) : Enc.Statement (.pwrModeWrite belt) := Enc.noRow rfl
theorem Enc.dvfsPointChange : Enc.Statement .dvfsPointChange := Enc.noRow rfl
theorem Enc.thermalDrop (temp : Nat) : Enc.Statement (.thermalDrop temp) := Enc.noRow rfl
theorem Enc.thermalRise (temp : Nat) : Enc.Statement (.thermalRise temp) := Enc.noRow rfl
theorem Enc.thermalTrip (temp : Nat) : Enc.Statement (.thermalTrip temp) := Enc.noRow rfl
theorem Enc.sensorChannelWrite (die chan index : Nat) (value : Word) : Enc.Statement (.sensorChannelWrite die chan index value) := Enc.noRow rfl
theorem Enc.attestationRequest (nonce : List Byte) : Enc.Statement (.attestationRequest nonce) := Enc.noRow rfl
theorem Enc.bar0RegisterWrite (offset : Nat) (value : Word) : Enc.Statement (.bar0RegisterWrite offset value) := Enc.noRow rfl
theorem Enc.hostBar2Write (at_ : Nat) (data : List Byte) : Enc.Statement (.hostBar2Write at_ data) := Enc.noRow rfl
theorem Enc.hostBar2Read (at_ len : Nat) : Enc.Statement (.hostBar2Read at_ len) := Enc.noRow rfl
theorem Enc.hostMemoryWrite (addr : Nat) (data : List Byte) : Enc.Statement (.hostMemoryWrite addr data) := Enc.noRow rfl
theorem Enc.deviceStart (held : Option Bool) : Enc.Statement (.deviceStart held) := Enc.noRow rfl
theorem Enc.copyBlockWritten (op block : Nat) : Enc.Statement (.copyBlockWritten op block) := Enc.noRow rfl
theorem Enc.remoteLineAcquisition (op : Nat) : Enc.Statement (.remoteLineAcquisition op) := Enc.noRow rfl
theorem Enc.inBandInterrupt (die chan : Nat) (unit : SensorUnit) (firstPt : Nat) (bad : Bool) :
    Enc.Statement (.inBandInterrupt die chan unit firstPt bad) := Enc.noRow rfl

end Sys2Proof.Laws
end

