-- ==== Sys2Proof/Laws/Results.lean ====
section
/-! SUPPORT. Operands read after the advance are those at issue, and what an instruction gives that writes words and flags
in each lane. -/

namespace Sys2Proof.Machine

theorem State.ctxs_advance (s : State) (c : Cur) : (s.advance c).ctxs = s.ctxs := by
  have := congrArg State.ctxs (s.still_advance c)
  simpa [State.still] using this

theorem State.ctx?_advance (s : State) (c : Cur) (n : Nat) : (s.advance c).ctx? n = s.ctx? n := by
  simp only [State.ctx?, s.ctxs_advance c]

theorem State.ctxClk_advance (s : State) (c : Cur) (n : Nat) : (s.advance c).ctxClk n = s.ctxClk n := by
  simp only [State.ctxClk, s.ctx?_advance c]

/-- An operand reads the same before and after the advance of its own issue. -/
theorem operandWord_advance (s : State) (c c' : Cur) (w : Warp) (l : Nat) (ty : OpTy) (x : Operand) :
    operandWord (s.advance c) w c'.lanes l ty x = operandWord s w c'.lanes l ty x := by
  cases x with
  | spc y => cases y <;> simp only [operandWord, specialWord, s.ctxClk_advance c]
  | _ => rfl

theorem operandWords_advance (s : State) (c c' : Cur) (w : Warp) (l n : Nat) (sg : Bool) (x : Operand) :
    operandWords (s.advance c) w c'.lanes l n sg x = operandWords s w c'.lanes l n sg x := by
  cases x <;> simp only [operandWords, operandWord_advance]

theorem Env.a_advance (s : State) (i : Instr) (c : Cur) (w : Warp) (l : Nat) :
    (s.env i c w).a (s.advance c) l = (s.sources i.operands c w l).a := operandWord_advance s c c w l .int _
theorem Env.b_advance (s : State) (i : Instr) (c : Cur) (w : Warp) (l : Nat) :
    (s.env i c w).b (s.advance c) l = (s.sources i.operands c w l).b := operandWord_advance s c c w l .int _
theorem Env.cc_advance (s : State) (i : Instr) (c : Cur) (w : Warp) (l : Nat) :
    (s.env i c w).cc (s.advance c) l = (s.sources i.operands c w l).c := operandWord_advance s c c w l .int _
theorem Env.d_advance (s : State) (i : Instr) (c : Cur) (w : Warp) (l : Nat) :
    (s.env i c w).d (s.advance c) l = (s.sources i.operands c w l).d := operandWord_advance s c c w l .int _
theorem Env.word_advance (s : State) (i : Instr) (c : Cur) (w : Warp) (ty : OpTy) (x : Operand) (l : Nat) :
    (s.env i c w).word (s.advance c) ty x l = operandWord s w c.lanes l ty x := operandWord_advance s c c w l ty _
theorem Env.words_advance (s : State) (i : Instr) (c : Cur) (w : Warp) (n : Nat) (sg : Bool) (x : Operand) (l : Nat) :
    (s.env i c w).words (s.advance c) n sg x l = operandWords s w c.lanes l n sg x :=
  operandWords_advance s c c w l n sg _

/-- Reading after the advance is reading at issue. -/
theorem Env.word_advance' (s : State) (i : Instr) (c : Cur) (w : Warp) (ty : OpTy) :
    (s.env i c w).word (s.advance c) ty = (s.env i c w).word s ty := by
  funext x l; exact operandWord_advance s c c w l ty x

/-- Writing words and flags in each lane, as a relation. -/
theorem writes_perLane {s : State} {i : Instr} {c : Cur} {w : Warp} (h : Issuing s i c w)
    (f : Nat → List Word × BitVec 6) (n : Nat) (R : Nat → List Word → BitVec 6 → Prop)
    (hn : ∀ l, (f l).1.length ≤ n) (hR : ∀ l ∈ activeLanes s i c w, R l (f l).1 (f l).2) :
    Writes s ((s.advance c).perLane (s.env i c w) f) i c w n R := by
  have := perLane_spec h f n hn
  exact ⟨this.1, perLane_moved h f, fun l hl => ⟨_, _, hR l hl, this.2 l hl⟩⟩

/-- An instruction whose effect is to write words and flags in each lane gives them. -/
theorem gives_perLane {mk : Operands → Instr} {n : Operands → Nat}
    {R : State → Operands → Cur → Warp → Nat → List Word → BitVec 6 → Prop} (f : Env → State → Nat → List Word × BitVec 6)
    (he : ∀ o s, exec (mk o) s = issue (mk o) s (fun e s => s.perLane e (f e s)))
    (hn : ∀ e s l, e.o = (mk e.o).operands → (f e s l).1.length ≤ n e.o)
    (ho : ∀ o, (mk o).operands = o)
    (hR : ∀ s o c w, Issuing s (mk o) c w → ∀ l ∈ activeLanes s (mk o) c w,
      R s o c w l (f (s.env (mk o) c w) (s.advance c) l).1 (f (s.env (mk o) c w) (s.advance c) l).2) :
    Gives mk n R := by
  intro s o c w h
  refine ⟨_, by rw [he, issue_next h], ?_⟩
  refine writes_perLane h _ _ _ (fun l => ?_) (hR s o c w h)
  have := hn (s.env (mk o) c w) (s.advance c) l (by simp [ho])
  simpa [ho] using this

/-- One word without flags. -/
theorem givesWord_perWord {mk : Operands → Instr} {f : Operands → Sources → Word} (g : Env → State → Nat → Word)
    (he : ∀ o s, exec (mk o) s = issue (mk o) s (fun e s => s.perWord e (g e s)))
    (ho : ∀ o, (mk o).operands = o)
    (hR : ∀ (s : State) (o : Operands) (c : Cur) (w : Warp) (l : Nat), g (s.env (mk o) c w) (s.advance c) l = f o (s.sources o c w l)) :
    GivesWord mk f :=
  gives_perLane (fun e s l => ([g e s l], 0)) he (fun _ _ _ _ => Nat.le_refl _) ho
    (fun s o c w _ l _ => ⟨by rw [hR], rfl⟩)

/-- One word with flags, from the operand words. -/
theorem givesRel_perLane {mk : Operands → Instr} {R : Operands → Sources → Word → BitVec 6 → Prop}
    (g : Operands → Sources → Word × BitVec 6)
    (he : ∀ o s, exec (mk o) s = issue (mk o) s (fun e s => s.perLane e (fun l =>
      let r := g e.o ⟨e.a s l, e.b s l, e.cc s l, e.d s l⟩
      ([r.1], r.2))))
    (ho : ∀ o, (mk o).operands = o)
    (hR : ∀ o x, R o x (g o x).1 (g o x).2) : GivesRel mk R :=
  gives_perLane (fun e s l => ([(g e.o ⟨e.a s l, e.b s l, e.cc s l, e.d s l⟩).1], (g e.o ⟨e.a s l, e.b s l, e.cc s l, e.d s l⟩).2)) he
    (fun _ _ _ _ => Nat.le_refl _) ho (fun s o c w _ l _ => ⟨_, rfl, by
      simp only [Env.a_advance, Env.b_advance, Env.cc_advance, Env.d_advance, ho, State.env_o]
      exact hR o (s.sources o c w l)⟩)

end Sys2Proof.Machine
end

