-- ==== Sys2Proof/Tests/Demo.lean ====
section
/-! SUPPORT. A small state for the tests: one context with a window of 64 KiB, a launch, a block of one warp, and an
instruction about to issue in lanes 0 and 5; and a test that such an issue has no issue trap. -/

namespace Sys2Proof.Tests

open Sys2Proof Sys2Proof.Machine

/-- Bytes at addresses, as a memory. -/
def memOf (xs : List (Nat × List Byte)) : Memory := xs.foldl (fun m x => m.writeBytes x.1 x.2) []

/-- Fields of n bytes each, joined. -/
def fields (xs : List (Nat × Nat)) : List Byte := xs.flatMap (fun x => natToBytes x.1 x.2)

/-- Registers as a list of cells. -/
def regsOf (xs : List (Nat × Word)) : Cells 32 := xs.foldl (fun m x => m.set x.1 x.2) []

/-- A lane of the demonstration warp. -/
def lane0 : Lane := { pc := 64, regs := regsOf [(1, 5), (2, 0xFFFFFFF9), (3, 0x100), (4, 0x3F800000), (5, 0x7FC00000)] }

/-- Context 1: a window of 64 KiB from byte 0 on die 0, a spill area behind it, a handler entry. -/
def ctx0 : Context :=
  let half : CtxDie := { spl := 0x10000, csab := 0x8000, csal := 0x4000, dqb := List.replicate 32 0, dql := List.replicate 32 0 }
  { id := 1, ctxId := 1, dies := [half, half], trapv := 0x800 }

def block0 : Block :=
  { bid := 5, launch := 3, ctx := 1, sharedSize := 1024, wbSize := 1024, holdsMxq := true, mxqs := List.replicate 4 {}
    barriers := List.replicate 16 {}, rings := List.replicate 8 {} }

def launch0 : Launch := { lid := 3, kind := .queue 0 0, ctx := 1, die := 0, lrec := {}, phase := .started }

/-- The demonstration warp: 32 runnable lanes at PC 64, 640 registers. -/
def warp0 : Warp :=
  { wid := 7, ctx := 1, launch := 3, block := some 5, footprint := 640, image := { regs := 640, nlive := 1, live := [15] }
    segment := 0x8000, lanes := List.replicate 32 lane0 }

def cur0 : Cur := { wid := 7, lanes := [0, 5], pc := 64, half := 0, idx := 0, count := 1, nextPc := 72, nextHalf := 0 }

/-- Die 0's rendering units belong to context 1. -/
def demo : State :=
  { State.reset with
    ctxs := [ctx0], launches := [launch0], blocks := [block0], warps := [warp0], cur := some cur0, nextId := 100
    dies := State.reset.dies.modify 0 (fun d => { d with render := { d.render with ownerV := true, ownerCtx := 1 } }) }

/-- The demonstration state with another warp and memories. -/
def with_ (w : Warp) (spad shared wb : List (Nat × List Byte)) : State :=
  { demo with warps := [w], blocks := [{ block0 with shared := memOf shared, wb := memOf wb }]
              dies := demo.dies.modify 0 (fun d => { d with spad := memOf spad }) }

/-- The conditions of Issuing on the state alone, as a test. -/
def readyB (s : State) (c : Cur) (w : Warp) : Bool :=
  decide (s.cur = some c) && decide ((s.warp? c.wid).map (·.readBy c) = some w) && w.lanes.length == 32 && decide (w.die < s.dies.length) &&
    !c.lanes.isEmpty && decide (c.lanes.Pairwise (· < ·)) && c.lanes.all (fun l => decide ((w.lane l).st = .runnable))

/-- Those on the instruction, for several. -/
def cleanB (s : State) (is : List Instr) (c : Cur) (w : Warp) : Bool :=
  is.all (fun i => s.issueTrap w i == 0 && s.namesHeld w (activeLanes s i c w) i == [])

theorem issuing_all {s : State} {is : List Instr} {c : Cur} {w : Warp} (h : readyB s c w = true) (g : cleanB s is c w = true) :
    ∀ i ∈ is, Issuing s i c w := by
  simp only [readyB, Bool.and_eq_true, decide_eq_true_eq, beq_iff_eq, Bool.not_eq_true', List.all_eq_true,
    List.isEmpty_eq_false_iff] at h
  obtain ⟨⟨⟨⟨⟨⟨h1, h2⟩, h3⟩, h4⟩, h5⟩, h6⟩, h7⟩ := h
  intro i hi
  have k := List.all_eq_true.mp g i hi
  simp only [Bool.and_eq_true, beq_iff_eq] at k
  exact ⟨h1, h2, h3, h4, h5, h6, h7, k.1, k.2⟩

theorem issuing_of {s : State} {i : Instr} {c : Cur} {w : Warp} (h : readyB s c w = true) (g : cleanB s [i] c w = true) :
    Issuing s i c w := issuing_all h g i (List.mem_singleton.mpr rfl)

/-- Fields of an F form. -/
def fo (d a b : Operand) (m : Nat) : Operands := ⟨.f, d, a, b, .always, m, none, none⟩
/-- Fields of an F form with LS, TO, COL and XM. -/
def fx (d a b : Operand) (m ls tmo col xm : Nat) : Operands := ⟨.f, d, a, b, .always, m, none, some ⟨ls, tmo, col, xm⟩⟩
/-- Fields of an X form. -/
def xo (d a : Operand) (imm : Word) (m : Nat) : Operands := ⟨.x, d, a, .imm imm, .always, m, none, none⟩
/-- Fields of an H form. -/
def ho (d a b : Operand) (m : Nat) : Operands := ⟨.h, d, a, b, .always, m, none, none⟩
/-- A register. -/
def v (n : Nat) : Operand := .reg n

end Sys2Proof.Tests
end

