-- ==== Sys2Proof/Tests/Effects.lean ====
section
/-! SUPPORT. One instruction at a time on a small state, against the results that the worked examples of the spec give;
the instructions are decoded from the words the examples print where they print one. -/

namespace Sys2Proof.Tests

set_option Elab.async false

open Sys2Proof Sys2Proof.Machine

/-- Registers of lane l in a state of 32 lanes. -/
def lanesOf (f : Nat → List (Nat × Word)) : List Lane :=
  (List.range 32).map (fun l => { pc := 64, regs := regsOf (f l) })

/-- A state of the demonstration warp: registers by lane, issuing lanes, scratchpad, shared memory. -/
def stateOf (f : Nat → List (Nat × Word)) (ls : List Nat) (spad shared : List (Nat × List Byte)) : State :=
  { with_ { warp0 with lanes := lanesOf f } spad shared [] with cur := some { cur0 with lanes := ls } }

/-- What follows the instruction that the words stand for. -/
def after (ws : List Nat) (s : State) : State :=
  match decodeWords ws with
  | .one i _ => match exec i s with
    | .next t => t
    | _ => State.reset
  | _ => State.reset

/-- Registers of a lane of the demonstration warp, and its FPX. -/
def regs_ (t : State) (l : Nat) (rs : List Nat) : List Word := rs.map (t.regAt 7 l)
def word_ (n : Nat) : List Byte := natToBytes 4 n

/-- 01, the example after R21: @!v12.3 iadd v5, v5, -7. -/
theorem test_iadd_predicated :
    let t := after [0x0800_280B_9C81_9180] (stateOf (fun l => [(5, 2), (12, if l = 0 then 4 else 12)]) [0, 1] [] [])
    regs_ t 0 [5] = [0xFFFFFFFB] ∧ regs_ t 1 [5] = [2] := by decide +kernel

/-- 02, the example after Table 2.4: 464.0 and 465.0 to E4M3, not saturating (element 0, .rn). NX is bit 4, OF bit 2. -/
theorem test_cvt_e4m3_rn :
    let t := after [0x2860_8014_05D1_0000] (stateOf (fun l => [(10, if l = 0 then 0x43E80000 else 0x43E88000)]) [0, 1] [] [])
    (regs_ t 0 [16], regs_ t 1 [16]) = ([0x7E], [0x7F]) := by decide +kernel

/-- 02, the example after R52: lane 1 converts 1.0625 to E4M3 with .sr; the byte (and 0 of v11 in the next byte). -/
theorem test_cvt_e4m3_sr :
    let s := stateOf (fun _ => [(8, 0x3F880000)]) [1] [] []
    let s' := s.modWarp 7 (fun w => { w with lanes := w.lanes.map (fun x => { x with gen := 0xBB728D28 }) })
    let t := match exec (.cvtE4m3 (fo (v 16) (v 8) (v 11) 5)) s' with
      | .next t => t
      | _ => State.reset
    regs_ t 1 [16] = [0x39] := by decide +kernel

/-- 04, the example of R104: va.add of 32 and of -32. -/
theorem test_va_add :
    let f := fun (_ : Nat) => [(20, (0xFFFFFFF0 : Word)), (21, 0xFFFFFFFF), (22, 0xABCD0000)]
    let go := fun (b : Operand) => match exec (.vaAdd (fo (v 30) (v 20) b 0)) (stateOf f [0] [] []) with
      | .next t => t
      | _ => State.reset
    regs_ (go (.inl 32)) 0 [30, 31, 32] = [0x10, 0, 1] ∧ regs_ (go (.inl (-32))) 0 [30, 31, 32] = [0xFFFFFFD0, 0xFFFFFFFF, 0] := by
  decide +kernel

/-- 04, the example of R112: fma.f32.rup, whose FPX is NX alone, and fmul.f32.rup. -/
theorem test_fma_rup :
    let t := after [0xE100_0000_0000_0009, 0x2060_2002_0151_000C]
      (stateOf (fun _ => [(1, 0x3F800001), (2, 0x3F800001), (9, 0xBF800000)]) [0] [] [])
    regs_ t 0 [4] = [0x34800001] ∧ t.fpxAt 7 0 = 0x10 := by decide +kernel

/-- 04, the example of R135: csr.wr FPX, %zero clears the lane's flags. -/
theorem test_csr_wr_fpx :
    let s := (stateOf (fun _ => []) [0] [] []).modWarp 7 (fun w => { w with lanes := w.lanes.map (fun x => { x with fpx := 0x1F }) })
    (after [0x0180_0001_4351_0002] s).fpxAt 7 0 = 0 := by decide +kernel

/-- 05, the example of R147: the factors, permutation and status of [1 2; 3 4]. -/
theorem test_smx_lu :
    let t := match exec (.smxLu (xo (v 20) (v 10) (BitVec.ofNat 32 (31 * 2 ^ 19 + 2 * 2 ^ 13 + 2 * 2 ^ 10 + 30)) 0))
        (stateOf (fun _ => [(10, 0x3F800000), (11, 0x40000000), (12, 0x40400000), (13, 0x40800000)]) [0] [] []) with
      | .next t => t
      | _ => State.reset
    regs_ t 0 [20, 21, 22, 23, 30, 31] = [0x40400000, 0x40800000, 0x3EAAAAAB, 0x3F2AAAAA, 1, 0] ∧ t.fpxAt 7 0 = 0x10 := by
  decide +kernel

/-- The values of Table 8.5. -/
def scanWord (l : Nat) : Word :=
  [0x4B800000, 0x3F800000, 0x3F800000, 0x42C80000, 0xCB800000, 0x3F800000, 0x3F000000, 0x3E800000].getD l 0

/-- 08, Table 8.5: a scan over a partial tile; lane 3 is silent. -/
theorem test_scan_add :
    let s := (stateOf (fun l => [(1, if l = 3 then 0 else 1), (10, scanWord l), (20, 7)]) (List.range 8) [] []).modWarp 7
      (fun w => { w with part := 3 })
    let t := after [0x40E0_A000_0500_2001] s
    (List.range 8).map (fun l => t.regAt 7 l 20) =
      [0x4B800000, 0x4B800000, 0x4B800000, 7, 0, 0x3F800000, 0x3FC00000, 0x3FE00000] ∧
    (List.range 8).map (fun l => decide (t.fpxAt 7 l = 0)) = [true, false, false, true, false, false, false, false] := by
  decide +kernel

/-- 08, Table 8.6: match.f32 of lanes 8 to 14 in tiles of eight. -/
theorem test_match_f32 :
    let key := fun (l : Nat) => ([0, 0x80000000, 0x7FC00000, 0x7F800001, 0x3F800000, 0x3F800000, 0x3F800001] : List Word).getD (l - 8) 0
    let s := (stateOf (fun l => [(11, key l)]) [8, 9, 10, 11, 12, 13, 14] [] []).modWarp 7 (fun w => { w with part := 3 })
    let t := match exec (.matchKeys (fo (v 22) (v 0) (v 11) 1)) s with
      | .next t => t
      | _ => State.reset
    [8, 9, 10, 11, 12, 13, 14].map (fun l => t.regAt 7 l 22) = [0x300, 0x300, 0xC00, 0xC00, 0x3000, 0x3000, 0x4000] := by
  decide +kernel

/-- 10, the example of R250: dig.fold %zero, %true in lane 0 of a warp whose digest is 0. -/
theorem test_dig_fold :
    let t := match exec (.digFold (fo (v 0) (.spc .zero) (.spc .true_) 0)) (stateOf (fun _ => []) [0] [] []) with
      | .next t => t
      | _ => State.reset
    (t.warp? 7).map (fun w => w.dig) = some 0xF0D72B48E1AE5692 := by decide +kernel

/-- 11, the example of R267: f32 additions of two lanes to one scratchpad word. -/
theorem test_atm_add_f32 :
    let t := after [0x4900_A00A_0351_0021] (stateOf (fun _ => [(6, 0x2000), (5, 0x3F800000)]) [0, 1] [(0x2000, word_ 0x4B800000)] [])
    regs_ t 0 [20] ++ regs_ t 1 [20] = [0, 0] ∧ (t.die 0).spad = memOf [(0x2000, word_ 0x4B800001)] := by decide +kernel

/-- 11, the example of R267: groups of lanes 0, 1, 3 on one shared word and lane 2 on another. -/
theorem test_atm_add_groups :
    let t := match exec (.atm (fo (v 20) (v 5) (v 6) 0))
        (stateOf (fun l => [(6, if l = 2 then 0x20 else 0x10), (5, [1, 2, 3, 4].getD l 0)]) [0, 1, 2, 3] [] [(0x10, word_ 10), (0x20, word_ 100)]) with
      | .next t => t
      | _ => State.reset
    (t.block? 5).map (fun b => b.shared) = some (memOf [(0x10, word_ 17), (0x20, word_ 103)]) := by decide +kernel

/-- 11, Table 11.6: ld.sh v12, v3 of a shared word. -/
theorem test_ld_sh :
    let t := after [0x4800_6000_01D1_0000] (stateOf (fun _ => [(3, 0x100)]) [0] [] [(0x100, [0x78, 0x56, 0x34, 0x12])])
    regs_ t 0 [12] = [0x12345678] := by decide +kernel

/-- 22, the word of st.sp v2, %lane: lane 5 stores 5 at the offset in v2. -/
theorem test_st_sp :
    let t := after [0x4860_0500_0151_0000] (stateOf (fun _ => [(2, 0x80)]) [5] [] [])
    (t.die 0).spad = memOf [(0x80, word_ 5)] := by decide +kernel

/-- 00, the example of R10: mm.go in a warp of role V whose D field holds 700 has trap 0x03, not 0x06. -/
theorem test_issue_trap_order :
    demo.issueTrap { warp0 with role := .v } (.mmGo (fo (.resv 700) (v 0) (v 3) 0)) = 3 := by decide +kernel

end Sys2Proof.Tests
end

