-- ==== Sys2Proof/Tests/Slice0.lean ====
section
/-! SUPPORT. Tests of decoding and encoding: a word of every constructor written from the spec's tables, the words the spec
works out, words the spec refuses, and a smoke test of each check of well-formedness. -/

namespace Sys2Proof.Tests

set_option Elab.async false

open Sys2Proof Sys2Proof.Machine

/-- Words of the control instructions, from Tables 3.2, 3.3 and 3.9. -/
def words_control : List (List Nat × Instr) :=
  [([0x0000000000510000], .nop (fo (v 0) (v 0) (v 0) 0)),
   ([0xC008000051000000, 0x8], .br (xo (v 0) (v 0) 0x8 0)),
   ([0x0040000001D10000], .brx (fo (v 0) (v 0) (v 3) 0)),
   ([0xC018000051000000, 0x8], .call (xo (v 0) (v 0) 0x8 0)),
   ([0x0080000001D10000], .callx (fo (v 0) (v 0) (v 3) 0)),
   ([0x00A0000000510000], .ret (fo (v 0) (v 0) (v 0) 0)),
   ([0x00C0000000510000], .exit (fo (v 0) (v 0) (v 0) 0)),
   ([0x00E0000000510000], .join (fo (v 0) (v 0) (v 0) 0)),
   ([0x0100000000510000], .yield (fo (v 0) (v 0) (v 0) 0)),
   ([0x0120000001D10000], .trap (fo (v 0) (v 0) (v 3) 0)),
   ([0x0140000000510000], .brk (fo (v 0) (v 0) (v 0) 0)),
   ([0x0163200000510000], .csrRd (fo (v 100) (v 0) (v 0) 0)),
   ([0x0180000001D10000], .csrWr (fo (v 0) (v 0) (v 3) 0)),
   ([0x01A0000001D10000], .csrSet (fo (v 0) (v 0) (v 3) 0)),
   ([0x01C0000001D10000], .csrClr (fo (v 0) (v 0) (v 3) 0)),
   ([0x01E3200000510000], .clkRd (fo (v 100) (v 0) (v 0) 0)),
   ([0x0200005001D10000], .digFold (fo (v 0) (v 40) (v 3) 0)),
   ([0x0223200000510000], .pcRd (fo (v 100) (v 0) (v 0) 0)),
   ([0x0243200001D10000], .hdlResume (fo (v 100) (v 0) (v 3) 0)),
   ([0x0263200001D10000], .hdlKill (fo (v 100) (v 0) (v 3) 0)),
   ([0x0283200001D10000], .hdlEsc (fo (v 100) (v 0) (v 3) 0))]

theorem test_decode_control : ∀ x ∈ words_control, decodeWords x.1 = .one x.2 x.1.length ∧ encode x.2 = x.1 := by
  decide +kernel

/-- Words of the integer instructions, from Tables 3.2, 3.3 and 3.9. -/
def words_integer : List (List Nat × Instr) :=
  [([0x0803205001D10000], .iadd (fo (v 100) (v 40) (v 3) 0)),
   ([0x0823205001D10000], .isub (fo (v 100) (v 40) (v 3) 0)),
   ([0x0843205001D10000], .imul (fo (v 100) (v 40) (v 3) 0)),
   ([0x0863205001D10000], .imulh (fo (v 100) (v 40) (v 3) 0)),
   ([0x0883205001D10000], .imad (fo (v 100) (v 40) (v 3) 0)),
   ([0x08A3205001D10000], .imadw (fo (v 100) (v 40) (v 3) 0)),
   ([0x08C3205001D10000], .iaddx (fo (v 100) (v 40) (v 3) 0)),
   ([0x08E3205001D10000], .idiv (fo (v 100) (v 40) (v 3) 0)),
   ([0x0903205001D10000], .irem (fo (v 100) (v 40) (v 3) 0)),
   ([0x0923200001D10000], .iabs (fo (v 100) (v 0) (v 3) 0)),
   ([0x0943205001D10000], .imin (fo (v 100) (v 40) (v 3) 0)),
   ([0x0963205001D10000], .imax (fo (v 100) (v 40) (v 3) 0)),
   ([0x0983205001D10000], .sel (fo (v 100) (v 40) (v 3) 0)),
   ([0x09A3200001D10000], .mov (fo (v 100) (v 0) (v 3) 0)),
   ([0x09C3205001D10000], .icmp (fo (v 100) (v 40) (v 3) 0)),
   ([0x0A03205001D10000], .and (fo (v 100) (v 40) (v 3) 0)),
   ([0x0A23205001D10000], .or (fo (v 100) (v 40) (v 3) 0)),
   ([0x0A43205001D10000], .xor (fo (v 100) (v 40) (v 3) 0)),
   ([0x0A63205001D10000], .andn (fo (v 100) (v 40) (v 3) 0)),
   ([0x0A83205001D10000], .orn (fo (v 100) (v 40) (v 3) 0)),
   ([0x0AA3205001D10000], .lgc3 (fo (v 100) (v 40) (v 3) 0)),
   ([0x0B03205001D10000], .shl (fo (v 100) (v 40) (v 3) 0)),
   ([0x0B23205001D10000], .shr (fo (v 100) (v 40) (v 3) 0)),
   ([0x0B43205001D10000], .sar (fo (v 100) (v 40) (v 3) 0)),
   ([0x0B63205001D10000], .rol (fo (v 100) (v 40) (v 3) 0)),
   ([0x0B83205001D10000], .ror (fo (v 100) (v 40) (v 3) 0)),
   ([0x0BA3205001D10000], .fsh (fo (v 100) (v 40) (v 3) 0)),
   ([0x0C03205001D10000], .bfx (fo (v 100) (v 40) (v 3) 0)),
   ([0x0C23205001D10000], .bfi (fo (v 100) (v 40) (v 3) 0)),
   ([0x0C43200001D10000], .popc (fo (v 100) (v 0) (v 3) 0)),
   ([0x0C63200001D10000], .clz (fo (v 100) (v 0) (v 3) 0)),
   ([0x0C83200001D10000], .brev (fo (v 100) (v 0) (v 3) 0)),
   ([0x0CA3205001D10000], .bset (fo (v 100) (v 40) (v 3) 0)),
   ([0x0CC3205001D10000], .bclr (fo (v 100) (v 40) (v 3) 0)),
   ([0x0E03205001D10000], .vaAdd (fo (v 100) (v 40) (v 3) 0)),
   ([0x0E23205001D10000], .vaSub (fo (v 100) (v 40) (v 3) 0)),
   ([0x0E43205001D10000], .vaCmp (fo (v 100) (v 40) (v 3) 0)),
   ([0x0E63200001D10000], .vaMov (fo (v 100) (v 0) (v 3) 0))]

theorem test_decode_integer : ∀ x ∈ words_integer, decodeWords x.1 = .one x.2 x.1.length ∧ encode x.2 = x.1 := by
  decide +kernel

/-- Words of the float instructions, from Tables 3.2, 3.3 and 3.9. -/
def words_float : List (List Nat × Instr) :=
  [([0x2003205001D10000], .fadd (fo (v 100) (v 40) (v 3) 0)),
   ([0x2023205001D10000], .fsub (fo (v 100) (v 40) (v 3) 0)),
   ([0x2043205001D10000], .fmul (fo (v 100) (v 40) (v 3) 0)),
   ([0x2063205001D10000], .fma (fo (v 100) (v 40) (v 3) 0)),
   ([0x2083205001D10000], .fms (fo (v 100) (v 40) (v 3) 0)),
   ([0x20A3205001D10000], .fnma (fo (v 100) (v 40) (v 3) 0)),
   ([0x20C3205001D10000], .fmin (fo (v 100) (v 40) (v 3) 0)),
   ([0x20E3205001D10000], .fmax (fo (v 100) (v 40) (v 3) 0)),
   ([0x2103205001D10000], .fcmp (fo (v 100) (v 40) (v 3) 0)),
   ([0x2123205001D10000], .fcmpAx (fo (v 100) (v 40) (v 3) 0)),
   ([0x2143200001D10000], .fclass (fo (v 100) (v 0) (v 3) 0)),
   ([0x2163200001D10000], .fmov (fo (v 100) (v 0) (v 3) 0)),
   ([0x2183200001D10000], .frnd (fo (v 100) (v 0) (v 3) 0)),
   ([0x21A3205001D10000], .fscale (fo (v 100) (v 40) (v 3) 0)),
   ([0x21C3200001D10000], .fgetx (fo (v 100) (v 0) (v 3) 0)),
   ([0x21E3205001D10001], .fdot2 (fo (v 100) (v 40) (v 3) 1)),
   ([0x2203205001D10000], .fclamp (fo (v 100) (v 40) (v 3) 0)),
   ([0x2223205001D10000], .fminmag (fo (v 100) (v 40) (v 3) 0)),
   ([0x2243205001D10000], .fmaxmag (fo (v 100) (v 40) (v 3) 0)),
   ([0x2263200001D10000], .ffrac (fo (v 100) (v 0) (v 3) 0))]

theorem test_decode_float : ∀ x ∈ words_float, decodeWords x.1 = .one x.2 x.1.length ∧ encode x.2 = x.1 := by
  decide +kernel

/-- Words of the conversion instructions, from Tables 3.2, 3.3 and 3.9. -/
def words_conversion : List (List Nat × Instr) :=
  [([0x2803200001D10010], .cvtF32 (fo (v 100) (v 0) (v 3) 16)),
   ([0x2823205001D10001], .cvtF16 (fo (v 100) (v 40) (v 3) 1)),
   ([0x2843205001D10001], .cvtBf16 (fo (v 100) (v 40) (v 3) 1)),
   ([0x2863205001D10001], .cvtE4m3 (fo (v 100) (v 40) (v 3) 1)),
   ([0x2883205001D10001], .cvtE5m2 (fo (v 100) (v 40) (v 3) 1)),
   ([0x28A3205001D10001], .cvtE2m1 (fo (v 100) (v 40) (v 3) 1)),
   ([0x28C3200001D10000], .cvtInt (fo (v 100) (v 0) (v 3) 0)),
   ([0x28E3205001D10000], .cvtRgb (fo (v 100) (v 40) (v 3) 0)),
   ([0x2903205000510000], .cvtMxf4 (fo (v 100) (v 40) (v 0) 0)),
   ([0x2923205000510000], .cvtMxi8 (fo (v 100) (v 40) (v 0) 0)),
   ([0x2943205000510000], .cvtMxi4 (fo (v 100) (v 40) (v 0) 0)),
   ([0x2963200001D10000], .cvtUnrgb (fo (v 100) (v 0) (v 3) 0)),
   ([0x2983205001D10000], .cvtUnmx (fo (v 100) (v 40) (v 3) 0))]

theorem test_decode_conversion : ∀ x ∈ words_conversion, decodeWords x.1 = .one x.2 x.1.length ∧ encode x.2 = x.1 := by
  decide +kernel

/-- Words of the special function instructions, from Tables 3.2, 3.3 and 3.9. -/
def words_special_function : List (List Nat × Instr) :=
  [([0x3803200001D10000], .rcp (fo (v 100) (v 0) (v 3) 0)),
   ([0x3823200001D10000], .rsqrt (fo (v 100) (v 0) (v 3) 0)),
   ([0x3843200001D10000], .sqrt (fo (v 100) (v 0) (v 3) 0)),
   ([0x3863200001D10000], .exp2 (fo (v 100) (v 0) (v 3) 0)),
   ([0x3883200001D10000], .log2 (fo (v 100) (v 0) (v 3) 0)),
   ([0x38A3200001D10000], .sin (fo (v 100) (v 0) (v 3) 0)),
   ([0x38C3200001D10000], .cos (fo (v 100) (v 0) (v 3) 0)),
   ([0x38E3200001D10000], .tanh (fo (v 100) (v 0) (v 3) 0)),
   ([0x3903205001D10000], .fdiv (fo (v 100) (v 40) (v 3) 0)),
   ([0x3923200001D10000], .sigm (fo (v 100) (v 0) (v 3) 0))]

theorem test_decode_special_function : ∀ x ∈ words_special_function, decodeWords x.1 = .one x.2 x.1.length ∧ encode x.2 = x.1 := by
  decide +kernel

/-- Words of the small matrix instructions, from Tables 3.2, 3.3 and 3.9. -/
def words_small_matrix : List (List Nat × Instr) :=
  [([0xCF00C81451000000, 0x26814], .smxMul (xo (v 100) (v 40) 0x26814 0)),
   ([0xCF08C81451000000, 0xC26814], .smxMad (xo (v 100) (v 40) 0xC26814 0)),
   ([0xCF10C81451000000, 0x6814], .smxAdd (xo (v 100) (v 40) 0x6814 0)),
   ([0xCF18C81451000000, 0x6814], .smxScl (xo (v 100) (v 40) 0x6814 0)),
   ([0xCF20C81451000000, 0x6800], .smxTr (xo (v 100) (v 40) 0x6800 0)),
   ([0xCF28C81451000000, 0x4800], .smxSym (xo (v 100) (v 40) 0x4800 0)),
   ([0xCF30C80051000000, 0x6814], .smxId (xo (v 100) (v 0) 0x6814 0)),
   ([0xCF38C81451000000, 0xC04800], .smxChol (xo (v 100) (v 40) 0xC04800 0)),
   ([0xCF40C81451000000, 0xC04814], .smxLu (xo (v 100) (v 40) 0xC04814 0)),
   ([0xCF48C81451000000, 0x6814], .smxSol (xo (v 100) (v 40) 0x6814 0)),
   ([0xCF50C80051000000, 0x6814], .smxLdSh (xo (v 100) (v 0) 0x6814 0)),
   ([0xCF58001451000000, 0x6814], .smxStSh (xo (v 0) (v 40) 0x6814 0))]

theorem test_decode_small_matrix : ∀ x ∈ words_small_matrix, decodeWords x.1 = .one x.2 x.1.length ∧ encode x.2 = x.1 := by
  decide +kernel

/-- Words of the cross lane instructions, from Tables 3.2, 3.3 and 3.9. -/
def words_cross_lane : List (List Nat × Instr) :=
  [([0x4003200001D10000], .vote (fo (v 100) (v 0) (v 3) 0)),
   ([0x4023200000510000], .elect (fo (v 100) (v 0) (v 0) 0)),
   ([0x4043200001D10000], .bcast (fo (v 100) (v 0) (v 3) 0)),
   ([0x4063205001D10000], .shf (fo (v 100) (v 40) (v 3) 0)),
   ([0x4083205001D10000], .prm (fo (v 100) (v 40) (v 3) 0)),
   ([0x40A3200001D10000], .matchKeys (fo (v 100) (v 0) (v 3) 0)),
   ([0x40C3200001D10000], .red (fo (v 100) (v 0) (v 3) 0)),
   ([0x40E3200001D10000], .scan (fo (v 100) (v 0) (v 3) 0)),
   ([0x4103205001D10000], .sscan (fo (v 100) (v 40) (v 3) 0)),
   ([0x4123200001D10000], .rank (fo (v 100) (v 0) (v 3) 0)),
   ([0x4143205001D10000], .cmpct (fo (v 100) (v 40) (v 3) 0)),
   ([0x4163200001D10000], .part (fo (v 100) (v 0) (v 3) 0)),
   ([0x4183205001D10000], .lsel (fo (v 100) (v 40) (v 3) 0))]

theorem test_decode_cross_lane : ∀ x ∈ words_cross_lane, decodeWords x.1 = .one x.2 x.1.length ∧ encode x.2 = x.1 := by
  decide +kernel

/-- Words of the memory instructions, from Tables 3.2, 3.3 and 3.9. -/
def words_memory : List (List Nat × Instr) :=
  [([0x4803200001D10000], .ldSh (fo (v 100) (v 0) (v 3) 0)),
   ([0x4820005001D10000], .stSh (fo (v 0) (v 40) (v 3) 0)),
   ([0x4843200001D10000], .ldSp (fo (v 100) (v 0) (v 3) 0)),
   ([0x4860005001D10000], .stSp (fo (v 0) (v 40) (v 3) 0)),
   ([0x4883200001D10000], .ldmT (fo (v 100) (v 0) (v 3) 0)),
   ([0x48A3200001D10000], .ldPar (fo (v 100) (v 0) (v 3) 0)),
   ([0x48C0000001D10000], .prefSp (fo (v 0) (v 0) (v 3) 0)),
   ([0x4903205001D10000], .atm (fo (v 100) (v 40) (v 3) 0)),
   ([0x4923205001D10000], .atmCas (fo (v 100) (v 40) (v 3) 0)),
   ([0x4940005000510000], .splPush (fo (v 0) (v 40) (v 0) 0)),
   ([0x4963200000510000], .splPop (fo (v 100) (v 0) (v 0) 0)),
   ([0x4983200001D10000], .splRd (fo (v 100) (v 0) (v 3) 0)),
   ([0x4A03205001D10000], .waitAddr (fo (v 100) (v 40) (v 3) 0)),
   ([0x4A23200001D10000], .fenceC (fo (v 100) (v 0) (v 3) 0)),
   ([0x4A43200001D10000], .barArv (fo (v 100) (v 0) (v 3) 0)),
   ([0x4A63200001D10000], .barWait (fo (v 100) (v 0) (v 3) 0)),
   ([0x4A83200001D10000], .barSync (fo (v 100) (v 0) (v 3) 0))]

theorem test_decode_memory : ∀ x ∈ words_memory, decodeWords x.1 = .one x.2 x.1.length ∧ encode x.2 = x.1 := by
  decide +kernel

/-- Words of the bulk copy instructions, from Tables 3.2, 3.3 and 3.9. -/
def words_bulk_copy : List (List Nat × Instr) :=
  [([0x5803200001D10000], .bcp (fo (v 100) (v 0) (v 3) 0)),
   ([0x5823200001D10000], .bcpWait (fo (v 100) (v 0) (v 3) 0)),
   ([0x5843200001D10000], .bcpSt (fo (v 100) (v 0) (v 3) 0)),
   ([0x5883205001D10000], .bbarInit (fo (v 100) (v 40) (v 3) 0)),
   ([0x58A3205001D10000], .bbarWait (fo (v 100) (v 40) (v 3) 0)),
   ([0x58C3205001D10000], .bbarAdd (fo (v 100) (v 40) (v 3) 0)),
   ([0x58E3200001D10000], .bbarRd (fo (v 100) (v 0) (v 3) 0))]

theorem test_decode_bulk_copy : ∀ x ∈ words_bulk_copy, decodeWords x.1 = .one x.2 x.1.length ∧ encode x.2 = x.1 := by
  decide +kernel

/-- Words of the queue ring task instructions, from Tables 3.2, 3.3 and 3.9. -/
def words_queue_ring_task : List (List Nat × Instr) :=
  [([0x5903200001D10000], .qInit (fo (v 100) (v 0) (v 3) 0)),
   ([0x5923205001D10000], .qPush (fo (v 100) (v 40) (v 3) 0)),
   ([0x5943200001D10000], .qPop (fo (v 100) (v 0) (v 3) 0)),
   ([0x5963200001D10000], .qLen (fo (v 100) (v 0) (v 3) 0)),
   ([0x5983205001D10000], .hngInit (fo (v 100) (v 40) (v 3) 0)),
   ([0x59A3205001D10000], .hngTake (fo (v 100) (v 40) (v 3) 0)),
   ([0x59C3200001D10000], .hngGive (fo (v 100) (v 0) (v 3) 0)),
   ([0x59E3200000510000], .hngRd (fo (v 100) (v 0) (v 0) 0)),
   ([0x5A03200001D10000], .spawn (fo (v 100) (v 0) (v 3) 0)),
   ([0x5A23200001D10000], .taskDone (fo (v 100) (v 0) (v 3) 0)),
   ([0x5A43205001D10000], .depArm (fo (v 100) (v 40) (v 3) 0)),
   ([0x5A63200001D10000], .depDec (fo (v 100) (v 0) (v 3) 0)),
   ([0x5A83200001D10000], .taskWait (fo (v 100) (v 0) (v 3) 0)),
   ([0x5AA3200001D10000], .taskSt (fo (v 100) (v 0) (v 3) 0)),
   ([0x5B03200001D10000], .dqPush (fo (v 100) (v 0) (v 3) 0)),
   ([0x5B23200000510000], .dqPop (fo (v 100) (v 0) (v 0) 0)),
   ([0x5B43200001D10000], .dqSteal (fo (v 100) (v 0) (v 3) 0))]

theorem test_decode_queue_ring_task : ∀ x ∈ words_queue_ring_task, decodeWords x.1 = .one x.2 x.1.length ∧ encode x.2 = x.1 := by
  decide +kernel

/-- Words of the matrix engine instructions, from Tables 3.2, 3.3 and 3.9. -/
def words_matrix_engine : List (List Nat × Instr) :=
  [([0x6003200001D10000], .mmGo (fo (v 100) (v 0) (v 3) 0)),
   ([0x6023200001D10000], .mmWait (fo (v 100) (v 0) (v 3) 0)),
   ([0x6043200001D10000], .mmSt (fo (v 100) (v 0) (v 3) 0)),
   ([0x6063200000510000], .mxqPop (fo (v 100) (v 0) (v 0) 0)),
   ([0x6083200000510000], .mxqLen (fo (v 100) (v 0) (v 0) 0)),
   ([0x60A0000000510000], .mxqRst (fo (v 0) (v 0) (v 0) 0)),
   ([0x60C3200001D10000], .wbLoad (fo (v 100) (v 0) (v 3) 0)),
   ([0x60E0005001D10000], .wbClr (fo (v 0) (v 40) (v 3) 0))]

theorem test_decode_matrix_engine : ∀ x ∈ words_matrix_engine, decodeWords x.1 = .one x.2 x.1.length ∧ encode x.2 = x.1 := by
  decide +kernel

/-- Words of the rendering instructions, from Tables 3.2, 3.3 and 3.9. -/
def words_rendering : List (List Nat × Instr) :=
  [([0x6803205001D10000], .spkPrio (fo (v 100) (v 40) (v 3) 0)),
   ([0x6823205001D10000], .spkMap (fo (v 100) (v 40) (v 3) 0)),
   ([0x6843200001D10000], .spkRd (fo (v 100) (v 0) (v 3) 0)),
   ([0x6863205001D10000], .sampEmit (fo (v 100) (v 40) (v 3) 0)),
   ([0x6883205001D10000], .sampGth (fo (v 100) (v 40) (v 3) 0)),
   ([0x68A3205001D10000], .trvInit (fo (v 100) (v 40) (v 3) 0)),
   ([0x68C3200001D10000], .trvStep (fo (v 100) (v 0) (v 3) 0)),
   ([0x68E3205000510000], .trvHit (fo (v 100) (v 40) (v 0) 0)),
   ([0x6903205001D10000], .prbStep (fo (v 100) (v 40) (v 3) 0)),
   ([0x6923205001D10000], .texSmp (fo (v 100) (v 40) (v 3) 0)),
   ([0x6943205001D10000], .texQry (fo (v 100) (v 40) (v 3) 0)),
   ([0x6963200001D10000], .truSort (fo (v 100) (v 0) (v 3) 0)),
   ([0x6980005001D10000], .rowPut (fo (v 0) (v 40) (v 3) 0)),
   ([0x69A3200001D10000], .rowAck (fo (v 100) (v 0) (v 3) 0))]

theorem test_decode_rendering : ∀ x ∈ words_rendering, decodeWords x.1 = .one x.2 x.1.length ∧ encode x.2 = x.1 := by
  decide +kernel

/-- Words of the combine unit instructions, from Tables 3.2, 3.3 and 3.9. -/
def words_combine_unit : List (List Nat × Instr) :=
  [([0x7003200001D10000], .cmbAlloc (fo (v 100) (v 0) (v 3) 0)),
   ([0x7020005001D10000], .cmbPut (fo (v 0) (v 40) (v 3) 0)),
   ([0x7043200001D10000], .cmbStat (fo (v 100) (v 0) (v 3) 0)),
   ([0x7063200001D10000], .cmbFree (fo (v 100) (v 0) (v 3) 0))]

theorem test_decode_combine_unit : ∀ x ∈ words_combine_unit, decodeWords x.1 = .one x.2 x.1.length ∧ encode x.2 = x.1 := by
  decide +kernel

/-- Words of the H instructions of Table 3.10 in half 0, nop in half 1 (Table 3.4). -/
def words_pairs : List (Nat × Instr) :=
  [(0x8004804027000000, .mov (ho (v 9) (v 0) (v 2) 0)),
   (0x8084804027000000, .iadd (ho (v 9) (v 9) (v 2) 0)),
   (0x8104804027000000, .isub (ho (v 9) (v 9) (v 2) 0)),
   (0x8184804027000000, .imul (ho (v 9) (v 9) (v 2) 0)),
   (0x8204804027000000, .imin (ho (v 9) (v 9) (v 2) 0)),
   (0x8284804027000000, .imax (ho (v 9) (v 9) (v 2) 0)),
   (0x8304804027000000, .and (ho (v 9) (v 9) (v 2) 0)),
   (0x8384804027000000, .or (ho (v 9) (v 9) (v 2) 0)),
   (0x8404804027000000, .xor (ho (v 9) (v 9) (v 2) 0)),
   (0x8484804027000000, .andn (ho (v 9) (v 9) (v 2) 0)),
   (0x8504804027000000, .orn (ho (v 9) (v 9) (v 2) 0)),
   (0x8584804027000000, .shl (ho (v 9) (v 9) (v 2) 0)),
   (0x8604804027000000, .shr (ho (v 9) (v 9) (v 2) 0)),
   (0x8684804027000000, .sar (ho (v 9) (v 9) (v 2) 0)),
   (0x8704804027000000, .rol (ho (v 9) (v 9) (v 2) 0)),
   (0x8784804027000000, .ror (ho (v 9) (v 9) (v 2) 0)),
   (0x8804804027000000, .popc (ho (v 9) (v 0) (v 2) 0)),
   (0x8884804027000000, .clz (ho (v 9) (v 0) (v 2) 0)),
   (0x8904804027000000, .brev (ho (v 9) (v 0) (v 2) 0)),
   (0x8984804027000000, .fadd (ho (v 9) (v 9) (v 2) 0)),
   (0x8A04804027000000, .fmul (ho (v 9) (v 9) (v 2) 0)),
   (0x8A84804027000000, .fsub (ho (v 9) (v 9) (v 2) 0)),
   (0x8B04804027000000, .fmin (ho (v 9) (v 9) (v 2) 0)),
   (0x8B84804027000000, .fmax (ho (v 9) (v 9) (v 2) 0)),
   (0x8C04804027000000, .fmov (ho (v 9) (v 0) (v 2) 0)),
   (0x8C84804827000000, .cvtF32 (ho (v 9) (v 0) (v 2) 16)),
   (0x8D04804027000000, .cvtF16 (ho (v 9) (v 9) (v 2) 0)),
   (0x8D84804027000000, .cvtBf16 (ho (v 9) (v 9) (v 2) 0)),
   (0x8E04804027000000, .rcp (ho (v 9) (v 0) (v 2) 0)),
   (0x8E84804027000000, .rsqrt (ho (v 9) (v 0) (v 2) 0)),
   (0x8F04804027000000, .sqrt (ho (v 9) (v 0) (v 2) 0)),
   (0x8F84804027000000, .exp2 (ho (v 9) (v 0) (v 2) 0)),
   (0x9004804027000000, .log2 (ho (v 9) (v 0) (v 2) 0)),
   (0x9084804027000000, .shf (ho (v 9) (v 9) (v 2) 0)),
   (0x9104804027000000, .prm (ho (v 9) (v 9) (v 2) 0)),
   (0x9184804027000000, .vote (ho (v 9) (v 0) (v 2) 0)),
   (0x9204804027000000, .bcast (ho (v 9) (v 0) (v 2) 0)),
   (0x9284804027000000, .ldSh (ho (v 9) (v 0) (v 2) 0)),
   (0x9304804027000000, .stSh (ho (v 0) (v 9) (v 2) 0)),
   (0x9380000027000000, .nop (ho (v 0) (v 0) (v 0) 0))]

theorem test_decode_pairs : ∀ x ∈ words_pairs, decodeWords [x.1] = .pair (some x.2) (some (.nop (ho (v 0) (v 0) (v 0) 0))) ∧
    encodePair x.2 (.nop (ho (v 0) (v 0) (v 0) 0)) = x.1 := by
  decide +kernel

/-- Fields of an F form under a predicate. -/
def fp (d a b : Operand) (m : Nat) (p : Pred) : Operands := ⟨.f, d, a, b, p, m, none, none⟩
/-- Fields of an F form after a repeat prefix. -/
def fr (d a b : Operand) (m count sd sa sb : Nat) : Operands := ⟨.f, d, a, b, .always, m, some ⟨count, sd, sa, sb⟩, none⟩

/-- The words that spec/03 to spec/08 work out. -/
def worked_words_1 : List (List Nat × Instr) :=
  [([0x0800280B9C819180], .iadd (fp (v 5) (v 5) (.inl (-7)) 0 ⟨v 12, true, 3⟩)),
   ([0xC2001401D1000000, 0x3E8], .iadd (xo (v 10) (v 3) 1000 0)),
   ([0x0000000000510000], .nop (fo (v 0) (v 0) (v 0) 0)),
   ([0xE00C900000000000, 0x0800200200D10000], .iadd (fr (v 4) (v 1) (v 1) 0 4 1 1 0)),
   ([0xE100000000000009, 0x206020020151000C], .fma (fx (v 4) (v 1) (v 2) 0x0C 0 0 0 9)),
   ([0x0180000143510002], .csrWr (fo (v 0) (v 0) (.spc .zero) 2)),
   ([0xCF38DC32D1000000, 0x206C00], .smxChol (xo (v 110) (v 101) 0x206C00 0)),
   ([0xCF48EE3700A00000, 0xCC53], .smxSol { xo (v 119) (v 110) 0xCC53 0 with pred := ⟨v 5, false, 0⟩ }),
   ([0x0180000143510004], .csrWr (fo (v 0) (v 0) (.spc .zero) 4)),
   ([0xC268100051000000, 0x3F880000], .mov (xo (v 8) (v 0) 0x3F880000 0)),
   ([0xE100000000000400, 0x2860801405D10001], .cvtE4m3 (fx (v 16) (v 10) (v 11) 1 0 0 0 0x400)),
   ([0x2880C81007D1000D], .cvtE5m2 (fo (v 25) (v 8) (v 15) 0x0D)),
   ([0x00E0000000510000], .join (fo (v 0) (v 0) (v 0) 0)),
   ([0x4A80400143510002], .barSync (fo (v 8) (v 0) (.spc .zero) 2))]

/-- Those of spec/10 to spec/14. -/
def worked_words_2 : List (List Nat × Instr) :=
  [([0x4880800001510001], .ldmT (fo (v 16) (v 0) (v 2) 1)),
   ([0x4900A00A03510021], .atm (fo (v 20) (v 5) (v 6) 0x21)),
   ([0x4A20F001A2510000], .fenceC (fo (v 30) (v 0) (.inl 4) 0)),
   ([0x4800600001D10000], .ldSh (fo (v 12) (v 0) (v 3) 0)),
   ([0xE100000000000100, 0x4841400001510005], .ldSp (fx (v 40) (v 0) (v 2) 5 0 0 0 0x100)),
   ([0x4A80A00143510000], .barSync (fo (v 20) (v 0) (.spc .zero) 0)),
   ([0x4880C0001C510001], .ldmT (fo (v 24) (v 0) (v 56) 1)),
   ([0xE00C420000000000, 0x4860003014510006], .stSp (fr (v 0) (v 24) (v 40) 6 4 0 4 1)),
   ([0xE100000000080000, 0x5801400001510000], .bcp (fx (v 40) (v 0) (v 2) 0 0 0 2 0)),
   ([0x5821500014510000], .bcpWait (fo (v 42) (v 0) (v 40) 0)),
   ([0x5880500A02510000], .bbarInit (fo (v 10) (v 5) (v 4) 0)),
   ([0x58A0601402510000], .bbarWait (fo (v 12) (v 10) (v 4) 0)),
   ([0xE100000000040000, 0x6000500001510000], .mmGo (fx (v 10) (v 0) (v 2) 0 0 0 1 0)),
   ([0x6020600005510000], .mmWait (fo (v 12) (v 0) (v 10) 0)),
   ([0x6060A00000510001], .mxqPop (fo (v 20) (v 0) (v 0) 1)),
   ([0x60C1400001D10000], .wbLoad (fo (v 40) (v 0) (v 3) 0))]

/-- Those of spec/15 to spec/22. -/
def worked_words_3 : List (List Nat × Instr) :=
  [([0x5A00500002510000], .spawn (fo (v 10) (v 0) (v 4) 0)),
   ([0x5A3430014D510000], .taskDone (fo (.spc .zero) (v 0) (.spc .tcb) 0)),
   ([0x5A60580002D10000], .depDec (fo (v 11) (v 0) (v 5) 0)),
   ([0x5920402801D10003], .qPush (fo (v 8) (v 20) (v 3) 3)),
   ([0x59A0600E03510001], .hngTake (fo (v 12) (v 7) (v 6) 1)),
   ([0x6800300FA1510000], .spkPrio (fo (v 6) (v 7) (.inl 2) 0)),
   ([0x6860A01001D10000], .sampEmit (fo (v 20) (v 8) (v 3) 0)),
   ([0x6881400A01510001], .sampGth (fo (v 40) (v 5) (v 2) 1)),
   ([0x6980003C06510000], .rowPut (fo (v 0) (v 30) (v 12) 0)),
   ([0x69A0480006510000], .rowAck (fo (v 9) (v 0) (v 12) 0)),
   ([0x6960480006510000], .truSort (fo (v 9) (v 0) (v 12) 0)),
   ([0x68A320500451002F], .trvInit (fo (v 100) (v 40) (v 8) 0x2F)),
   ([0x68C1E00032510000], .trvStep (fo (v 60) (v 0) (v 100) 0)),
   ([0x68E3207800510000], .trvHit (fo (v 100) (v 60) (v 0) 0)),
   ([0x6900F00003510000], .prbStep (fo (v 30) (v 0) (v 6) 0)),
   ([0x6920A02002D10000], .texSmp (fo (v 20) (v 16) (v 5) 0)),
   ([0x7000A00005510000], .cmbAlloc (fo (v 20) (v 0) (v 10) 0)),
   ([0x7020003C0A510000], .cmbPut (fo (v 0) (v 30) (v 20) 0)),
   ([0x7041F8000C510000], .cmbStat (fo (v 63) (v 0) (v 24) 0)),
   ([0x707430000A510000], .cmbFree (fo (.spc .zero) (v 0) (v 20) 0)),
   ([0xE034820000000000, 0x5A00800001510000], .spawn (fr (v 16) (v 0) (v 2) 0 14 1 0 1)),
   ([0x3901004006014024], .fdiv (fp (v 32) (v 32) (v 12) 0x24 ⟨v 10, false, 0⟩)),
   ([0x4062884202810000], .shf (fp (v 81) (v 33) (v 5) 0 ⟨v 8, false, 0⟩)),
   ([0x20A1084028814000], .fnma (fp (v 33) (v 32) (v 81) 0 ⟨v 10, false, 0⟩)),
   ([0xE100000004000000, 0x68C1400008510000], .trvStep (fx (v 40) (v 0) (v 16) 0 1 0 0 0)),
   ([0xC008000003670000, 6], .br { xo (v 0) (v 0) 6 0 with pred := ⟨v 27, false, 14⟩ }),
   ([0xC008000051000000, 0xFFFFFFF7], .br (xo (v 0) (v 0) 0xFFFFFFF7 0)),
   ([0x4A005511C0510000], .waitAddr (fo (v 10) (.spc .true_) (.inl 64) 0)),
   ([0x4860050001510000], .stSp (fo (v 0) (.spc .lane) (v 2) 0))]

theorem test_worked_words_1 : ∀ x ∈ worked_words_1, decodeWords x.1 = .one x.2 x.1.length ∧ encode x.2 = x.1 := by decide +kernel
theorem test_worked_words_2 : ∀ x ∈ worked_words_2, decodeWords x.1 = .one x.2 x.1.length ∧ encode x.2 = x.1 := by decide +kernel
theorem test_worked_words_3 : ∀ x ∈ worked_words_3, decodeWords x.1 = .one x.2 x.1.length ∧ encode x.2 = x.1 := by decide +kernel

/-- The pairs of spec/03 (0x0058), spec/20 (0x00C8, 0x00D0). -/
theorem test_worked_pairs :
    decodeWords [0x8084_8040_140C_01C0] = .pair (some (.iadd (ho (v 9) (v 9) (v 2) 0))) (some (.fmul (ho (v 12) (v 12) (v 7) 0))) ∧
    decodeWords [0x8002_0000_1809_A280] = .pair (some (.mov (ho (v 4) (v 0) (v 0) 0))) (some (.fmov (ho (v 9) (v 0) (.spc .fpone) 0))) ∧
    decodeWords [0x8002_8020_180B_D280] = .pair (some (.mov (ho (v 5) (v 0) (v 1) 0))) (some (.fmov (ho (v 11) (v 0) (.inl 10) 0))) := by
  decide +kernel

/-- Refusals of Table 3.6, each by its name: word kind, prefixes, extension, form, fields, opcode. -/
theorem test_refusals :
    decodeWords [0xF000000000000000] = .bad .reservedWord 0 ∧
    decodeWords [0xE200000000000000, 0x510000] = .bad .badPrefix 0 ∧
    decodeWords [0xE00C900000000001, 0x0800200200D10000] = .bad .badPrefix 0 ∧
    decodeWords [0xE100000100000000, 0x206020020151000C] = .bad .badPrefix 0 ∧
    decodeWords [0xE00C900000000000, 0x8084_8040_140C_01C0] = .bad .badPrefix 0 ∧
    decodeWords [0xC2001401D1000001, 0x3E8] = .bad .badExtension 0x040 ∧
    decodeWords [0xC2001401D1000000, 0x1_0000_03E8] = .bad .badExtension 0x040 ∧
    decodeWords [0x0020000000510000] = .bad .noSuchForm 0x001 ∧
    decodeWords [0x00E0000000510001] = .bad .unusedField 0x007 ∧
    decodeWords [0xE00C900000000000, 0x00E0000000510000] = .bad .unusedField 0x007 ∧
    decodeWords [0xE100000004000000, 0x0800200200D10000] = .bad .unusedField 0x040 ∧
    decodeWords [0x09E0000000510000] = .bad .unassignedOpcode 0x04F ∧
    decodeWords [0xC2001401D1000000] = .short := by
  decide +kernel

/-- Each check of well-formedness refuses a term: MOD, XM, an unused field, an unused extended modifier, a repeat of a
control instruction, fields out of range, a missing form, an immediate without an X form, and the rules of R66. -/
theorem test_ill_formed :
    [Instr.iadd (fo (v 1) (v 2) (v 3) 4), .iadd (fx (v 1) (v 2) (v 3) 0 0 0 0 1), .mov (fo (v 1) (v 2) (v 3) 0),
     .iadd (fx (v 1) (v 2) (v 3) 0 1 0 0 0), .iadd (fx (v 1) (v 2) (v 3) 0 0 1 0 0), .iadd (fx (v 1) (v 2) (v 3) 0 0 0 1 0),
     .join (fr (v 0) (v 0) (v 0) 0 2 0 0 0), .iadd (fo (v 640) (v 2) (v 3) 0), .iadd (fo (v 1) (.inl 128) (v 3) 0),
     .iadd (fo (v 1) (v 2) (.resv 640) 0), .iadd (fo (v 1) (v 2) (.imm 3) 0), .iadd { xo (v 1) (v 2) 3 0 with b := v 3 },
     .mov (fo (.imm 1) (v 0) (v 3) 0), .br (fo (v 0) (v 0) (v 3) 0), .nop (xo (v 0) (v 0) 3 0), .brx (xo (v 0) (v 0) 8 0),
     .iadd (fp (v 1) (v 2) (v 3) 0 ⟨v 4, false, 32⟩), .ldSh (fo (v 1) (v 0) (v 3) 7), .csrRd (fo (v 1) (v 0) (v 0) 128),
     .iadd (fr (v 1) (v 2) (v 3) 0 65 0 0 0), .iadd (fr (v 1) (v 2) (v 3) 0 0 0 0 0), .iadd (fr (v 1) (v 2) (v 3) 0 4 8 0 0),
     .ldSh (fx (v 1) (v 0) (v 3) 0 64 0 0 0), .barWait (fx (v 1) (v 0) (v 3) 0 0 32 0 0), .bcp (fx (v 1) (v 0) (v 3) 0 0 0 8 0),
     .imad (ho (v 1) (v 1) (v 3) 0), .iadd (ho (v 1) (v 2) (v 3) 0), .iadd (ho (v 256) (v 256) (v 3) 0),
     .iadd { ho (v 1) (v 1) (v 3) 0 with pred := ⟨v 4, false, 0⟩ }, .iadd { ho (v 1) (v 1) (v 3) 0 with rep := some ⟨2, 0, 0, 0⟩ },
     .smxTr (xo (v 100) (v 40) 0x24800 0), .smxTr (xo (v 100) (v 40) 0xF800 0), .warpBoost 1].all (fun i => !i.wellFormed) = true ∧
    (worked_words_1 ++ worked_words_2 ++ worked_words_3).all (fun x => x.2.wellFormed) = true ∧
    Instr.wellFormed (.iadd (ho (v 255) (v 255) (v 3) 0)) = true := by
  decide +kernel

end Sys2Proof.Tests
end

