-- ==== Sys2Proof/Tests/Witness.lean ====
section
/-! SUPPORT. For every statement of the certificates a concrete state and operands that meet its hypotheses together. -/

namespace Sys2Proof.Tests

set_option Elab.async false

open Sys2Proof Sys2Proof.Machine

/-- Operands d, a, b; d, b; d, a; d; a, b; b; none. -/
def dab : Operands := fo (v 100) (v 40) (v 3) 0
def db : Operands := fo (v 100) (v 0) (v 3) 0
def da : Operands := fo (v 100) (v 40) (v 0) 0
def dOnly : Operands := fo (v 100) (v 0) (v 0) 0
def ab : Operands := fo (v 0) (v 40) (v 3) 0
def bOnly : Operands := fo (v 0) (v 0) (v 3) 0
def none_ : Operands := fo (v 0) (v 0) (v 0) 0
/-- A shape of 2 by 3, K 2, B v20 and E v24 in a small-matrix immediate. -/
def smx3 (b k e : Nat) : Operands := xo (v 100) (v 40) (BitVec.ofNat 32 (e * 2 ^ 19 + k * 2 ^ 16 + 3 * 2 ^ 13 + 2 * 2 ^ 10 + b)) 0
def smx2 (b e : Nat) : Operands := xo (v 100) (v 40) (BitVec.ofNat 32 (e * 2 ^ 19 + 2 * 2 ^ 13 + 2 * 2 ^ 10 + b)) 0

theorem demo_ready : readyB demo cur0 warp0 = true := by decide +kernel

/-- The demonstration warp at supervisor level. -/
def warpH : Warp := { warp0 with kind := .handler, block := none, lanes := (warp0.lanes.set 0 { lane0 with pc := 64 }) }
def demoH : State := { demo with warps := [warpH], cur := some { cur0 with lanes := [0] } }
theorem demoH_ready : readyB demoH { cur0 with lanes := [0] } warpH = true := by decide +kernel

theorem test_premises_IntegerLogicResults : ∀ i ∈ [Instr.and dab, .or dab, .xor dab, .andn dab, .orn dab, .mov db,
    .sel (fx (v 100) (v 40) (v 3) 0 0 0 0 (31 * 2 ^ 10)), .bset dab, .bclr dab, .popc db, .clz db, .brev db, .imin dab, .imax dab,
    .icmp (fx (v 100) (v 40) (v 3) 0 0 0 0 31), .imulh dab], Issuing demo i cur0 warp0 :=
  issuing_all demo_ready (by decide +kernel)

theorem test_premises_ShiftsRotatesAndFields_lgc3 :
    Issuing demo (.lgc3 (fx (v 100) (v 40) (v 3) 0 0 0 0 (0xE8 * 2 ^ 10 + 9))) cur0 warp0 :=
  issuing_of demo_ready (by decide +kernel)

theorem test_premises_SaturatingArithmetic : ∀ i ∈ [Instr.iadd { dab with modBits := 2 }, .isub { dab with modBits := 3 }, .imul dab,
    .imad dab, .iabs { db with modBits := 2 }], Issuing demo i cur0 warp0 :=
  issuing_all demo_ready (by decide +kernel)

theorem test_premises_WideArithmeticAndDivision : ∀ i ∈ [Instr.imadw dab, .iaddx { dab with modBits := 4 }, .idiv dab, .irem dab],
    Issuing demo i cur0 warp0 :=
  issuing_all demo_ready (by decide +kernel)

theorem test_premises_ShiftsRotatesAndFields : ∀ i ∈ [Instr.shl dab, .shr dab, .sar dab, .rol dab, .ror dab,
    .fsh { dab with modBits := 1 }, .bfx { dab with modBits := 1 }, .bfi dab], Issuing demo i cur0 warp0 :=
  issuing_all demo_ready (by decide +kernel)

theorem test_premises_WideArithmeticAndDivision_triples : ∀ i ∈ [Instr.vaAdd dab, .vaSub dab, .vaMov db, .vaCmp dab], Issuing demo i cur0 warp0 :=
  issuing_all demo_ready (by decide +kernel)

theorem test_premises_FloatArithmeticResults : ∀ i ∈ [Instr.fadd dab, .fsub { dab with modBits := 1 }, .fmul { dab with modBits := 2 },
    .fma { dab with modBits := 12 }, .fms dab, .fnma dab, .fscale dab, .fdot2 { dab with modBits := 1 }], Issuing demo i cur0 warp0 :=
  issuing_all demo_ready (by decide +kernel)

/-- fscale of 1, 0, an infinity and a NaN; fdot2 of sums 2 and 0, of an infinity, of two opposite ones and of 0 times one. -/
theorem test_premises_FloatArithmeticResults_values :
    (∃ q, (fmtF32.decode 0x3F800000).rat = some q ∧ q ≠ 0) ∧ (fmtF32.decode 0).isZero = true ∧ (fmtF32.decode 0x7F800000).isInf = true ∧
    (∃ g, fmtF32.decode 0x7FC00000 = .nan g) ∧ fmtF16 ∈ [fmtF16, fmtBf16] ∧
    (∃ p q z, (fmtF16.decode 0x3C00).rat = some p ∧ (fmtF16.decode 0).rat = some q ∧ (fmtF32.decode 0x3F800000).rat = some z ∧
      p * p + q * q + z ≠ 0 ∧ q * q + q * q + q = 0) ∧
    ((fmtF16.decode 0x7C00).isInf = true ∧ (fmtF16.decode 0xFC00).isInf = true ∧ (fmtF16.decode 0x7C00).neg ≠ (fmtF16.decode 0xFC00).neg) ∧
    ((fmtF16.decode 0).isZero = true ∧ (fmtF16.decode 0x7D00).isSig = true) :=
  ⟨⟨_, rfl, by decide +kernel⟩, by decide +kernel, by decide +kernel, ⟨_, rfl⟩, by decide,
    ⟨_, _, _, rfl, rfl, rfl, by decide +kernel, by decide +kernel⟩, by decide +kernel, by decide +kernel⟩

theorem test_premises_RoundingIsCorrect : fmtE5m2 ∈ [fmtF32, fmtF16, fmtBf16, fmtE5m2] ∧ 3 < 4 ∧ (1 : Nat) ≠ 0 := by decide +kernel

theorem test_premises_ExactSumsAndNans : ∃ x y z, fmtF16 ∈ [fmtF32, fmtF16, fmtBf16] ∧ 3 < 4 ∧ (fmtF16.decode 1).rat = some x ∧
    (fmtF16.decode 0x7BFF).rat = some y ∧ (fmtF16.decode 0x8000).rat = some z ∧ (fmtF16.decode 0x7E00).isNan = true ∧
    mulInvalid (fmtF16.decode 1) (fmtF16.decode 0x7BFF) = false ∧ (fmtF16.decode 1).neg ≠ (fmtF16.decode 0x8001).neg :=
  ⟨_, _, _, by decide, by decide, rfl, rfl, rfl, by decide +kernel, by decide +kernel, by decide +kernel⟩

theorem test_premises_FloatSelectResults : (∀ i ∈ [Instr.fmin dab, .fmax dab, .fminmag dab, .fmaxmag dab, .fclamp dab, .fmov db],
    Issuing demo i cur0 warp0) ∧ (fmtF32.decode 0x7F800001).isNan = true ∧ (fmtF32.decode 0x80000000).isZero = true :=
  ⟨issuing_all demo_ready (by decide +kernel), by decide +kernel, by decide +kernel⟩

theorem test_premises_FloatCompareResults : ∀ i ∈ [Instr.fcmp (fx (v 100) (v 40) (v 3) 0 0 0 0 31),
    .fcmp (fx (v 100) (v 40) (v 3) 1 0 0 0 30), .fcmpAx dab], Issuing demo i cur0 warp0 :=
  issuing_all demo_ready (by decide +kernel)

theorem test_premises_FloatSelectResults_misc : (∀ i ∈ [Instr.fclass db, .frnd db, .fgetx db, .ffrac db], Issuing demo i cur0 warp0) ∧
    (∃ m e, fmtF32.decode 0x40490FDB = .fin false m e) ∧ (∃ g, fmtF32.decode 0x7F800001 = .nan g) ∧ (∃ n, fmtF32.decode 0xFF800000 = .inf n) ∧
    (∃ q, (fmtF32.decode 0x40490FDB).rat = some q) ∧ 0xFF800000 < 2 * fmtF32.signBit ∧ fmtF32 ∈ [fmtF32, fmtF16, fmtBf16] :=
  ⟨issuing_all demo_ready (by decide +kernel), ⟨_, _, rfl⟩, ⟨_, rfl⟩, ⟨_, rfl⟩, ⟨_, rfl⟩, by decide +kernel, by decide⟩

theorem test_premises_SpecialFunctionResults : ∀ i ∈ [Instr.rcp db, .rsqrt db, .sqrt { db with modBits := 0x20 }, .exp2 db, .log2 db,
    .sin db, .cos db, .tanh db, .fdiv { dab with modBits := 0x24 }, .sigm { db with modBits := 1 }], Issuing demo i cur0 warp0 :=
  issuing_all demo_ready (by decide +kernel)

theorem test_premises_SpecialFunctionResults_values : fmtF32.decode 0x7F800001 = .nan true ∧ fmtF32.decode 0xFF800000 = .inf true ∧
    fmtF32.decode 0x7F800000 = .inf false ∧ (∃ e, fmtF32.decode 0x80000000 = .fin true 0 e) ∧
    ∃ m e, m ≠ 0 ∧ fmtF32.decode 0x80000001 = .fin true m e :=
  ⟨by decide +kernel, by decide +kernel, by decide +kernel, ⟨_, rfl⟩, _, _, by decide, rfl⟩

theorem test_premises_ConversionResults : (∀ i ∈ [Instr.cvtF16 { dab with modBits := 1 }, .cvtBf16 { dab with modBits := 1 },
    .cvtE4m3 { dab with modBits := 5 }, .cvtE5m2 { dab with modBits := 1 }, .cvtE2m1 { dab with modBits := 1 },
    .cvtF32 { db with modBits := 0x10 }, .cvtInt db, .cvtRgb dab], Issuing demo i cur0 warp0) ∧ conversionTable.length = 5 :=
  ⟨issuing_all demo_ready (by decide +kernel), rfl⟩

theorem test_premises_BlockConversionResults : ∀ i ∈ [Instr.cvtMxf4 da, .cvtMxi8 { da with modBits := 5 }, .cvtMxi4 da, .cvtUnmx dab,
    .cvtUnrgb (fx (v 100) (v 0) (v 3) 0 0 0 0 (2 * 2 ^ 10))], Issuing demo i cur0 warp0 :=
  issuing_all demo_ready (by decide +kernel)

theorem test_premises_SmallMatrixElements : ∀ i ∈ [Instr.smxMul (smx3 20 2 0), .smxMad (smx3 20 2 24), .smxAdd (smx3 20 0 0),
    .smxScl (smx3 20 0 0), .smxTr (smx3 0 0 0), .smxId { smx3 20 0 0 with a := v 0 }, .smxSym (smx2 0 0)], Issuing demo i cur0 warp0 :=
  issuing_all demo_ready (by decide +kernel)

theorem test_premises_SmallMatrixFactors : ∀ i ∈ [Instr.smxChol (smx2 0 24), .smxLu (smx2 20 24), .smxSol (smx3 20 0 0),
    .smxSol { smx3 20 0 24 with modBits := 1 }], Issuing demo i cur0 warp0 :=
  issuing_all demo_ready (by decide +kernel)

theorem test_premises_SmallMatrixFactorisations : ([0x40800000, 0x40000000, 0x40000000, 0x40400000] : Mat).length = 2 * 2 ∧ 3 < 4 := by
  decide

theorem test_premises_CrossLaneSelection : ∀ i ∈ [Instr.vote { db with modBits := 4 }, .elect { dOnly with modBits := 1 }, .bcast db,
    .shf { dab with modBits := 7 }, .prm dab, .cmpct { dab with modBits := 1 }, .rank { db with modBits := 1 }, .lsel dab],
    Issuing demo i cur0 warp0 :=
  issuing_all demo_ready (by decide +kernel)

theorem test_premises_CrossLaneReductions : ∀ i ∈ [Instr.matchKeys { db with modBits := 5 }, .red db, .scan { db with modBits := 16 },
    .sscan dab], Issuing demo i cur0 warp0 :=
  issuing_all demo_ready (by decide +kernel)

/-- The lanes of the warp that have not ended are those that issue, all with size 32 in v6. -/
def warpP : Warp :=
  { warp0 with lanes := (List.range 32).map (fun l => if l = 0 ∨ l = 5 then { lane0 with regs := regsOf [(6, 32)] } else { st := .ended }) }
def demoP : State := { demo with warps := [warpP] }
theorem test_premises_PartIsChecked : Issuing demoP (.part (fo (v 100) (v 0) (v 6) 0)) cur0 warpP ∧
    (let p := activeLanes demoP (.part (fo (v 100) (v 0) (v 6) 0)) cur0 warpP
     p ≠ [] ∧ p = warpP.liveLanes ∧ ∀ l ∈ p, (demoP.sources (fo (v 100) (v 0) (v 6) 0) cur0 warpP l).b = BitVec.ofNat 32 (2 ^ 5)) ∧
    Issuing demo (.part db) cur0 warp0 ∧ activeLanes demo (.part db) cur0 warp0 ≠ warp0.liveLanes :=
  ⟨issuing_of (by decide +kernel) (by decide +kernel), by decide +kernel, issuing_of demo_ready (by decide +kernel), by decide +kernel⟩

/-- The demonstration state with a lane of other registers, and further bytes of shared memory and scratchpad. -/
def laneM : Lane := { pc := 64, regs := regsOf [(1, 5), (3, 0x100), (6, 0x3FC), (7, 0x400), (8, 0x10000), (9, 0x101), (10, 0xFFFC),
  (11, 0x8000), (12, 0x380), (13, 0x30008)] }
def warpM : Warp := { warp0 with lanes := List.replicate 32 laneM }
/-- Lines 2 and 511 of the window are in the core's cache. -/
def demoM : State :=
  { demo with warps := [warpM]
              dies := demo.dies.modify 0 (fun d => { d with cores := d.cores.modify 0 (fun c => { c with spadLines := [2, 511] }) }) }
/-- An engine owns line 2 of shared memory and of the scratchpad, and no line is cached. -/
def demoOwned : State := { demo with warps := [warpM], owned := [⟨.shared 5 2, [.op 9]⟩, ⟨.spad 0 2, [.op 9]⟩] }
theorem demoM_ready : readyB demoM cur0 warpM = true := by decide +kernel
theorem demoOwned_ready : readyB demoOwned cur0 warpM = true := by decide +kernel

/-- Loads at the last word of shared memory and of the window. -/
theorem test_premises_LoadResults_memory :
    Issuing demoM (.ldSh (fo (v 100) (v 0) (v 6) 0)) cur0 warpM ∧ demoM.accessesFree (.ldSh (fo (v 100) (v 0) (v 6) 0)) cur0 warpM true 4 ∧
    Issuing demoM (.ldSp (fo (v 100) (v 0) (v 10) 0)) cur0 warpM ∧ demoM.accessesFree (.ldSp (fo (v 100) (v 0) (v 10) 0)) cur0 warpM false 4 ∧
    demoM.missing warpM 4 ([0, 5].map (demoM.offsetAt (fo (v 100) (v 0) (v 10) 0) cur0 warpM)) = [] ∧
    Issuing demoM (.ldPar db) cur0 warpM ∧ Issuing demoM (.prefSp bOnly) cur0 warpM :=
  ⟨issuing_of demoM_ready (by decide +kernel), by unfold State.accessesFree; decide +kernel, issuing_of demoM_ready (by decide +kernel),
    by unfold State.accessesFree; decide +kernel, by decide +kernel, issuing_of demoM_ready (by decide +kernel),
    issuing_of demoM_ready (by decide +kernel)⟩

/-- Loads that meet an owned line, or miss the core's cache. -/
theorem test_premises_LoadResults_suspended :
    (∀ i ∈ [Instr.ldSh db, .ldSp db], Issuing demoOwned i cur0 warpM ∧ activeLanes demoOwned i cur0 warpM ≠ []) ∧
    demoOwned.hasRoom warpM db.ls ∧ (∀ l ∈ [0, 5], demoOwned.checkAccess warpM true (demoOwned.offsetAt db cur0 warpM l) 4 4 = 0 ∧
      demoOwned.checkAccess warpM false (demoOwned.offsetAt db cur0 warpM l) 4 4 = 0) ∧
    demoOwned.blockers warpM true 4 ([0, 5].map (demoOwned.offsetAt db cur0 warpM)) ≠ [] ∧
    demoOwned.blockers warpM false 4 ([0, 5].map (demoOwned.offsetAt db cur0 warpM)) ≠ [] ∧
    demoM.blockers warpM false 4 ([0, 5].map (demoM.offsetAt (fo (v 100) (v 0) (v 12) 0) cur0 warpM)) = [] ∧
    demoM.missing warpM 4 ([0, 5].map (demoM.offsetAt (fo (v 100) (v 0) (v 12) 0) cur0 warpM)) ≠ [] :=
  ⟨fun i hi => ⟨issuing_all demoOwned_ready (is := [.ldSh db, .ldSp db]) (by decide +kernel) i hi, by
      fin_cases hi <;> decide +kernel⟩, by unfold State.hasRoom; decide +kernel, by decide +kernel, by decide +kernel, by decide +kernel,
    by decide +kernel, by decide +kernel⟩

/-- An H form that meets the owned line. -/
theorem test_premises_LoadResults_half :
    (∀ i ∈ [Instr.ldSh (ho (v 100) (v 0) (v 3) 0), .stSh (ho (v 0) (v 40) (v 3) 0)], Issuing demoOwned i cur0 warpM) ∧
    demoOwned.hasRoom warpM 0 ∧ demoOwned.blockers warpM true 4 ([0, 5].map (demoOwned.offsetAt (ho (v 100) (v 0) (v 3) 0) cur0 warpM)) ≠ [] ∧
    ∀ l ∈ [0, 5], demoOwned.checkAccess warpM true (demoOwned.offsetAt (ho (v 100) (v 0) (v 3) 0) cur0 warpM l) 4 4 = 0 :=
  ⟨issuing_all demoOwned_ready (by decide +kernel), by unfold State.hasRoom; decide +kernel, by decide +kernel, by decide +kernel⟩

/-- The launch of the warp is a DET launch. -/
def demoDet : State := { demoM with launches := [{ launch0 with lrec := { det := true } }] }
theorem test_premises_StoreResults_det :
    Issuing demoDet (.stSp (fo (v 0) (v 40) (v 3) 6)) cur0 warpM ∧ demoDet.isDet warpM = true ∧ warpM.folds = [] ∧
    demoDet.accessesFree (.stSp (fo (v 0) (v 40) (v 3) 6)) cur0 warpM false 16 :=
  ⟨issuing_of (by decide +kernel) (by decide +kernel), by decide +kernel, rfl, by unfold State.accessesFree; decide +kernel⟩

theorem test_premises_StoreResults :
    Issuing demoM (.stSh (fo (v 0) (v 40) (v 6) 0)) cur0 warpM ∧ demoM.accessesFree (.stSh (fo (v 0) (v 40) (v 6) 0)) cur0 warpM true 4 ∧
    Issuing demoM (.stSp (fo (v 0) (v 40) (v 3) 6)) cur0 warpM ∧ demoM.accessesFree (.stSp (fo (v 0) (v 40) (v 3) 6)) cur0 warpM false 16 ∧
    ∀ l ∈ [0, 5], demoM.inImage (.spad 0) (demoM.addressAt (fo (v 0) (v 40) (v 3) 6) cur0 warpM false l) 16 = false :=
  ⟨issuing_of demoM_ready (by decide +kernel), by unfold State.accessesFree; decide +kernel, issuing_of demoM_ready (by decide +kernel),
    by unfold State.accessesFree; decide +kernel, by decide +kernel⟩

/-- Accesses one word beyond shared memory, beyond the window and in the spill area, and misaligned ones. -/
theorem test_premises_AccessTraps :
    (∀ i ∈ [Instr.ldSh (fo (v 100) (v 0) (v 7) 0), .stSh (fo (v 0) (v 40) (v 9) 0), .ldSp (fo (v 100) (v 0) (v 8) 0),
      .stSp (fo (v 0) (v 40) (v 11) 0), .ldSp (fo (v 100) (v 0) (v 9) 0), .ldSh (ho (v 100) (v 0) (v 7) 0)], Issuing demoM i cur0 warpM) ∧
    (∀ l ∈ [0, 5], ¬ demoM.offsetAt (fo (v 100) (v 0) (v 7) 0) cur0 warpM l + 4 ≤ demoM.sharedLimit warpM ∧
      demoM.offsetAt (fo (v 100) (v 0) (v 6) 0) cur0 warpM l + 4 ≤ demoM.sharedLimit warpM ∧
      demoM.offsetAt (fo (v 0) (v 40) (v 9) 0) cur0 warpM l % 4 ≠ 0) ∧
    ctx0.windowOk 0 0x10000 4 false = false ∧ ctx0.windowOk 0 0x8000 4 false = false ∧ ctx0.windowOk 0 0x101 4 false = true ∧
    demoM.hBlockers (demoM.env (.ldSh (ho (v 100) (v 0) (v 7) 0)) cur0 warpM) = [] :=
  ⟨issuing_all demoM_ready (by decide +kernel), by decide +kernel, by decide +kernel, by decide +kernel, by decide +kernel, by decide +kernel⟩

/-- Shared offset 0x100 in v3, row stride 12 and element stride 4 for shapes of 2 by 3. -/
theorem test_premises_WindowAccessResults :
    Issuing demoM (.ldmT (fo (v 100) (v 0) (v 3) 1)) cur0 warpM ∧
    (∀ l ∈ [0, 5], demoM.checkAccess warpM true (demoM.offsetAt (fo (v 100) (v 0) (v 3) 1) cur0 warpM l) 32 32 = 0 ∧
      demoM.ownedLines warpM true (demoM.offsetAt (fo (v 100) (v 0) (v 3) 1) cur0 warpM l) 32 = []) ∧
    (∀ i ∈ [Instr.smxLdSh { smx3 3 0 0 with a := v 0 }, .smxStSh { smx3 3 0 0 with d := v 0 }], Issuing demoM i cur0 warpM) ∧
    ∀ l ∈ [0, 5], ∀ q < 6, let a := (demoM.sources { smx3 3 0 0 with b := v 3 } cur0 warpM l).b.toNat + q / 3 * 12 + q % 3 * 4
      demoM.checkAccess warpM true a 4 4 = 0 ∧ demoM.ownedLines warpM true a 4 = [] :=
  ⟨issuing_of demoM_ready (by decide +kernel), by decide +kernel, issuing_all demoM_ready (by decide +kernel), by decide +kernel⟩

/-- A push that leaves SPS 0, a pop that leaves it 0x400, reads at the last word, and both overflows. -/
def spilled (sps : Word) : Warp := { warp0 with sps := sps }
def demoSps (sps : Word) : State := { demo with warps := [spilled sps] }
theorem test_premises_SpillStackResults :
    (Issuing (demoSps 0x20) (.splPush { da with d := v 0, modBits := 7 }) cur0 (spilled 0x20) ∧ 4 * 8 ≤ (spilled 0x20).sps.toNat) ∧
    (Issuing (demoSps 0x3FC) (.splPop dOnly) cur0 (spilled 0x3FC) ∧ (spilled 0x3FC).sps.toNat + 4 * 1 ≤ 0x400) ∧
    (Issuing (demoSps 0x3FC) (.splRd (fo (v 100) (v 0) (.spc .zero) 0)) cur0 (spilled 0x3FC) ∧
      ((demoSps 0x3FC).sources (fo (v 100) (v 0) (.spc .zero) 0) cur0 (spilled 0x3FC) 0).b = 0) ∧
    (Issuing (demoSps 0x1C) (.splPush { da with d := v 0, modBits := 7 }) cur0 (spilled 0x1C) ∧ (spilled 0x1C).sps.toNat < 4 * 8) ∧
    (Issuing (demoSps 0x400) (.splPop dOnly) cur0 (spilled 0x400) ∧ 0x400 < (spilled 0x400).sps.toNat + 4 * 1) ∧
    activeLanes (demoSps 0x400) (.splPop dOnly) cur0 (spilled 0x400) ≠ [] :=
  ⟨⟨issuing_of (by decide +kernel) (by decide +kernel), by decide⟩, ⟨issuing_of (by decide +kernel) (by decide +kernel), by decide⟩,
    ⟨issuing_of (by decide +kernel) (by decide +kernel), by decide +kernel⟩, ⟨issuing_of (by decide +kernel) (by decide +kernel), by decide⟩,
    ⟨issuing_of (by decide +kernel) (by decide +kernel), by decide⟩, by decide +kernel⟩

/-- atm.add on shared memory, atm.cas on the scratchpad with %zero in D, atm.swap on the scratchpad with a register. -/
theorem test_premises_AtomicResults :
    (∀ i ∈ [Instr.atm (fo (v 100) (v 1) (v 3) 0), .atmCas (fx (.spc .zero) (v 1) (v 3) 0x20 0 0 0 3),
      .atm (fo (v 100) (v 1) (v 3) 0x2B)], Issuing demoM i cur0 warpM ∧ (∀ l ∈ activeLanes demoM i cur0 warpM,
        demoM.checkAccess warpM (atmShared i) (atmOffset i (demoM.sources i.operands cur0 warpM l).b) 4 4 = 0 ∧
        demoM.ownedLines warpM (atmShared i) (atmOffset i (demoM.sources i.operands cur0 warpM l).b) 4 = [] ∧
        demoM.inImage (warpM.space (atmShared i)) 0x100 4 = false)) ∧
    demoM.isDet warpM = false ∧ warpM.supervisor = false ∧ demoM.hasRoom warpM 0 ∧
    atmShared (.atm (fo (v 100) (v 1) (v 3) 0)) = true ∧ atmShared (.atm (fo (v 100) (v 1) (v 3) 0x2B)) = false :=
  ⟨fun i hi => ⟨issuing_all demoM_ready (is := [.atm (fo (v 100) (v 1) (v 3) 0), .atmCas (fx (.spc .zero) (v 1) (v 3) 0x20 0 0 0 3),
      .atm (fo (v 100) (v 1) (v 3) 0x2B)]) (by decide +kernel) i hi, by fin_cases hi <;> decide +kernel⟩, by decide +kernel, by decide,
    by unfold State.hasRoom; decide +kernel, by decide, by decide⟩

/-- The word at 0x100 is 0: .eq 0 holds; .eq 5 fails in both lanes, which name one offset and value. -/
theorem test_premises_WaitAddrResults :
    (∀ i ∈ [Instr.waitAddr (fo (v 100) (.inl 0) (v 3) 0), .waitAddr (fo (v 100) (v 1) (v 3) 0),
      .waitAddr (fx (v 100) (v 1) (v 3) 0 0 4 0 0)], Issuing demoM i cur0 warpM ∧ demoM.accessesFree i cur0 warpM false 4) ∧
    demoM.numberAt (.spad 0) 0x100 4 = 0 ∧ (fo (v 100) (v 1) (v 3) 0).tmo = 31 ∧ demoM.hasRoom warpM 0 :=
  ⟨fun i hi => ⟨issuing_all demoM_ready (is := [Instr.waitAddr (fo (v 100) (.inl 0) (v 3) 0), .waitAddr (fo (v 100) (v 1) (v 3) 0),
      .waitAddr (fx (v 100) (v 1) (v 3) 0 0 4 0 0)]) (by decide +kernel) i hi, by
      unfold State.accessesFree; fin_cases hi <;> decide +kernel⟩, by decide +kernel, by decide, by unfold State.hasRoom; decide +kernel⟩

/-- v6 = 80 is a target, v7 = 84 is none, SPS 4 has room for one word, the word at SPS 0x3FC of each lane is 0. -/
def laneC : Lane := { pc := 64, regs := regsOf [(3, 0x100), (6, 80), (7, 84)] }
def warpC (sps : Word) : Warp := { warp0 with lanes := List.replicate 32 laneC, sps := sps }
def demoC (sps : Word) : State := { demo with warps := [warpC sps] }
theorem test_premises_ControlFlowResults :
    (∀ i ∈ [Instr.nop none_, .br (xo (v 0) (v 0) 0xFFFFFFF8 0), .brx (fo (v 0) (v 0) (v 6) 0), .brx (fo (v 0) (v 0) (v 7) 0),
      .call (xo (v 0) (v 0) 2 0), .callx (fo (v 0) (v 0) (v 6) 0), .callx (fo (v 0) (v 0) (v 7) 0)],
      Issuing (demoC 4) i cur0 (warpC 4) ∧ activeLanes (demoC 4) i cur0 (warpC 4) ≠ []) ∧
    (Issuing (demoC 0x3FC) (.ret none_) cur0 (warpC 0x3FC) ∧ (warpC 0x3FC).sps.toNat + 4 ≤ 0x400 ∧
      ∀ l ∈ [0, 5], ((warpC 0x3FC).spillWord 0x3FC l).toNat % 8 = 0) ∧
    cur0.count ≤ cur0.idx + 1 ∧ 4 ≤ (warpC 4).sps.toNat ∧
    (∀ l ∈ [0, 5], ((demoC 4).sources (fo (v 0) (v 0) (v 6) 0) cur0 (warpC 4) l).b.toNat % 8 = 0) ∧
    [0, 5].filter (fun l => ((demoC 4).sources (fo (v 0) (v 0) (v 7) 0) cur0 (warpC 4) l).b.toNat % 8 != 0) ≠ [] :=
  ⟨fun i hi => ⟨issuing_all (is := [Instr.nop none_, .br (xo (v 0) (v 0) 0xFFFFFFF8 0), .brx (fo (v 0) (v 0) (v 6) 0),
      .brx (fo (v 0) (v 0) (v 7) 0), .call (xo (v 0) (v 0) 2 0), .callx (fo (v 0) (v 0) (v 6) 0), .callx (fo (v 0) (v 0) (v 7) 0)])
      (by decide +kernel) (by decide +kernel) i hi, by fin_cases hi <;> decide +kernel⟩,
    ⟨issuing_of (by decide +kernel) (by decide +kernel), by decide, by decide +kernel⟩, by decide, by decide, by decide +kernel,
    by decide +kernel⟩

/-- Without room for one word, without one to pop, and with a popped word 84. -/
def warpBad : Warp := { warpC 0x3FC with spill := [(0xFF * 32, 1#1 ++ 84#32)] }
def demoBad : State := { demo with warps := [warpBad] }
theorem test_premises_ControlFlowResults_traps :
    (∀ i ∈ [Instr.call (xo (v 0) (v 0) 2 0), .callx (fo (v 0) (v 0) (v 6) 0), .brx (fo (v 0) (v 0) (v 7) 0)],
      Issuing (demoC 0) i cur0 (warpC 0) ∧ activeLanes (demoC 0) i cur0 (warpC 0) = [0, 5]) ∧ (warpC 0).sps.toNat < 4 ∧
    (Issuing (demoC 0x400) (.ret none_) cur0 (warpC 0x400) ∧ 0x400 < (warpC 0x400).sps.toNat + 4) ∧
    Issuing demoBad (.ret none_) cur0 warpBad ∧ [0, 5].filter (fun l => (warpBad.spillWord warpBad.sps.toNat l).toNat % 8 != 0) ≠ [] :=
  ⟨fun i hi => ⟨issuing_all (is := [Instr.call (xo (v 0) (v 0) 2 0), .callx (fo (v 0) (v 0) (v 6) 0), .brx (fo (v 0) (v 0) (v 7) 0)])
      (by decide +kernel) (by decide +kernel) i hi, by fin_cases hi <;> decide +kernel⟩, by decide,
    ⟨issuing_of (by decide +kernel) (by decide +kernel), by decide⟩, issuing_of (by decide +kernel) (by decide +kernel), by decide +kernel⟩

/-- A block warp of which other lanes live, and a task warp whose last lanes 0 and 5 are, with a deque of 16 entries. -/
def warpT : Warp :=
  { warp0 with kind := .task, block := none, tcb := 0x40, lanes := (List.range 32).map (fun l => if l = 0 ∨ l = 5 then lane0 else { st := .ended }) }
def ctxT : Context :=
  let half : CtxDie := { spl := 0x10000, csab := 0x8000, csal := 0x4000, dqb := List.replicate 32 0x1000, dql := List.replicate 32 4 }
  { ctx0 with dies := [half, half] }
def demoT : State := { demo with warps := [warpT], ctxs := [ctxT], blocks := [] }
theorem test_premises_LaneEndsHoldsAndTraps :
    (∀ i ∈ [Instr.exit none_, .join none_, .yield none_, .trap bOnly, .brk none_], Issuing demo i cur0 warp0 ∧
      activeLanes demo i cur0 warp0 ≠ []) ∧ warp0.kind ≠ .task ∧
    Issuing demoT (.exit none_) cur0 warpT ∧ warpT.kind = .task ∧ (∀ l ∈ warpT.liveLanes, l ∈ activeLanes demoT (.exit none_) cur0 warpT) ∧
    demoT.dqRoom warpT 0 (demoT.tcbNsucc warpT warpT.tcb.toNat) = true ∧ ∀ x ∈ demoT.ops, x.wid ≠ 7 :=
  ⟨fun i hi => ⟨issuing_all (is := [Instr.exit none_, .join none_, .yield none_, .trap bOnly, .brk none_]) demo_ready
      (by decide +kernel) i hi, by fin_cases hi <;> decide +kernel⟩, by decide,
    issuing_of (by decide +kernel) (by decide +kernel), rfl, by decide +kernel, by decide +kernel, by decide +kernel⟩

/-- The user registers with one word in all lanes, and the supervisor registers in a handler warp. -/
theorem test_premises_ControlRegisterResults :
    (∀ i ∈ [Instr.csrRd { dOnly with modBits := 8 }, .csrWr { bOnly with modBits := 2 }, .csrWr { bOnly with modBits := 4 },
      .csrSet { bOnly with modBits := 5 }, .csrClr { bOnly with modBits := 0 }, .clkRd dOnly, .digFold ab, .pcRd dOnly],
      Issuing demo i cur0 warp0 ∧ activeLanes demo i cur0 warp0 ≠ []) ∧ demo.hasCopies warp0 ∧ warp0.folds = [] ∧
    (∀ l ∈ [0, 5], ∀ m ∈ [0, 5], (demo.sources bOnly cur0 warp0 l).b = (demo.sources bOnly cur0 warp0 m).b) ∧
    (∀ i ∈ (List.range 14).map (fun k => Instr.csrWr { bOnly with modBits := 0x20 + k }), Issuing demoH i { cur0 with lanes := [0] } warpH) ∧
    demoH.hasCopies warpH :=
  ⟨fun i hi => ⟨issuing_all (is := [Instr.csrRd { dOnly with modBits := 8 }, .csrWr { bOnly with modBits := 2 },
      .csrWr { bOnly with modBits := 4 }, .csrSet { bOnly with modBits := 5 }, .csrClr { bOnly with modBits := 0 }, .clkRd dOnly,
      .digFold ab, .pcRd dOnly]) demo_ready (by decide +kernel) i hi, by fin_cases hi <;> decide +kernel⟩,
    ⟨ctx0, by decide +kernel⟩, rfl, by decide +kernel, issuing_all demoH_ready (by decide +kernel), ⟨ctx0, by decide +kernel⟩⟩

/-- A user warp parked at PC 64 with trap 0x3E in the first slot of its fault page, window offset 0x8000 + 0x8000. -/
def recF : Record :=
  { seq := 0, before := true, state := .faulted, inPlace := true, lanes := [0, 5], pc := 64, trap := 0x3E, place := .slot 0, size := 64 }
def warpF : Warp :=
  { warp0 with wid := 8, segment := 0, records := [recF], lanes := (List.range 32).map (fun l =>
      if l = 0 ∨ l = 5 then { lane0 with st := .parked } else lane0) }
def warpV : Warp := { warpH with lanes := List.replicate 32 { pc := 64, regs := regsOf [(3, 0x8000), (4, 0x8040)] } }
def demoF : State := { demo with warps := [warpV, warpF], cur := some { cur0 with lanes := [0] } }
theorem test_premises_HandlerInstructionResults :
    (∀ i ∈ [Instr.hdlResume db, .hdlKill db, .hdlEsc db, .hdlEsc (fo (v 100) (v 0) (v 4) 0)],
      Issuing demoF i { cur0 with lanes := [0] } warpV ∧ activeLanes demoF i { cur0 with lanes := [0] } warpV = [0]) ∧
    demoF.ctx? 1 = some ctx0 ∧ ctx0.windowOk 0 0x8000 1 true = true ∧ demoF.faultedAt warpV 0x8000 = some (warpF, recF) ∧
    demoF.faultedAt warpV 0x8040 = none ∧ warpF.wid ≠ 7 ∧ recF.lanes.Nodup ∧ demoF.warp? 8 = some warpF ∧ ctx0.escalated = none :=
  ⟨fun i hi => ⟨issuing_all (is := [Instr.hdlResume db, .hdlKill db, .hdlEsc db, .hdlEsc (fo (v 100) (v 0) (v 4) 0)])
      (by decide +kernel) (by decide +kernel) i hi, by fin_cases hi <;> decide +kernel⟩, by decide +kernel, by decide +kernel,
    by decide +kernel, by decide +kernel, by decide, by decide, by decide +kernel, by decide⟩

/-- Copy descriptors (Table 13.1) at shared 0, 0x40, 0x80, 0xC0: scratchpad 0x2000 to shared 0x200; DIR 9; a source
beyond the window; an empty copy. Parameter blocks (Table 14.1) at 0x100, 0x140, 0x180: f16 of 16 by 16 by 16 with
registers v512 on; all zero; a drained one. A byte barrier at 0x1C0. TCBs at window offsets 0x1000 (state 1), 0x1040
(state 5). -/
def sharedK : List (Nat × List Byte) :=
  [(0, fields [(4, 4), (4, 64), (8, 0x2000), (8, 0x200)]), (0x40, fields [(4, 9)]), (0x80, fields [(4, 4), (4, 64), (8, 0x10000), (8, 0x200)]),
   (0xC0, fields [(4, 4)]), (0x100, fields [(4, 0), (2, 16), (2, 16), (2, 16), (2, 512), (4, 0), (4, 0x200), (4, 32), (8, 0), (4, 0), (4, 32)]),
   (0x180, fields [(4, 0x1000), (2, 16), (2, 16), (2, 16), (2, 0), (4, 0), (4, 0x200), (4, 32), (8, 0), (4, 0), (4, 32)])]
def laneK : Lane :=
  { pc := 64, regs := regsOf [(1, 5), (3, 0x1C0), (10, 0), (11, 0x40), (12, 0x80), (13, 0xC0), (14, 0x100), (15, 0x140), (16, 0x180),
    (18, 64), (19, 4), (20, 1), (21, 0xFFFFFFFF), (22, 0x1000), (23, 0x1040), (24, 0x80), (25, 0x10000)] }
def warpK : Warp := { warp0 with lanes := List.replicate 32 laneK }
def demoK0 : State := with_ warpK [(0x1000 + 45, [0x10]), (0x1040 + 45, [0x50])] sharedK []
/-- A copy of the warp in slot 0 with sequence number 1 and colour 2. -/
def copyK : CopyOp := { weights := false, desc := fields [(4, 4), (4, 64), (8, 0x2000), (8, 0x200), (40, 0)], slot := 0, seq := 1, base := 0, otherBase := 0 }
def opK : EngineOp := { oid := 50, die := 0, core := 0, ctx := 1, wid := 7, block := some 5, colour := 2, kind := .copy copyK }
def demoK : State := { demoK0 with ops := [opK] }
theorem demoK0_ready : readyB demoK0 cur0 warpK = true := by decide +kernel
theorem demoK_ready : readyB demoK cur0 warpK = true := by decide +kernel
/-- Every copy slot of the core is taken. -/
def demoFull : State := { demoK0 with ops := (List.range 64).map (fun k => { opK with oid := k, kind := .copy { copyK with slot := k } }) }

def bcpAt (n : Nat) : Instr := .bcp (fo (v 100) (v 0) (v n) 0)
def descOf (s : State) (n : Nat) : List Byte := s.bytesAt (.shared 5) ((s.electedB (bcpAt n) cur0 warpK).toNat) 64
theorem test_premises_CopyInstructionResults :
    (∀ i ∈ [bcpAt 10, bcpAt 11, bcpAt 12, bcpAt 13, .wbLoad (fo (v 100) (v 0) (v 10) 0)], Issuing demoK0 i cur0 warpK ∧
      activeLanes demoK0 i cur0 warpK ≠ [] ∧ demoK0.checkAccess warpK true (demoK0.electedB i cur0 warpK).toNat 64 64 = 0 ∧
      demoK0.ownedLines warpK true (demoK0.electedB i cur0 warpK).toNat 64 = []) ∧
    (copyReason warpK (descOf demoK0 10) false = 0 ∧ demoK0.copyTraps warpK (descOf demoK0 10) false = [] ∧ cpTotal (descOf demoK0 10) ≠ 0 ∧
      demoK0.freeCopySlot 0 0 = some 0) ∧
    copyReason warpK (descOf demoK0 11) false ≠ 0 ∧
    (copyReason warpK (descOf demoK0 12) false = 0 ∧ firstLowest (demoK0.copyTraps warpK (descOf demoK0 12) false) = some (0x10, 0x10000)) ∧
    (copyReason warpK (descOf demoK0 13) false = 0 ∧ demoK0.copyTraps warpK (descOf demoK0 13) false = [] ∧ cpTotal (descOf demoK0 13) = 0 ∧
      cpCw (descOf demoK0 13) = false ∧ demoK0.isDet warpK = false ∧ ∀ x ∈ demoK0.ops, x.oid < demoK0.nextId) ∧
    (Issuing demoFull (bcpAt 10) cur0 warpK ∧ demoFull.copyTraps warpK (descOf demoFull 10) false = [] ∧ demoFull.freeCopySlot 0 0 = none) :=
  ⟨fun i hi => ⟨issuing_all (is := [bcpAt 10, bcpAt 11, bcpAt 12, bcpAt 13, .wbLoad (fo (v 100) (v 0) (v 10) 0)]) demoK0_ready
      (by decide +kernel) i hi, by fin_cases hi <;> decide +kernel, by fin_cases hi <;> decide +kernel, by fin_cases hi <;> decide +kernel⟩,
    by decide +kernel, by decide +kernel, by decide +kernel, by decide +kernel,
    issuing_of (by decide +kernel) (by decide +kernel), by decide +kernel, by decide +kernel⟩

/-- For each wait an operand that is done and one that is not, with a room for the record. -/
theorem test_premises_StatusWaitResults :
    (∀ i ∈ [Instr.bcpWait (fo (v 100) (v 0) (v 18) 0), .bcpWait (fo (v 100) (v 0) (v 1) 0), .fenceC (fo (v 100) (v 0) (v 19) 0),
      .fenceC (fo (v 100) (v 0) (v 20) 0), .mmWait (fo (v 100) (v 0) (v 20) 0), .mmWait (fo (v 100) (v 0) (v 10) 0),
      .barWait (fo (v 100) (v 0) (v 10) 15), .barWait (fx (v 100) (v 0) (v 21) 15 0 4 0 0), .taskWait (fo (v 100) (v 0) (v 22) 0),
      .taskWait (fo (v 100) (v 0) (v 23) 0), .bbarWait (fo (v 100) (v 10) (v 3) 0), .bbarWait (fo (v 100) (v 21) (v 3) 0)],
      Issuing demoK i cur0 warpK) ∧ demoK.hasRoom warpK 0 ∧ (∀ x ∈ demoK.ops, x.wid = 7 → x.complete = false ∧ x.fault = none) ∧
    ((demoK.copyOf 0 0 64).isNone = false ∧ (demoK.copyOf 0 0 5).isNone = true) ∧
    ((demoK.ops.filter (fun x => x.wid == 7 && bitOf 4 x.colour)) ≠ [] ∧ (demoK.ops.filter (fun x => x.wid == 7 && bitOf 1 x.colour)) = []) ∧
    (¬ (warpK.matC - 1).toNat < 2 ^ 31 ∧ (warpK.matC - 0).toNat < 2 ^ 31) ∧
    (¬ ((demoK.barrierOf warpK 15).gen - 0 - 1).toNat < 2 ^ 31 ∧ ((demoK.barrierOf warpK 15).gen - 0xFFFFFFFF - 1).toNat < 2 ^ 31) ∧
    demoK.tcbOk warpK 0x1000 ∧ demoK.tcbOk warpK 0x1040 ∧ (demoK.byteAt (.spad 0) 0x102D).toNat / 16 = 1 ∧
    (demoK.byteAt (.spad 0) 0x106D).toNat / 16 = 5 ∧
    demoK.checkAccess warpK true 0x1C0 16 16 = 0 ∧ demoK.ownedLines warpK true 0x1C0 16 = [] ∧ demoK.numberAt (.shared 5) 0x1C4 4 = 0 :=
  ⟨issuing_all demoK_ready (by decide +kernel), by unfold State.hasRoom; decide +kernel, by decide +kernel, by decide +kernel,
    by decide +kernel, by decide +kernel, by decide +kernel, ⟨rfl, ctx0, by decide +kernel⟩, ⟨rfl, ctx0, by decide +kernel⟩,
    by decide +kernel, by decide +kernel, by decide +kernel, by decide +kernel, by decide +kernel⟩

/-- bcp.wait on a copy of the warp whose fault is pending. -/
def demoFault : State := { demoK with ops := [{ opK with fault := some (0x10, 0x40) }] }
theorem test_premises_StatusWaitResults_fault : Issuing demoFault (.bcpWait (fo (v 100) (v 0) (v 18) 0)) cur0 warpK ∧
    (∀ l ∈ [0, 5], (demoFault.sources (fo (v 100) (v 0) (v 18) 0) cur0 warpK l).b = 64) ∧
    demoFault.copyOf 0 0 64 = some { opK with fault := some (0x10, 0x40) } :=
  ⟨issuing_of (by decide +kernel) (by decide +kernel), by decide +kernel, by decide +kernel⟩

theorem test_premises_UnitStateReads :
    (∀ i ∈ [Instr.bcpSt (fo (v 100) (v 0) (v 18) 0), .mmSt (fo (v 100) (v 0) (v 20) 0), .mxqLen (fo (v 100) (v 0) (v 0) 3),
      .qLen (fo (v 100) (v 0) (v 22) 0), .taskSt (fo (v 100) (v 0) (v 22) 0), .hngRd (fo (v 100) (v 0) (v 0) 7),
      .spkRd (fo (v 100) (v 0) (v 3) 3), .cmbStat (fo (v 100) (v 0) (v 3) 0), .cmbStat (fo (v 100) (v 0) (v 0) 2),
      .bbarRd (fo (v 100) (v 0) (v 3) 0)], Issuing demoK i cur0 warpK) ∧ demoK.tcbOk warpK 0x1000 ∧
    demoK.checkAccess warpK true 0x1C0 16 16 = 0 ∧ demoK.ownedLines warpK true 0x1C0 16 = [] :=
  ⟨issuing_all demoK_ready (by decide +kernel), ⟨rfl, ctx0, by decide +kernel⟩, by decide +kernel, by decide +kernel⟩

/-- Arrivals at byte barriers, and at a block barrier that 64 lanes complete or two of two do. -/
theorem test_premises_BarrierArrivals :
    (∀ i ∈ [Instr.bbarInit (fo (v 100) (v 1) (v 3) 0), .bbarAdd (fo (v 100) (v 21) (v 3) 0), .bbarAdd (fo (v 100) (v 1) (v 22) 1),
      .barArv (fo (v 100) (v 0) (v 10) 15), .barSync (fo (v 100) (v 0) (v 10) 0), .barSync (fx (v 100) (v 0) (v 1) 0 0 4 0 0),
      .barSync (fo (v 100) (v 0) (.inl 2) 0)], Issuing demoK i cur0 warpK) ∧
    demoK.checkAccess warpK true 0x1C0 16 16 = 0 ∧ demoK.checkAccess warpK false 0x1000 16 16 = 0 ∧
    demoK.ownedLines warpK true 0x1C0 16 = [] ∧ demoK.inImage (.spad 0) 0x1000 16 = false ∧
    (∃ b, demoK.blockOf warpK = some b ∧ 15 < b.barriers.length) ∧ demoK.hasRoom warpK 0 ∧ (fx (v 100) (v 0) (v 1) 0 0 0 0 0).tmo = 0 ∧
    (fo (v 100) (v 0) (v 10) 0).tmo ≠ 0 :=
  ⟨issuing_all demoK_ready (by decide +kernel), by decide +kernel, by decide +kernel, by decide +kernel, by decide +kernel,
    ⟨_, rfl, by decide +kernel⟩, by unfold State.hasRoom; decide +kernel, by decide, by decide⟩

/-- Queue 0 holds an entry and queue 1 has a reserved one. -/
def demoMx : State :=
  { demoK0 with blocks := demoK0.blocks.map (fun b => { b with mxqs := [{ entries := [List.replicate 64 0] }, { reserved := 1 }, {}, {}] }) }
/-- The core holds four operations. -/
def demoBusy : State :=
  { demoK0 with ops := (List.range 4).map (fun k => { opK with oid := k, kind := .matrix { params := fields [(64, 0x1000)], ticket := 0 } }) }
/-- Every queue has all its entries reserved. -/
def demoRoomless : State :=
  { demoK0 with blocks := demoK0.blocks.map (fun b => { b with mxqs := List.replicate 4 { reserved := 32 } }) }
def goAt (n : Nat) : Instr := .mmGo (fo (v 100) (v 0) (v n) 0)
def blockAt (s : State) (n : Nat) : List Byte := s.bytesAt (.shared 5) (s.electedB (goAt n) cur0 warpK).toNat 64
theorem test_premises_MatrixUnitResults :
    (∀ i ∈ [goAt 14, goAt 15, goAt 16, .wbClr (fo (v 0) (v 24) (v 10) 0), .wbClr (fo (v 0) (v 10) (v 10) 0), .mxqPop (fo (v 100) (v 0) (v 0) 0),
      .mxqPop (fo (v 100) (v 0) (v 0) 1), .mxqPop (fx (v 100) (v 0) (v 0) 2 0 0 0 0), .mxqRst (fo (v 0) (v 0) (v 0) 0),
      .mxqRst (fo (v 0) (v 0) (v 0) 1)], Issuing demoMx i cur0 warpK ∧ activeLanes demoMx i cur0 warpK ≠ []) ∧
    (∀ n ∈ [14, 15, 16], demoMx.checkAccess warpK true (demoMx.electedB (goAt n) cur0 warpK).toNat 64 64 = 0 ∧
      demoMx.ownedLines warpK true (demoMx.electedB (goAt n) cur0 warpK).toNat 64 = []) ∧
    (∀ n ∈ [14, 16], (mmTrap (blockAt demoMx n) 640 1024 1024 true 0).1 = 0 ∧ demoMx.mmBusy warpK (blockAt demoMx n) = false) ∧
    (mmTrap (blockAt demoMx 15) 640 1024 1024 true 0).1 ≠ 0 ∧
    (Issuing demoBusy (goAt 16) cur0 warpK ∧ demoBusy.mmFull warpK = true ∧ demoMx.mmFull warpK = false) ∧
    (Issuing demoRoomless (goAt 16) cur0 warpK ∧ demoRoomless.mmFull warpK = false ∧
      (mmTrap (blockAt demoRoomless 16) 640 1024 1024 true 0).1 = 0 ∧ demoRoomless.mmBusy warpK (blockAt demoRoomless 16) = true) ∧
    ((demoMx.sources (fo (v 0) (v 24) (v 10) 0) cur0 warpK 0).a = 0x80 ∧ demoMx.weightLimit warpK = 1024) ∧ demoMx.isDet warpK = false ∧
    (demoMx.mxqOf warpK 0).entries ≠ [] ∧ (demoMx.mxqOf warpK 1).entries = [] ∧ (demoMx.mxqOf warpK 0).reserved = 0 ∧
    0 < (demoMx.mxqOf warpK 1).reserved ∧ demoMx.hasRoom warpK 0 :=
  ⟨fun i hi => ⟨issuing_all (is := [goAt 14, goAt 15, goAt 16, .wbClr (fo (v 0) (v 24) (v 10) 0), .wbClr (fo (v 0) (v 10) (v 10) 0),
      .mxqPop (fo (v 100) (v 0) (v 0) 0), .mxqPop (fo (v 100) (v 0) (v 0) 1), .mxqPop (fx (v 100) (v 0) (v 0) 2 0 0 0 0),
      .mxqRst (fo (v 0) (v 0) (v 0) 0), .mxqRst (fo (v 0) (v 0) (v 0) 1)]) (by decide +kernel) (by decide +kernel) i hi,
      by fin_cases hi <;> decide +kernel⟩, by decide +kernel, by decide +kernel, by decide +kernel,
    ⟨issuing_of (by decide +kernel) (by decide +kernel), by decide +kernel⟩, ⟨issuing_of (by decide +kernel) (by decide +kernel), by decide +kernel⟩,
    by decide +kernel, by decide +kernel, by decide +kernel,
    by decide +kernel, by decide +kernel, by decide +kernel, by unfold State.hasRoom; decide +kernel⟩

/-- A deque of 16 entries at window offset 0x4000 on every core; two entries name 0x1100 and 0x1140. -/
def ctxD : Context :=
  let half : CtxDie := { spl := 0x10000, csab := 0x8000, csal := 0x4000, dqb := List.replicate 32 0x4000, dql := List.replicate 32 0x80 }
  { ctx0 with dies := [half, half] }
/-- TCBs: 0x1000 and 0x1040 free with DEP 0 and 1, 0x1080 and 0x10C0 armed with DEP 1 and 5, 0x1100 claimed, 0x1140
ready, 0x1180 free with no registers. -/
def tcb (dep state foot : Nat) : List Byte := fields [(36, 0), (4, dep), (5, 0), (1, 16 * state), (2, foot)]
def spadD : List (Nat × List Byte) :=
  [(0x1000, tcb 0 0 1), (0x1040, tcb 1 0 1), (0x1080, tcb 1 1 1), (0x10C0, tcb 5 1 1), (0x1100, tcb 0 4 1), (0x1140, tcb 0 2 1),
   (0x1180, tcb 0 0 0), (0x4000, fields [(4, 0), (4, 2), (56, 0), (4, 0x1100), (4, 0x1140)])]
/-- Lanes 0 and 5 name different blocks. -/
def laneD (l : Nat) : Lane :=
  { pc := 64, regs := regsOf [(1, 5), (10, if l = 0 then 0x1000 else 0x1040), (11, if l = 0 then 0x1080 else 0x10C0),
    (12, if l = 0 then 0x1100 else 0x1140), (13, if l = 0 then 0x1180 else 0x1140), (14, 0x1100), (15, 0x40)] }
def warpD : Warp := { warp0 with lanes := (List.range 32).map laneD }
def demoD : State := { with_ warpD spadD [] [] with ctxs := [ctxD] }
theorem demoD_ready : readyB demoD cur0 warpD = true := by decide +kernel
def at1 (n : Nat) : Operands := fo (v 100) (v 0) (v n) 0

theorem test_premises_SpawnAndDependencies :
    (∀ i ∈ [Instr.spawn (at1 10), .spawn (at1 13), .depArm (fo (v 100) (v 1) (v 11) 0), .depDec (at1 11), .dqPush (at1 12)],
      Issuing demoD i cur0 warpD ∧ (activeLanes demoD i cur0 warpD).length = 2) ∧ warpD.depth < 8 ∧ warpD.kind ≠ .task ∧
    (∀ n ∈ [10, 11, 12, 13], ∀ l ∈ [0, 5], demoD.tcbOk warpD (demoD.sources (at1 n) cur0 warpD l).b.toNat) ∧
    demoD.dqRoom warpD 0 2 = true ∧ demoD.deque warpD 0 = (0x4000, 16) ∧ demoD.inImage (.spad 0) 0x4000 (64 + 64) = false ∧
    (∀ a ∈ [0x1000, 0x1040, 0x1080, 0x10C0, 0x1100, 0x1140, 0x1180], a + 64 ≤ 0x4000 ∧ demoD.inImage (.spad 0) a 64 = false ∧
      demoD.spawnRange warpD a = none) ∧ demoD.tagRuns 1 0 0 = true :=
  ⟨fun i hi => ⟨issuing_all (is := [Instr.spawn (at1 10), .spawn (at1 13), .depArm (fo (v 100) (v 1) (v 11) 0), .depDec (at1 11),
      .dqPush (at1 12)]) demoD_ready (by decide +kernel) i hi, by fin_cases hi <;> decide +kernel⟩, by decide, by decide,
    fun n hn l hl => ⟨by fin_cases hn <;> fin_cases hl <;> decide +kernel, ctxD, by fin_cases hn <;> fin_cases hl <;> decide +kernel⟩,
    by decide +kernel, by decide +kernel, by decide +kernel, by decide +kernel, by decide +kernel⟩

/-- A task warp at depth 7 whose own block is at 0x40. -/
def warpE : Warp := { warpD with kind := .task, block := none, tcb := 0x40, depth := 7 }
def demoE : State := { demoD with warps := [warpE], blocks := [] }
theorem test_premises_SpawnAndDependencies_task : Issuing demoE (.spawn (at1 10)) cur0 warpE ∧ warpE.depth < 8 ∧ warpE.kind = .task ∧
    demoE.tcbOk warpE warpE.tcb.toNat ∧ 0x40 + 64 ≤ 0x4000 ∧ demoE.inImage (.spad 0) 0x40 64 = false ∧
    demoE.numberAt (.spad 0) (0x40 + 62) 2 + 2 ≤ 65535 :=
  ⟨issuing_of (by decide +kernel) (by decide +kernel), by decide, rfl, ⟨by decide, ctxD, by decide +kernel⟩, by decide, by decide +kernel,
    by decide +kernel⟩

/-- A deque without entries, and a warp at depth 8. -/
def demoTight : State := { demoD with ctxs := [ctx0] }
def warpDeep : Warp := { warpD with depth := 8 }
def demoDeep : State := { demoD with warps := [warpDeep] }
theorem test_premises_SpawnAndDependencies_traps :
    (∀ i ∈ [Instr.spawn (at1 10), .depArm (fo (v 100) (v 1) (v 11) 0), .depDec (at1 11), .dqPush (at1 12)],
      Issuing demoTight i cur0 warpD ∧ activeLanes demoTight i cur0 warpD = [0, 5]) ∧ demoTight.dqRoom warpD 0 2 = false ∧
    (∀ n ∈ [10, 11, 12], ∀ l ∈ [0, 5], demoTight.tcbOk warpD (demoTight.sources (at1 n) cur0 warpD l).b.toNat) ∧
    (∀ l ∈ [0, 5], demoTight.spawnRange warpD (demoTight.sources (at1 10) cur0 warpD l).b.toNat = none) ∧
    Issuing demoDeep (.spawn (at1 10)) cur0 warpDeep ∧ demoDeep.dqRoom warpDeep 0 2 = true ∧ 8 ≤ warpDeep.depth :=
  ⟨fun i hi => ⟨issuing_all (is := [Instr.spawn (at1 10), .depArm (fo (v 100) (v 1) (v 11) 0), .depDec (at1 11), .dqPush (at1 12)])
      (by decide +kernel) (by decide +kernel) i hi, by fin_cases hi <;> decide +kernel⟩, by decide +kernel,
    fun n hn l hl => ⟨by fin_cases hn <;> fin_cases hl <;> decide +kernel, ctx0, by fin_cases hn <;> fin_cases hl <;> decide +kernel⟩,
    by decide +kernel, issuing_of (by decide +kernel) (by decide +kernel), by decide +kernel, by decide⟩

/-- The last lanes of the task warp, lane 0 alone, and an operation of the warp that is open. -/
def curOne : Cur := { cur0 with lanes := [0] }
def warpL : Warp := { warpE with lanes := (List.range 32).map (fun l => if l = 0 ∨ l = 5 then laneD l else { st := .ended }) }
def demoL : State := { demoE with warps := [warpL] }
def demoOne : State := { demoE with cur := some curOne }
def demoOpen : State := { demoOne with ops := [{ oid := 50, die := 0, core := 0, ctx := 1, wid := 7, block := none, colour := 2, kind := .forward 0 [] }] }
theorem test_premises_ClaimsAndFinishes :
    (∀ i ∈ [Instr.dqPop dOnly, .dqSteal (at1 15)], Issuing demoD i cur0 warpD) ∧ demoD.inImage (.spad 0) 0x4000 128 = false ∧
    (∀ l ∈ [0, 5], (demoD.sources (at1 15) cur0 warpD l).b.toNat % 32 = 0) ∧
    (demoD.numberAt (.spad 0) 0x4004 4 = 2 ∧ demoD.numberAt (.spad 0) 0x4040 4 = 0x1100 ∧ demoD.numberAt (.spad 0) 0x4044 4 = 0x1140) ∧
    (Issuing demoL (.taskDone (fo (v 100) (v 0) (.spc .tcb) 0)) cur0 warpL ∧
      (∀ l ∈ [0, 5], (demoL.sources (fo (v 100) (v 0) (.spc .tcb) 0) cur0 warpL l).b = warpL.tcb) ∧
      (∀ l ∈ warpL.liveLanes, l ∈ [0, 5]) ∧ demoL.dqRoom warpL 0 0 = true ∧ ∀ x ∈ demoL.ops, x.wid ≠ 7) ∧
    (Issuing demoE (.taskDone (fo (v 100) (v 0) (.spc .tcb) 0)) cur0 warpE ∧ ∃ l ∈ warpE.liveLanes, l ∉ [0, 5]) ∧
    (Issuing demoOne (.taskDone (at1 14)) curOne warpE ∧ activeLanes demoOne (.taskDone (at1 14)) curOne warpE = [0] ∧
      (demoOne.sources (at1 14) curOne warpE 0).b ≠ warpE.tcb ∧ demoOne.tcbOk warpE 0x1100) ∧
    (Issuing demoOpen (.taskDone (at1 14)) curOne warpE ∧ Issuing demoOpen (.taskDone (fx (v 100) (v 0) (v 14) 0 0 0 0 0)) curOne warpE ∧
      (∀ x ∈ demoOpen.ops, x.wid = 7 → x.fault = none) ∧ (∃ x ∈ demoOpen.ops, x.wid = 7 ∧ x.complete = false) ∧ demoOpen.hasRoom warpE 0) :=
  ⟨issuing_all demoD_ready (by decide +kernel), by decide +kernel, by decide +kernel, by decide +kernel,
    ⟨issuing_of (by decide +kernel) (by decide +kernel), by decide +kernel, by decide +kernel, by decide +kernel, by decide +kernel⟩,
    ⟨issuing_of (by decide +kernel) (by decide +kernel), 1, by decide +kernel⟩,
    ⟨issuing_of (by decide +kernel) (by decide +kernel), by decide +kernel, by decide +kernel, rfl, ctxD, by decide +kernel⟩,
    issuing_of (by decide +kernel) (by decide +kernel), issuing_of (by decide +kernel) (by decide +kernel), by decide +kernel,
    ⟨_, List.mem_singleton.mpr rfl, by decide, by decide⟩, by unfold State.hasRoom; decide +kernel⟩

/-- Queues of 4-byte entries: 0x2000 holds 2 of 4 at 0x2100, 0x2040 is full with 2 of 2 at 0x2200, 0x2080 is empty,
0x20C0 has entries of 6 bytes. A ring of two slots, and one not initialised. -/
def spadQ : List (Nat × List Byte) :=
  [(0x2000, fields [(4, 0x2100), (4, 4), (1, 4), (7, 0), (4, 0xFFFFFFFF), (4, 1)]), (0x2040, fields [(4, 0x2200), (4, 2), (1, 4), (7, 0), (4, 0), (4, 2)]),
   (0x2080, fields [(4, 0x2300), (4, 4), (1, 4)]), (0x20C0, fields [(4, 0x2300), (4, 4), (1, 6)])]
def laneQ : Lane := { pc := 64, regs := regsOf [(1, 5), (2, 2), (10, 0x2000), (11, 0x2040), (12, 0x2080), (13, 0x20C0), (14, 1), (16, 16), (17, 7)] }
def warpQ : Warp := { warp0 with lanes := List.replicate 32 laneQ }
def demoQ : State :=
  { with_ warpQ spadQ [] [] with blocks := [{ block0 with rings := [{ nslot := 2, link := 0, phase := 0 }, {}] }] }
theorem demoQ_ready : readyB demoQ cur0 warpQ = true := by decide +kernel
theorem test_premises_QueueAndRingResults :
    (∀ i ∈ [Instr.qPush (fo (v 100) (v 1) (v 10) 0), .qPush (fo (v 100) (v 1) (v 11) 0), .qPush (fx (v 100) (v 1) (v 11) 0 0 0 0 0),
      .qPop (at1 10), .qPop (at1 12), .qInit (at1 10), .qInit (at1 13), .hngInit (fo (v 100) (v 16) (v 17) 1), .hngInit (fo (v 100) (v 17) (v 16) 1),
      .hngTake (fo (v 100) (v 14) (v 2) 0), .hngTake (fo (v 100) (v 2) (v 2) 0), .hngTake (fo (v 100) (v 2) (v 2) 1),
      .hngGive (at1 14), .hngGive { at1 14 with modBits := 1 }], Issuing demoQ i cur0 warpQ ∧ activeLanes demoQ i cur0 warpQ ≠ []) ∧
    (∀ o ∈ [0x2000, 0x2040, 0x2080], demoQ.tcbOk warpQ o ∧ demoQ.malformed warpQ (demoQ.queueDesc warpQ o) = false ∧
      demoQ.numberAt (.spad 0) (o + 8) 1 = 4 * 1 ∧ o + 64 ≤ demoQ.numberAt (.spad 0) o 4 ∧ demoQ.inImage (.spad 0) o 64 = false) ∧
    (2 + 2 ≤ demoQ.numberAt (.spad 0) 0x2004 4 ∧ demoQ.popsPassed 0 (demoQ.queueDesc warpQ 0x2000) 2 = true) ∧
    ¬ 2 + 2 ≤ demoQ.numberAt (.spad 0) 0x2044 4 ∧ demoQ.malformed warpQ (demoQ.queueDesc warpQ 0x20C0) = true ∧ demoQ.tcbOk warpQ 0x20C0 ∧
    (∀ w ∈ demoQ.warps, w.records = []) ∧ demoQ.hasRoom warpQ 0 ∧ (∃ b, demoQ.blockOf warpQ = some b ∧ 1 < b.rings.length) ∧
    (demoQ.ringOf warpQ 0).nslot = 2 ∧ (demoQ.ringOf warpQ 1).nslot = 0 :=
  ⟨fun i hi => ⟨issuing_all (is := [Instr.qPush (fo (v 100) (v 1) (v 10) 0), .qPush (fo (v 100) (v 1) (v 11) 0),
      .qPush (fx (v 100) (v 1) (v 11) 0 0 0 0 0), .qPop (at1 10), .qPop (at1 12), .qInit (at1 10), .qInit (at1 13),
      .hngInit (fo (v 100) (v 16) (v 17) 1), .hngInit (fo (v 100) (v 17) (v 16) 1), .hngTake (fo (v 100) (v 14) (v 2) 0),
      .hngTake (fo (v 100) (v 2) (v 2) 0), .hngTake (fo (v 100) (v 2) (v 2) 1), .hngGive (at1 14), .hngGive { at1 14 with modBits := 1 }])
      demoQ_ready (by decide +kernel) i hi, by fin_cases hi <;> decide +kernel⟩,
    fun o ho => ⟨⟨by fin_cases ho <;> rfl, ctx0, by fin_cases ho <;> decide +kernel⟩, by fin_cases ho <;> decide +kernel⟩,
    by decide +kernel, by decide +kernel, by decide +kernel, ⟨rfl, ctx0, by decide +kernel⟩, by decide +kernel,
    by unfold State.hasRoom; decide +kernel, ⟨_, rfl, by decide +kernel⟩, by decide +kernel, by decide +kernel⟩

/-- A grid of 2 by 2 tiles whose rings start at window offset 0, and an open request of tag 0 for band 0. -/
def laneR : Lane :=
  { pc := 64, regs := regsOf [(1, 0x11), (11, 0x40000), (12, 0x30001), (13, 1), (14, 5), (15, 0x5 * 2 ^ 20)] }
def warpR : Warp := { warp0 with lanes := List.replicate 32 laneR }
def renderR : Render :=
  { (demo.die 0).render with tw := 2, th := 2, bands := [{ opened := true, tag := 0, band := 0, due := 1 }, {}, {}, {}] }
def demoR : State := { demo with warps := [warpR], dies := demo.dies.modify 0 (fun d => { d with render := renderR }) }
theorem demoR_ready : readyB demoR cur0 warpR = true := by decide +kernel
def at2 (d a b : Nat) : Operands := fo (v d) (v a) (v b) 0

theorem test_premises_RenderingResults :
    (∀ i ∈ [Instr.spkPrio (at2 100 14 0), .spkPrio (at2 100 14 1), .spkPrio (fo (v 100) (v 14) (.inl 17) 0), .spkMap (at2 100 14 11),
      .spkMap (fo (v 100) (v 14) (v 13) 31), .sampEmit (at2 100 40 12), .sampEmit (at2 100 40 11), .sampEmit (fx (v 100) (v 40) (v 12) 1 0 0 2 0),
      .sampGth (at2 100 40 13), .rowPut (at2 0 40 10), .rowPut (at2 0 40 15), .rowAck (at2 100 0 10), .rowAck (at2 100 0 14)],
      Issuing demoR i cur0 warpR ∧ activeLanes demoR i cur0 warpR ≠ []) ∧
    ((demoR.electedB (.spkPrio (at2 100 14 0)) cur0 warpR).toNat % 32 = 0 ∧ warpR.supervisor = false ∧
      (demoR.electedB (.spkPrio (at2 100 14 1)) cur0 warpR).toNat % 32 = 17) ∧
    Issuing demoH (.spkPrio (at2 100 14 0)) { cur0 with lanes := [0] } warpH ∧ warpH.supervisor = true ∧
    demoR.ringPlace 0 3 false = some 0xC00 ∧ demoR.inImage (.spad 0) 0xC00 1024 = false ∧ demoR.ringPlace 0 1 false = some 0x400 ∧ demoR.hasRoom warpR 0 ∧
    renderR.bandOf demoR.realTime 0 = some 0 ∧ renderR.bandOf demoR.realTime 5 = none :=
  ⟨fun i hi => ⟨issuing_all (is := [Instr.spkPrio (at2 100 14 0), .spkPrio (at2 100 14 1),
      .spkPrio (fo (v 100) (v 14) (.inl 17) 0), .spkMap (at2 100 14 11), .spkMap (fo (v 100) (v 14) (v 13) 31), .sampEmit (at2 100 40 12),
      .sampEmit (at2 100 40 11), .sampEmit (fx (v 100) (v 40) (v 12) 1 0 0 2 0), .sampGth (at2 100 40 13), .rowPut (at2 0 40 10),
      .rowPut (at2 0 40 15), .rowAck (at2 100 0 10), .rowAck (at2 100 0 14)]) demoR_ready (by decide +kernel) i hi,
      by fin_cases hi <;> decide +kernel⟩, by decide +kernel, issuing_of demoH_ready (by decide +kernel), by decide, by decide +kernel,
    by decide +kernel, by decide +kernel, by unfold State.hasRoom; decide +kernel, by decide +kernel, by decide +kernel⟩

/-- Rings that start outside the window. -/
def demoFar : State := { demoR with dies := demoR.dies.modify 0 (fun d => { d with render := { renderR with sbfb := 0x10000 } }) }
theorem test_premises_RenderingResults_ring : Issuing demoFar (.sampGth (at2 100 40 13)) cur0 warpR ∧ demoFar.ringPlace 0 1 false = none ∧
    1 < renderR.tw * renderR.th :=
  ⟨issuing_of (by decide +kernel) (by decide +kernel), by decide +kernel, by decide⟩

/-- Lane 0's traversal in the window at v60 has ended, lane 5's has an inner node to visit. -/
def laneV (l : Nat) : Lane := { pc := 64, regs := regsOf [(3, 0x100), (71, if l = 0 then 0x4000 else 0), (72, 0x40000000), (10, 0x2000)] }
def warpW (sps : Word) : Warp := { warp0 with lanes := (List.range 32).map laneV, sps := sps }
def demoV (lines : List Nat) (sps : Word) (ops : List EngineOp) : State :=
  { demo with warps := [warpW sps], ops := ops
              dies := demo.dies.modify 0 (fun d => { d with cores := d.cores.modify 0 (fun c => { c with spadLines := lines }) }) }
def openOp : EngineOp := { oid := 50, die := 0, core := 0, ctx := 1, wid := 7, block := some 5, colour := 2, kind := .forward 0 [] }
theorem test_premises_TraversalResults :
    (∀ i ∈ [Instr.trvInit (fo (v 100) (v 40) (v 3) 0x2F), .trvStep (at2 100 0 60), .trvHit (at2 100 40 0), .prbStep (at2 100 40 3),
      .texSmp (at2 100 40 3), .texQry (at2 100 40 3), .truSort (at2 100 0 3)], Issuing (demoV [2] 0x400 []) i cur0 (warpW 0x400) ∧
      activeLanes (demoV [2] 0x400 []) i cur0 (warpW 0x400) ≠ []) ∧
    ((demoV [2] 0x400 []).ctx? 1).isSome = true ∧ (demoV [2] 0x400 []).hasRoom (warpW 0x400) 0 ∧
    (((laneV 0).reg 71).getLsbD 14 = true ∧ ((laneV 5).reg 71).getLsbD 14 = false ∧ (laneV 5).reg 72 ≠ 0) ∧
    (∀ l ∈ [0, 5], ((demoV [2] 0x400 []).sources (at2 100 40 3) cur0 (warpW 0x400) l).b.toNat = 0x100 ∧
      (demoV [2] 0x400 []).listWordTrap (warpW 0x400) 0x100 = none ∧ (demoV [2] 0x400 []).entryTrap (warpW 0x400) 0x100 0 = none ∧
      (demoV [2] 0x400 []).ownedLines (warpW 0x400) false 0x100 4 = []) ∧
    ((linesOf 0x100 4).all ((demoV [2] 0x400 []).holdsLine 0 0) = true ∧ (linesOf 0x100 4).all ((demoV [] 0x400 []).holdsLine 0 0) = false) ∧
    Issuing (demoV [] 0x400 []) (.prbStep (at2 100 40 3)) cur0 (warpW 0x400) ∧
    (demoV [2] 0x400 []).checkAccess (warpW 0x400) false 0x100 32 32 = 0 ∧
    Issuing (demoV [] 0x3FC []) (.truSort (at2 100 0 3)) cur0 (warpW 0x3FC) ∧ (warpW 0x3FC).sps ≠ 0x400 ∧
    Issuing (demoV [] 0x400 [openOp]) (.truSort (at2 100 0 3)) cur0 (warpW 0x400) ∧ openOp.wid = 7 ∧ openOp.fault = none ∧ openOp.complete = false :=
  ⟨fun i hi => ⟨issuing_all (is := [Instr.trvInit (fo (v 100) (v 40) (v 3) 0x2F), .trvStep (at2 100 0 60), .trvHit (at2 100 40 0),
      .prbStep (at2 100 40 3), .texSmp (at2 100 40 3), .texQry (at2 100 40 3), .truSort (at2 100 0 3)]) (by decide +kernel)
      (by decide +kernel) i hi, by fin_cases hi <;> decide +kernel⟩, by decide +kernel, by unfold State.hasRoom; decide +kernel,
    by decide +kernel, by decide +kernel, by decide +kernel, issuing_of (by decide +kernel) (by decide +kernel), by decide +kernel,
    issuing_of (by decide +kernel) (by decide +kernel), by decide, issuing_of (by decide +kernel) (by decide +kernel), rfl, rfl, rfl⟩

/-- A ray down the z axis at a triangle and a box before it; a leaf of one triangle at 0x8000, its CTL and ids, alpha tested. -/
def leafT (ctl : Nat) : List Byte :=
  let p (x y : Nat) : List (Nat × Nat) := [(4, x), (4, y), (4, 0x40000000)]
  fields ([(4, ctl), (4, 1), (4, 2), (4, 3), (4, 0x100), (4, 0x3800)] ++ p 0xBF800000 0xBF800000 ++ p 0x40000000 0xBF800000 ++
    p 0xBF800000 0x40000000 ++ [(196, 0)])
def travT (word : Nat) : Trav :=
  { o := [0, 0, 0], dir := [0, 0, 0x3F800000], tmin := 0, tmax := 0x42C80000, base := [0, 0, 0], sp := 0, cap := 2, any := false, hit := false
    ovf := false, fin := false, lpos := 0, high := 0, cur := word, key := [0xFFFFFFFF, 0xFFFFFFFF, 0xFFFFFFFF], hu := 0, hv := 0
    stack := [0, 0] }
def ctxV : Context := { ctx0 with ttb2 := 1, tlb := [⟨0, false, 0x1D⟩] }
def demoTv : State := { demo with ctxs := [ctxV], dram := memOf [(0x8000, leafT 1)] }
def hitT : TriHit := ((travT 0).tri (leafVertex (leafT 1) 0 0) (leafVertex (leafT 1) 0 1) (leafVertex (leafT 1) 0 2)).getD ⟨0, 0, 0⟩
theorem test_premises_TraversalProbeAndTextureValues :
    (∀ word ∈ [0x40000100, 0x80000100, 0xC0000100], (travT word).fin = false ∧ (travT word).cur ≠ 0 ∧
      ((travT word).base.getD 2 0).toNat < 2 ^ 8 ∧ vaOf (travT word).base + 128 * (word % 2 ^ 30) = 0x8000) ∧
    (∀ n ∈ [128, 256], (match demoTv.readTex warp0 ctxV 0x8000 0 n with | .ok _ => true | .trap _ _ => false) = true) ∧
    ((∀ ctl ∈ [1, 9, 17], leafCount (leafT ctl) = 1) ∧ bitOf 9 3 = true ∧ bitOf 17 4 = true ∧
      ((travT 0).tri (leafVertex (leafT 1) 0 0) (leafVertex (leafT 1) 0 1) (leafVertex (leafT 1) 0 2)).isSome = true ∧
      (travT 0).improves hitT.t (leafKey (leafT 1) 0) = true ∧ { travT 0 with tmax := 0 }.improves hitT.t (leafKey (leafT 1) 0) = false) ∧
    (demoTv.texTrap warp0 0x100 = 0 ∧ demoTv.ownedLines warp0 false 0x100 32 = [] ∧
      (match demoTv.alphaTest warp0 ctxV (leafT 17) 0 hitT 0 with | .ok ws _ => ws.length | _ => 0) = 1) ∧
    ((demoTv.texDesc warp0 0x100).bad = false ∧ (demoTv.texDesc warp0 0x100).last < 2 ^ 8) ∧ ∃ q, (fmtColour5.decode 1).rat = some q :=
  ⟨by decide +kernel, by decide +kernel, by decide +kernel, by decide +kernel, by decide +kernel, _, rfl⟩

/-- Allocation descriptors at window offsets 0x3000 (one expert, width 4), 0x3040 (width 0), 0x3080 (output beyond the
window); slot 3 is released with sequence number 1. -/
def caDesc (width out : Nat) : List Byte := fields [(4, 9), (8, 7), (32, 0), (2, width), (1, 0), (1, 31), (4, out), (4, 0x3200)]
def laneB : Lane :=
  { pc := 64, regs := regsOf [(10, 0x3000), (11, 0x3040), (12, 0x3080), (13, 0x4003), (14, 5), (40, 0x3300), (41, 7 + 4 * 2 ^ 8), (42, 0x3300)] }
def warpB : Warp := { warp0 with lanes := List.replicate 32 laneB }
def slotB : CmbSlot := { slot := 3, state := .released, seq := 1, ctx := 1, experts := [7], width := 4 }
def demoB : State :=
  let s := with_ warpB [(0x3000, caDesc 4 0x3100), (0x3040, caDesc 0 0x3100), (0x3080, caDesc 4 0x10000)] [] []
  { s with dies := s.dies.modify 0 (fun d => { d with slots := [slotB] }) }
theorem demoB_ready : readyB demoB cur0 warpB = true := by decide +kernel
/-- Another warp's allocation waits. -/
def demoWait : State :=
  { demoB with warps := [warpB, { warp0 with wid := 8, records := [{ seq := 0, lanes := [1], pc := 64, wait := .slot [] }] }] }
def allocAt (n : Nat) : Instr := .cmbAlloc (at1 n)
def caAt (s : State) (n : Nat) : List Byte := s.bytesAt (.spad 0) (s.electedB (allocAt n) cur0 warpB).toNat 64
theorem test_premises_CombineUnitResults :
    (∀ i ∈ [allocAt 10, allocAt 11, allocAt 12, .cmbPut (at2 0 40 13), .cmbPut (at2 0 42 13), .cmbFree (at1 13), .cmbFree (at1 14)],
      Issuing demoB i cur0 warpB ∧ activeLanes demoB i cur0 warpB ≠ []) ∧
    (∀ n ∈ [10, 11, 12], demoB.checkAccess warpB false (demoB.electedB (allocAt n) cur0 warpB).toNat 64 64 = 0 ∧
      demoB.ownedLines warpB false (demoB.electedB (allocAt n) cur0 warpB).toNat 64 = []) ∧
    (caReason (caAt demoB 10) = 0 ∧ demoB.caTrap warpB (caAt demoB 10) = none ∧ demoB.slotWaiters 0 = [] ∧
      demoB.freeSlotFrom 0 Config.combineSlots 0 = some 0) ∧
    caReason (caAt demoB 11) ≠ 0 ∧ (caReason (caAt demoB 12) = 0 ∧ demoB.caTrap warpB (caAt demoB 12) = some (0x10, 0x10000)) ∧
    (∀ i ∈ [allocAt 10, .cmbAlloc (fo (v 100) (v 0) (v 10) 1)], Issuing demoWait i cur0 warpB) ∧ demoWait.slotWaiters 0 ≠ [] ∧
    demoWait.hasRoom warpB 0 ∧
    (demoB.rangeTrap warpB false 0x3300 (4 * 4) = none ∧ (laneB.reg 41).toNat / 2 ^ 8 % 2 ^ 14 = 4 ∧ (laneB.reg 43).toNat = 0 ∧
      demoB.isDet warpB = false) ∧
    (demoB.liveSlot 1 0x4003 = some (0, slotB) ∧ slotB.state ≠ .opened ∧ demoB.liveSlot 1 5 = none) :=
  ⟨fun i hi => ⟨issuing_all (is := [allocAt 10, allocAt 11, allocAt 12, .cmbPut (at2 0 40 13), .cmbPut (at2 0 42 13), .cmbFree (at1 13),
      .cmbFree (at1 14)]) demoB_ready (by decide +kernel) i hi, by fin_cases hi <;> decide +kernel⟩, by decide +kernel, by decide +kernel,
    by decide +kernel, by decide +kernel, issuing_all (by decide +kernel) (by decide +kernel), by decide +kernel,
    by unfold State.hasRoom; decide +kernel, by decide +kernel, by decide +kernel⟩

/-- Context 1 with page 0 held: device DRAM from address 0, all accesses. -/
def ctxM : Context := { ctx0 with ttb2 := 1, tlb := [⟨0, false, 0x1D⟩] }
/-- Lanes 0 and 1 are held at 64, lane 2 at 72, the others have ended; every counter of the port is at its limit. -/
def warpJ : Warp :=
  { warp0 with lanes := [{ pc := 64, st := .held, passed := 64 }, { pc := 64, st := .held }, { pc := 72, st := .held }] ++ List.replicate 29 { st := .ended }
               readyCycles := 2048, loopCount := 16, iss := 1, prf := 0 }
def demoJ : State := { demo with ctxs := [ctxM], warps := [warpJ], cur := none }
/-- A warp out of the active set with a ready record, and one that waits for line 2. -/
def recJ : Record := { seq := 0, lanes := [1], pc := 72, state := .ready }
def warpI : Warp := { warp0 with records := [recJ], active := false }
def demoI : State := { demo with warps := [warpI], cur := none }
def recL : Record := { seq := 0, lanes := [1], pc := 72, wait := .fill [2] }
def demoN : State := { demo with warps := [{ warp0 with records := [recL] }], cur := none }
theorem test_premises_WarpEventResults :
    (∃ bs, demoJ.readMainBytes ctxM (0x1000 + 64) (2 ^ 202 + demoJ.fresh) .fill 8 = .ok bs) ∧ demoJ.ctx? 1 = some ctxM ∧
    31 < (demoJ.die 1).cores.length ∧ demoJ.warp? 7 = some warpJ ∧ warpJ.lanes.length = 32 ∧ (∀ l < 32, (warpJ.lane l).st ≠ .runnable) ∧
    ((warpJ.lane 0).st = .held ∧ (warpJ.lane 0).pc = 64 ∧ ∀ l < 32, (warpJ.lane l).st = .held → 64 ≤ (warpJ.lane l).pc) ∧
    64 ≤ (warpJ.lane 0).passed ∧ 2048 ≤ warpJ.readyCycles ∧ 16 ≤ warpJ.loopCount ∧ warpJ.prf < warpJ.made ∧
    ((demoI.reenterers 0 0).head? = some warpI ∧ demoI.rtWaits 0 0 = false ∧
      demoI.unitsUsed 0 0 + warpI.footprint / 32 ≤ Config.fastUnits ∧ demoI.activeOn 0 0 < Config.activeWarps) ∧
    { warp0 with records := [recL] } ∈ demoN.warpsOn 0 0 ∧ recL.state = .waiting ∧ recL.wait = .fill [2] :=
  ⟨⟨_, rfl⟩, by decide +kernel, by decide +kernel, by decide +kernel, by decide +kernel, by decide +kernel, by decide +kernel,
    by decide +kernel, by decide, by decide, by decide +kernel, by decide +kernel, by decide +kernel, rfl, rfl⟩

/-- Records of one warp: timed waits for a ticket and for a word, a chained request, a traversal step, a texture sample,
a gather, and a ready one with a result. -/
def valsOf (a b : List Word) : List LaneVals := [{ lane := 0, a := a, b := b, c := [], d := [] }]
def recs : List Record :=
  [{ seq := 1, lanes := [0], pc := 72, tmo := 0, wait := .ticket 1 },
   { seq := 2, lanes := [1], pc := 72, tmo := 4, wait := .word false 0x100 0 5 none, instr := some (.waitAddr (fo (v 100) (v 1) (v 3) 0))
     vals := [{ lane := 1, a := [5], b := [0x100], c := [], d := [] }] },
   { seq := 3, lanes := [0], pc := 72, wait := .det 64 0 0, instr := some (.atm (fo (v 100) (v 1) (v 3) 0x20)), vals := valsOf [5] [0x100] },
   { seq := 4, lanes := [0], pc := 72, wait := .traversal, instr := some (.trvStep (fo (v 100) (v 0) (v 60) 0))
     vals := valsOf [] ((List.replicate 12 0) ++ [0x40000000, 0xFFFFFFFF, 0xFFFFFFFF, 0xFFFFFFFF, 0, 0]) },
   { seq := 5, lanes := [0], pc := 72, wait := .texture, instr := some (.texSmp (fo (v 100) (v 40) (v 3) 0)), vals := valsOf [0, 0, 0] [0x100] },
   { seq := 6, lanes := [0], pc := 72, wait := .gather, instr := some (.sampGth (fo (v 100) (v 40) (v 3) 0)), vals := valsOf [0] [1] },
   { seq := 7, lanes := [4], pc := 72, state := .ready, saved := [{ lane := 4, gen := 1, fpx := 2, regs := regsOf [(9, 9)] }]
     exempt := [9], results := [⟨4, 100, 1⟩] }]
def warpS : Warp := { warp0 with records := recs }
def demoS : State := { demo with ctxs := [ctxM], warps := [warpS], cur := none }
def recAt (k : Nat) : Record := recs.getD k { seq := 0, lanes := [], pc := 0 }
theorem test_premises_RecordEventResults :
    demoS.warp? 7 = some warpS ∧ (∀ k < 7, warpS.record? (k + 1) = some (recAt k)) ∧
    (∀ k < 2, (recAt k).state = .waiting ∧ (recAt k).tmo ≠ 31 ∧ (recAt k).wait.timed = true ∧
      (BitVec.ofNat 32 (demoS.ctxClk 1) - (recAt k).deadline).toNat < 2 ^ 31) ∧ (recAt 0).wait = .ticket 1 ∧
    (warpS.lanes.length = 32 ∧ demoS.serves warpS = true ∧ demoS.mayRun warpS = true ∧ demoS.givesWay warpS = false ∧ demoS.resumed.contains 7 = false ∧ ({ demoS with resumed := [7] } : State).resumed.contains 7 = true ∧ warpS.nextReady = some (recAt 6) ∧ (recAt 6).lanes.Nodup ∧
      (recAt 6).results.Pairwise (fun a b => ¬ (a.lane = b.lane ∧ a.reg = b.reg)) ∧ (recAt 6).saved.map (·.lane) = (recAt 6).lanes) ∧
    (demoS.requestTurn warpS 64 0 0 = true ∧ demoS.blockers warpS false 4 [0x100] = [] ∧ demoS.inImage (.spad 0) 0x100 4 = false ∧
      ((recAt 2).vals.map (·.lane)).Nodup ∧ (recAt 2).place = .slow ∧ demoS.hasSpace (.spad 0)) ∧
    (∀ u ∈ (recAt 3).vals, (demoS.travLane warpS (.trvStep (fo (v 100) (v 0) (v 60) 0)) (demoS.peerBase + 2 ^ 16 * u.lane) u).trap = none ∧
      (demoS.travLane warpS (.trvStep (fo (v 100) (v 0) (v 60) 0)) (demoS.peerBase + 2 ^ 16 * u.lane) u).waits = false) ∧
    (∃ ws ps, demoS.sampleTexture warpS ctxM (demoS.texDesc warpS 0x100) (demoS.peerBase + 64 * 0) 0 0 0 = .ok ws ps) ∧ demoS.ownedLines warpS false 0x100 32 = [] ∧ (recAt 5).wait = .gather ∧ demoS.gatherWaits 0 1 false = false ∧
    (∀ k < 7, (recAt k).old = {}) ∧ (demoS.ctxs.map (·.id)).Nodup :=
  ⟨by decide +kernel, by decide +kernel, by decide +kernel, rfl, by decide +kernel, by unfold State.hasSpace; decide +kernel, by decide +kernel, ⟨_, _, rfl⟩, by decide +kernel, rfl,
    by decide +kernel, by decide +kernel, by decide +kernel⟩

/-- A tick is due with credit for no pick, and for one in a grid whose entries all have priority 1. -/
def demoTick (rate : Nat) : State :=
  { demo with realTime := 36000
              dies := demo.dies.modify 0 (fun d => { d with render := { d.render with rate := rate, rayl := 0x80, tw := 1, th := 1, map := [(0, 1)] } }) }
/-- Scan-out is on: band 0's request and its scan are due; with a slot for band 0. -/
def demoScan (en : Bool) (bands : List BandSlot) : State :=
  { demo with realTime := 10 ^ 12
              dies := demo.dies.modify 0 (fun d => { d with render := { d.render with souEn := en, tw := 1, th := 1, recl := 0, bands := bands } }) }
def noBands : List BandSlot := List.replicate 4 {}
def oneBand (acks : Nat) : List BandSlot := [{ opened := true, band := 0, acks := acks }, {}, {}, {}]
theorem test_premises_PickerAndScanEventResults :
    (∀ rate ∈ [1, 16], let r := ((demoTick rate).die 0).render
      36000 * (r.pt + 1) ≤ (demoTick rate).realTime ∧ r.rayPending = none ∧ r.prbPending = none ∧ r.rate ≠ 0 ∧ r.credit + r.rate < 32) ∧
    (16 ≤ ((demoTick 16).die 0).render.credit + ((demoTick 16).die 0).render.rate ∧
      ((demoTick 16).modRender 0 (fun r => { r with pt := r.pt + 1, credit := r.credit + r.rate })).bestTile 0 = some 0) ∧
    (∀ en ∈ [false, true], let d := (demoScan en noBands).die 0
      d.scans = true ∧ d.scanAt d.render.nextReq ≤ 10 ^ 12 + 16 * d.render.rql * d.rowTime ∧ d.render.bands.length = 4 ∧ d.render.souEn = en ∧
      d.render.nextScan < d.bandCount ∧ d.scanAt d.render.nextScan ≤ 10 ^ 12) ∧
    ((demoScan true noBands).renderOwner 0 = some ctx0 ∧ ctx0.windowOk 0 0 128 false = true) ∧
    (∀ a ∈ [0, 1], ((oneBand a).getD 0 {}).opened = true ∧ ((oneBand a).getD 0 {}).band = ((demoScan true (oneBand a)).die 0).render.nextScan) ∧
    ((demoScan true noBands).die 0).render.tw ≤ ((oneBand 1).getD 0 {}).acks ∧ ((oneBand 0).getD 0 {}).acks < ((demoScan true noBands).die 0).render.tw :=
  ⟨by decide +kernel, by decide +kernel, by decide +kernel, by decide +kernel, by decide +kernel, by decide +kernel, by decide +kernel⟩

/-- A pending warp of one pick that is 4 ticks old, with a launch record at window offset 0x80, and without one. -/
def renderP (rayl : Word) : Render :=
  { (demo.die 0).render with ownerV := true, ownerCtx := 1, tw := 1, th := 1, pt := 3, rayl := rayl, rayPending := some { picks := [⟨0, 1, 2, 3⟩] } }
theorem test_premises_PickerAndScanEventResults_pending :
    (renderP 0).pending false = some { picks := [⟨0, 1, 2, 3⟩] } ∧ (renderP 0).pending true = none ∧ (renderP 0).pt = 3 ∧
      (renderP 0).rate = 0 ∧ (renderP 0).credit = 0 ∧ (renderP 0).recordAt false = 0 ∧ (renderP 0x80).recordAt false = 0x80 :=
  ⟨rfl, rfl, rfl, by decide +kernel, by decide +kernel, rfl, rfl⟩

/-- Copies: to shared memory, to main memory at 0x40 (held) and 0x10000 (not present), to the other die, one whose line is
released, one with a completion word; a clear and a forwarded record. -/
def copyTo (dir dst ctl : Nat) (rel : List LineKey) : CopyOp :=
  { weights := false, desc := fields [(4, dir + ctl), (4, 64), (8, 0x2000), (8, dst), (24, 0), (4, 0x60), (4, 9), (8, 0)]
    slot := 0, seq := 1, base := 0, otherBase := 0, released := rel }
def opOf (oid : Nat) (k : OpKind) : EngineOp := { oid := oid, die := 0, core := 0, ctx := 1, wid := 7, block := some 5, colour := 2, kind := k }
def opsX : List EngineOp :=
  [opOf 50 (.copy (copyTo 4 0x200 0 [])), opOf 51 (.copy (copyTo 3 0x40 0 [])), opOf 52 (.copy (copyTo 6 0x100 0 [])),
   opOf 53 (.copy (copyTo 4 0x200 0 [.shared 5 4])), opOf 54 (.copy (copyTo 4 0x200 64 [.shared 5 4])), opOf 55 (.copy (copyTo 3 0x10000 0 [])),
   opOf 56 (.clear 0 128 []), opOf 57 (.forward 0 (List.replicate 16 1))]
def demoX (owner : Bool) : State :=
  { demo with ctxs := [ctxM], cur := none, ops := opsX, owned := [⟨.shared 5 4, [.op 50]⟩, ⟨.weight 5 0, [.op 56]⟩]
              dies := demo.dies.modify 1 (fun d => { d with render := { d.render with ownerV := owner, ownerCtx := 1, tw := 1, th := 1 } }) }
theorem test_premises_CopyEventResults :
    (∀ k < 6, ∃ o c, (demoX true).liveCopy (50 + k) = some (o, c)) ∧
    ((demoX true).owns (.op 50) (.shared 5 4) = true ∧ (demoX true).sourceFree (opsX.getD 0 openOp) (copyTo 4 0x200 0 []) (List.range 64) = true ∧
      (demoX true).firstFault (opsX.getD 0 openOp) (copyTo 4 0x200 0 []) = none ∧ cpBb (copyTo 4 0x200 0 []).desc = false ∧
      ((LineKey.shared 5 4) ∈ spaceLines (.shared 5) (0 + cpTo (copyTo 4 0x200 0 []).desc 0) 1 ∧ ((copyTo 4 0x200 0 []).place (opsX.getD 0 openOp) .shared) = (.shared 5, 0) ∧ ((demoX true).block? 5).isSome = true) ∧ (demoX true).noImages) ∧
    ((dirSides (cpDir (copyTo 3 0x40 0 []).desc)).2 = .main ∧ (demoX true).sourceFree (opsX.getD 1 openOp) (copyTo 3 0x40 0 []) (List.range 64) = true ∧
      (demoX true).firstFault (opsX.getD 1 openOp) (copyTo 3 0x40 0 []) = none ∧ cpTo (copyTo 3 0x40 0 []).desc 63 / 64 = 1 ∧
      (ctxM.tlb.find? (fun e => e.page == 64 * 1 / 2 ^ 16)).isSome = true) ∧
    ((dirSides (cpDir (copyTo 6 0x100 0 []).desc)).2 = .other ∧ (copyTo 6 0x100 0 []).remote = false) ∧
    ((copyTo 4 0x200 0 [.shared 5 4]).wrote (opsX.getD 3 openOp) 64 = true ∧ cpCw (copyTo 4 0x200 0 []).desc = false ∧
      (copyTo 4 0x200 64 [.shared 5 4]).wrote (opsX.getD 4 openOp) 64 = true ∧ cpCw (copyTo 4 0x200 64 []).desc = true ∧
      cpCwd (copyTo 4 0x200 64 []).desc = false ∧ (demoX true).firstFault (opsX.getD 4 openOp) (copyTo 4 0x200 64 [.shared 5 4]) = none) ∧
    ((demoX true).firstFault (opsX.getD 5 openOp) (copyTo 3 0x10000 0 []) = some (0, 0x18, 0x10000) ∧
      (copyTo 3 0x10000 0 []).wrote (opsX.getD 5 openOp) 0 = true) ∧
    ((demoX true).op? 56 = some (opOf 56 (.clear 0 128 [])) ∧ (demoX true).owns (.op 56) (.weight 5 0) = true ∧
      ∀ k ∈ (demoX true).linesOfOwner (.op 56), k = .weight 5 0) ∧
    ((demoX true).op? 57 = some (opOf 57 (.forward 0 (List.replicate 16 1))) ∧ ((demoX true).die 1).render.inGrid 0 = true ∧
      (demoX true).ringPlace 1 0 false = some 0 ∧ (demoX true).opLevel (opOf 57 (.forward 0 [])) = false ∧ (demoX false).ringPlace 1 0 false = none ∧ (demoX true).slotOwned 1 0 0 = false ∧
      { demoX true with owned := [⟨.spad 1 0, [.op 99]⟩] }.slotOwned 1 0 0 = true) ∧
    ((∀ k ∈ spaceLines (.spad 0) 0x60 4, (demoX true).isOwned k = false) ∧
      (∃ k ∈ spaceLines (.spad 0) 0x60 4, { demoX true with owned := [⟨.spad 0 0, [.op 99]⟩] }.isOwned k = true) ∧
      (let c := copyTo 6 0x100 0x140 []
       cpCwd c.desc = true ∧ cpDir c.desc = 6 ∧ cpCw c.desc = true ∧ ctxM.windowOk 1 (cpCwOff c.desc) 4 false = true ∧ cpCwOff c.desc % 4 = 0) ∧
      ctxM.windowOk 1 0x10000 4 false = false ∧ (∀ o ∈ opsX, o.old = {}) ∧ ((demoX true).ctxs.map (·.id)).Nodup) :=
  ⟨fun k hk => by interval_cases k <;> exact ⟨_, _, rfl⟩, ⟨by decide +kernel, by decide +kernel, by decide +kernel, by decide +kernel, by decide +kernel,
      by unfold State.noImages; decide +kernel⟩, by decide +kernel, by decide +kernel, by decide +kernel, by decide +kernel, by decide +kernel,
    by decide +kernel, by decide +kernel⟩

/-- Copies with a byte barrier at shared 0x80: to shared memory, to main memory, from an address not present, and one whose
completion word lies outside the other die's window. -/
def copyBb (dir src dst cwoff : Nat) (wr : List Nat) (rel : List LineKey) : CopyOp :=
  { weights := false, desc := fields [(4, dir + 0x1C0), (4, 64), (8, src), (8, dst), (24, 0), (4, cwoff), (4, 9), (4, 0x80), (4, 0)]
    slot := 0, seq := 1, base := 0, otherBase := 0, written := wr, released := rel }
def opsBb : List EngineOp :=
  [opOf 50 (.copy (copyBb 4 0x2000 0x200 0x60 [] [])), opOf 51 (.copy (copyBb 3 0x2000 0x40 0x60 [] [])),
   opOf 52 (.copy (copyBb 3 0x2000 0x10000 0x60 [] [])), opOf 53 (.copy (copyBb 6 0x2000 0x40 0x10000 [] [.spad 1 0]))]
def demoBb : State := { demo with ctxs := [ctxM], cur := none, ops := opsBb, owned := [⟨.shared 5 4, [.op 50]⟩] }
def bbAt (k : Nat) : EngineOp × CopyOp := (demoBb.liveCopy (50 + k)).getD (openOp, copyBb 0 0 0 0 [] [])
theorem test_premises_ByteBarrierArrivals :
    (∀ k < 4, (demoBb.liveCopy (50 + k)).isSome = true ∧ cpBb (bbAt k).2.desc = true ∧ (bbAt k).1.old = {}) ∧ demoBb.hasSpace (.shared 5) ∧
    (demoBb.owns (.op 50) (.shared 5 4) = true ∧ demoBb.sourceFree (bbAt 0).1 (bbAt 0).2 (List.range 64) = true ∧
      demoBb.firstFault (bbAt 0).1 (bbAt 0).2 = none ∧ (spaceLines (.shared 5) (0 + cpTo (bbAt 0).2.desc 0) 1).contains (.shared 5 4) = true ∧
      ∀ i < 64, 0x80 + 16 ≤ cpTo (bbAt 0).2.desc i) ∧ demoBb.noImages ∧
    (demoBb.firstFault (bbAt 1).1 (bbAt 1).2 = none ∧ 1 ∉ (bbAt 1).2.written ∧ cpTo (bbAt 1).2.desc 0 / 64 = 1 ∧
      demoBb.sourceFree (bbAt 1).1 (bbAt 1).2 (List.range 64) = true) ∧
    (demoBb.firstFault (bbAt 2).1 (bbAt 2).2 = some (0, 0x18, 0x10000) ∧ (bbAt 2).2.wrote (bbAt 2).1 0 = true) ∧
    (demoBb.firstFault (bbAt 3).1 (bbAt 3).2 = none ∧ (bbAt 3).2.wrote (bbAt 3).1 64 = true ∧ cpCw (bbAt 3).2.desc = true ∧
      cpCwd (bbAt 3).2.desc = true ∧ cpDir (bbAt 3).2.desc = 6 ∧ ctxM.windowOk 1 0x10000 4 false = false) :=
  ⟨by decide +kernel, by unfold State.hasSpace; decide +kernel, by decide +kernel, by unfold State.noImages; decide +kernel,
    by decide +kernel, by decide +kernel, by decide +kernel⟩

/-- Parameters of a 16 by 16 by 16 operation: register mode at v512, and drained into queue 0. -/
def mmBlock (drain : Bool) : List Byte :=
  fields [(4, if drain then 0x1000 else 0), (2, 16), (2, 16), (2, 16), (2, if drain then 0 else 512), (4, 0), (4, 0x200), (4, 32), (8, 0), (4, 0), (4, 32), (24, 0)]
def opM (oid : Nat) (drain started : Bool) : EngineOp := opOf oid (.matrix { params := mmBlock drain, ticket := 1, started := started })
def demoMat (o : EngineOp) (rs : List Record) : State :=
  { demo with cur := none, ops := [o], warps := [{ warp0 with records := rs }] }
def recQ : Record := { seq := 1, lanes := [0], pc := 72, wait := .mxq 0, instr := some (.mxqPop (fo (v 100) (v 0) (v 0) 0)) }
/-- Slots: 0 is open for experts 7 and 8 with expert 7 arrived, 1 released, 2 open and past its deadline, 3 closed. -/
def slotOf (k : Nat) (st : SlotState) : CmbSlot :=
  { slot := k, state := st, seq := 1, ctx := 1, experts := [7, 8], gates := [0, 0], width := 4, base := 0, out := 0x3100, stage := 0x3200 + 0x80 * k }
def slots4 : List CmbSlot :=
  [{ slotOf 0 .opened with arr := 1 }, slotOf 1 .released, { slotOf 2 .opened with deadline := some 0 }, { slotOf 3 .closed with out := 0x3180 }]
def putTo (h expert width : Nat) (landing : Option Nat) : OpKind :=
  .put { handle := h, source := 0x5000, expert := expert, width := width, f16 := false, landing := landing }
def demoPut (k : OpKind) : State :=
  { demo with cur := none, ops := [opOf 50 k]
              owned := (slotOf 0 .opened).lines 0 |>.map (fun l => ⟨l, [.slot 0 0]⟩)
              dies := demo.dies.modify 0 (fun d => { d with slots := slots4 }) }
def demoRel : State :=
  { demo with cur := none, dies := demo.dies.modify 0 (fun d => { d with slots := [{ slotOf 3 .closed with out := 0x3180 }] })
              owned := ({ slotOf 3 .closed with out := 0x3180 } : CmbSlot).lines 0 |>.map (fun l => ⟨l, [.slot 0 3]⟩) }
theorem test_premises_MatrixAndCombineEventResults :
    ((demoMat (opM 50 false false) []).op? 50 = some (opM 50 false false) ∧
      (∀ x ∈ mmAExtents (mmBlock false), ∀ k ∈ spaceLines (.shared 5) x.1 x.2, (demoMat (opM 50 false false) []).isOwned k = false) ∧
      (∀ x ∈ mmBExtents (mmBlock false), ∀ k ∈ spaceLines (.weight 5) x.1 x.2, (demoMat (opM 50 false false) []).isOwned k = false)) ∧
    ((demoMat (opM 50 true true) []).op? 50 = some (opM 50 true true) ∧ mmDrain (mmBlock true) = true ∧ 0 < mmM (mmBlock true) ∧
      (demoMat (opM 50 true true) []).block? 5 = some block0 ∧ (demoMat (opM 50 true true) []).waiters (waitsMxq 5 0) = [] ∧
      (demoMat (opM 50 true true) [recQ]).waiters (waitsMxq 5 0) = [({ warp0 with records := [recQ] }, recQ)]) ∧
    ((demoMat (opM 50 false true) []).warp? 7 = some warp0 ∧
      ((demoMat (opM 50 false true) []).matrixOps 0 0).head?.map (·.1.oid) = some 50 ∧ mmDrain (mmBlock false) = false) ∧
    ((demoPut (putTo 0x4000 8 4 none)).liveSlot 1 0x4000 = some (0, { slotOf 0 .opened with arr := 1 }) ∧ [7, 8].idxOf? 8 = some 1 ∧ bitOf 1 1 = false ∧
      (∀ k ∈ [putTo 0x4000 8 4 none, putTo 5 8 4 none], (demoPut k).sourceReady (opOf 50 k) (.spad 0) 0x5000 4 = true) ∧
      (demoPut (putTo 0x4000 8 4 none)).putAhead (opOf 50 (putTo 0x4000 8 4 none))
        { handle := 0x4000, source := 0x5000, expert := 8, width := 4, f16 := false, landing := none } = [] ∧
      (demoPut (putTo 0x4000 8 4 none)).landing 0x4000 = [] ∧ (demoPut (putTo 5 8 4 none)).liveSlot 1 5 = none ∧
      (demoPut (putTo 0x4001 8 4 none)).liveSlot 1 0x4001 = some (0, slotOf 1 .released) ∧ bitOf 1 0 = true ∧ [7, 8].idxOf? 7 = some 0) ∧
    ((demoPut (putTo 0x4000 8 4 (some 1))).slotHasLines 0 { slotOf 0 .opened with arr := 1 } = true ∧
      (demoPut (putTo 0x4000 8 4 (some 1))).putAhead (opOf 50 (putTo 0x4000 8 4 (some 1)))
        { handle := 0x4000, source := 0x5000, expert := 8, width := 4, f16 := false, landing := some 1 } = [] ∧
      (demoPut (putTo 0x4000 8 4 (some 1))).sourceReady (opOf 50 (putTo 0x4000 8 4 (some 1))) (.spad 0) 0x5000 16 = true ∧ 1 ||| 2 ^ 1 = 2 ^ [7, 8].length - 1) ∧
    (((demoPut (putTo 5 8 4 none)).slot 0 2).state = .opened ∧ ((demoPut (putTo 5 8 4 none)).slot 0 2).deadline = some 0) ∧
    (demoRel.releaseTurn 0 (demoRel.slot 0 3) = true ∧ demoRel.noImages) :=
  ⟨by decide +kernel, by decide +kernel, by decide +kernel, by decide +kernel, by decide +kernel, by decide +kernel,
    by unfold State.noImages; decide +kernel⟩

/-- Context 1 with a window of 1 MiB, a spill area of 512 KiB from 0x80000, page 0 held, and deques: core 0 at 0x4000 with
an entry, core 1 at 0x5000 with one, the others empty at 0x6000. -/
def ctxW (trapv : Word) : Context :=
  let half : CtxDie := { spl := 0x100000, csab := 0x80000, csal := 0x80000
                         dqb := 0x4000 :: 0x5000 :: List.replicate 30 0x6000, dql := List.replicate 32 0x80 }
  { ctx0 with dies := [half, half], ttb2 := 1, tlb := [⟨0, false, 0x1D⟩], trapv := trapv }
/-- A kernel image at 0 (entry 64, 32 registers) and launch records at 0x1000. -/
def dramW : Memory := memOf [(0, fields [(4, 0x4B574B48), (4, 64), (2, 32)]), (0x1000, fields [(9, 0), (1, 0x20), (1, 0), (1, 1)])]
def queueW (tail : Word) (cls : Nat) : Queue := { base0 := 0x1000, en := true, swIn := true, cls := cls, ctx := 1, tail := tail }
def launchW : Launch :=
  { lid := 3, kind := .queue 0 0, ctx := 1, die := 0, lrec := { cls := 2, nblk := 2 }, image := { regs := 32, entry := 64 }, phase := .placing }
def demoW (spad : List (Nat × List Byte)) (trapv : Word) : State :=
  { demo with ctxs := [ctxW trapv], dram := dramW, queues := [queueW 1 2, queueW 3 2, queueW 1 1, { queueW 0 2 with en := false, swIn := false }]
              launches := [launchW], blocks := [], warps := [], cur := none
              dies := demo.dies.modify 0 (fun d => { d with spad := memOf spad, clkr := 2 ^ 20 }) }
def taskTcb : List Byte := fields [(4, 64), (32, 7), (9, 0), (1, 0x20), (2, 1)]
/-- Both cores have a task; core 0 has none. -/
def spadOwn : List (Nat × List Byte) :=
  [(0x1000, taskTcb), (0x1040, taskTcb), (0x4000, fields [(4, 0), (4, 1), (56, 0), (4, 0x1000)]), (0x5000, fields [(4, 0), (4, 1), (56, 0), (4, 0x1040)])]
def spadFar : List (Nat × List Byte) :=
  [(0x1040, taskTcb), (0x5000, fields [(4, 0), (4, 1), (56, 0), (4, 0x1040)])]
/-- A user warp parked with trap 0x10. -/
def recK : Record :=
  { seq := 0, before := true, state := .faulted, inPlace := true, lanes := [0], pc := 64, trap := 0x10, faddr := 0x100000, place := .slot 0, size := 64 }
def demoPark (trapv : Word) : State := { demoW [] trapv with warps := [{ warp0 with segment := 0x80000, records := [recK] }] }
/-- Blocks that drain and that are to be saved, a launch of class RT with a lane set on its core. -/
def demoBlk (r : Residency) : State := { demoW [] 0 with blocks := [{ block0 with residency := r }] }
def launchRt : Launch := { launchW with lrec := { cls := 0, nblk := 1 } }
def demoRt : State := { demoW [] 0 with launches := [launchRt], warps := [warp0] }
theorem test_premises_WorkEventResults_dispatch :
    (demoW spadOwn 0).ownTaskFits 0 0 1 = true ∧ (demoW spadOwn 0).dqPeek (coreWarp 0 0 1) 0 true = some 0x1000 ∧ 0x1000 + 64 ≤ 0x4000 ∧
      (demoW spadOwn 0).launches.find? (fun l => l.ctx == 1 && l.die == 0 &&
        l.tag == (demoW spadOwn 0).tcbField (coreWarp 0 0 1) 0x1000 60 2 && l.running) = some launchW := by
  decide +kernel
theorem test_premises_WorkEventResults_noImages : (demoW spadOwn 0).noImages := by unfold State.noImages; decide +kernel
theorem test_premises_WorkEventResults_steal :
    (demoW spadFar 0).ownTaskFits 0 0 1 = false ∧ (demoW spadFar 0).victim 0 0 1 = some 1 ∧
      (demoW spadFar 0).dqPeek (coreWarp 0 0 1) 1 false = some 0x1040 := by
  decide +kernel
theorem test_premises_WorkEventResults_handler (v : Word) :
    (demoPark v).ctx? 1 = some (ctxW v) ∧ (ctxW v).escalated = none ∧ (demoPark v).handlersOn 1 0 < 16 ∧
      recK.state = .faulted ∧ recK.dispatched = false ∧ (demoPark v).undispatched 1 0 = [({ warp0 with segment := 0x80000, records := [recK] }, recK)] :=
  ⟨rfl, rfl, by show (0 : Nat) < 16; decide, rfl, rfl, rfl⟩
def imageW : Option (Image × Bool) × State := (demoPark 0x800).readImage 1 0
theorem test_premises_WorkEventResults_handlerImage :
    imageW.1.isSome = true ∧ lowestCore (fun k => imageW.2.warpsFit 0 k { units := (imageW.1.getD ({}, true)).1.regs / 32, warps := 1 }) = some 0 ∧
      (imageW.2.findSegments 1 0 1 []).isSome = true := by
  decide +kernel
def procW : Option (List Byte) × State := (demoW [] 0).procRead 1 (0x1000 + 128 * 0) 128
def recordW : LaunchRecord := recordOf (procW.1.getD [])
def launchReadW := procW.2.readLaunch 1 recordW
theorem test_premises_WorkEventResults_records :
    (∀ q < 3, ((demoW [] 0).queue q).pending = true) ∧ 2 ^ ((demoW [] 0).queue 1).log2n < (3 - 0 : Word).toNat ∧
      procW.1.isSome = true ∧ recordW.list = false ∧ (demoW [] 0).launchReason 1 0 2 recordW launchReadW.1 launchReadW.2.1 = 0 ∧
      (demoW [] 0).launchReason 1 0 1 recordW launchReadW.1 launchReadW.2.1 ≠ 0 := by
  decide +kernel
theorem test_premises_WorkEventResults_place :
    ((demoW [] 0).launch? 3 = some launchW ∧ ((demoW [] 0).placeOrder 0).head? = some launchW ∧ launchW.phase ≠ .waiting ∧ launchW.isSample = false ∧
      (demoW [] 0).restarts launchW = [] ∧ (demoW [] 0).coreFor launchW = some 0 ∧ ((demoW [] 0).findSegments 1 0 launchW.need.warps []).isSome = true) ∧
    (demoRt.placeOrder 0 = [launchRt] ∧ launchRt.rtCore ≠ some 0 ∧ demoRt.rtCoreFor launchRt = some 0 ∧ (demoRt.warps.map (·.wid)).Nodup) := by
  decide +kernel
theorem test_premises_WorkEventResults_switch :
    ((demoBlk (.draining 0)).block? 5 = some { block0 with residency := .draining 0 } ∧ 0 + 2 ^ 20 ≤ ((demoBlk (.draining 0)).die 0).clkr) ∧
    ((demoBlk .saving).quietBlock { block0 with residency := .saving } = true ∧
      ((demoBlk .saving).imagePlace { block0 with residency := .saving }).isSome = true) ∧ (∀ o ∈ (demoBlk .saving).ops, o.fault = none) ∧
    (((demoW [] 0).queue 0).en = true ∧ ((demoW [] 0).queue 3).en = false ∧ ((demoW [] 0).queue 3).switching = .idle ∧ (demoW [] 0).queues.length = 4) := by
  decide +kernel

/-- The pending warp's record is accepted: context 1's image is at 0. -/
def demoPend : State :=
  let s := demoW [(0x80, fields [(9, 0), (1, 0x20), (1, 0), (1, 1)])] 0
  { s with realTime := 36000 * 4, dies := s.dies.modify 0 (fun d => { d with render := renderP 0x80 }) }
def recordP : LaunchRecord := recordOf (demoPend.bytesAt (.spad 0) (0 + 0x80) 128)
def readP := (demoPend.modRender 0 (fun r => { r with pt := r.pt + 1 }.setPending false none)).readLaunch 1 recordP
theorem test_premises_PickerAndScanEventResults_launch :
    36000 * 4 = demoPend.realTime ∧ demoPend.renderOwner 0 = some (ctxW 0) ∧ (ctxW 0).windowOk 0 0x80 128 false = true ∧ recordP.list = false ∧ readP.1.isSome = true ∧
      readP.2.1.isSome = true ∧ readP.2.2.launchReason 1 0 recordP.cls recordP readP.1 readP.2.1 = 0 := by
  decide +kernel

/-- A watchdog at its limit, an escalated context, a descriptor at 0 of context 2 with a window of 64 KiB at 64 KiB. -/
def demoY : State :=
  { demo with ctxs := [{ ctx0 with wdgEn := true, wdgK := 10, wdgCount := 1024, escalated := some (7, 0) }], ctxa0 := 0, cur := none
              dram := memOf [(0, fields [(4, 2), (4, 0x10000), (4, 0x10000)])], queues := [{ en := true, ctx := 3 }] }
/-- Its dump has begun, and has written so many sections. -/
def demoDump (n : Nat) : Context := { ctx0 with escalated := some (7, 0), dumping := some { next := n } }
theorem test_premises_ContextEventResults :
    (∃ c, demoY.ctx? 1 = some c ∧ c.wdgEn = true ∧ c.wdgCount = 2 ^ c.wdgK.toNat ∧ demoY.unfinished 1 = true ∧ c.escalated ≠ none ∧ c.dumped = false) ∧
    1 ∈ demoY.errorCtxs (.core 0 0) ∧ 1 ∈ demoY.errorCtxs (.slice 0 0) ∧ 1 ∈ demoY.errorCtxs (.dram 1) ∧ 1 ∈ demoY.workingOn 0 ∧
    demoY.quiet (((demoY.warps.filter (fun w => w.ctx == 1)).map (·.wid)).contains) = true ∧ (∀ w ∈ demoY.warps, w.ctx = 1 → w.reading = false) ∧
    (demoDump 0).dumping = some {} ∧ ((demoDump 5).dumping.map (·.next)) = some 5 ∧
    (demoY.descOk 2 ((List.range 128).map (fun k => Cells.get demoY.dram (0 + k))) = true ∧
      demoY.descOk 1 ((List.range 128).map (fun k => Cells.get demoY.dram (0 + k))) = false) ∧
    ((demoY.ctx? 1).isSome = true ∧ ¬ (∃ q ∈ demoY.queues, q.ctx = 1 ∧ (q.en = true ∨ q.swIn = true)) ∧ demoY.ctx? 4 = none ∧
      ∃ q ∈ demoY.queues, q.ctx = 3 ∧ (q.en = true ∨ q.swIn = true)) ∧ 110 ≤ 110 := by
  refine ⟨⟨_, rfl, ?_⟩, ?_, ?_, ?_, ?_, ?_, ?_, ?_, ?_, ?_, ⟨?_, ?_, ?_, { en := true, ctx := 3 }, List.mem_singleton.mpr rfl, rfl, .inl rfl⟩, ?_⟩ <;>
    decide +kernel

/-- A context that has escalated a record in slot 0, with a dump begun. -/
def warpU : Warp :=
  { warp0 with records := [{ recF with exempt := [4] }], spill := [(33, 1#1 ++ 7#32)], lanes := List.replicate 32 { lane0 with st := .parked } }
def demoU : State := { demo with warps := [warpU], cur := none }
theorem test_premises_DumpContents :
    (fields [(120, 7)]).length = 120 ∧ (demoDump 0).id < 2 ^ 16 ∧ demoU.warp? 7 = some warpU ∧ warpU.record? 0 = some { recF with exempt := [4] } ∧
    (demoDump 0).escalated = some (7, 0) ∧ recF.place = .slot 0 ∧ recF.inPlace = true ∧ (warpS.record? 7).isSome = true ∧
    (((recAt 6).saved.map (·.lane)).Nodup ∧ (recAt 6).inPlace = false) ∧ block0.mxqs.length = 4 ∧ block0.holdsMxq = true ∧
    ((demoDump 0).dumping.map (·.early)).getD [] = [] ∧ (∀ x ∈ warpU.spill, x.1 < 8192) ∧ Cells.wf warpU.spill = true ∧
    (ctx0.window 0 = (0, 0x10000) ∧ warpU.segment + 0x8000 ≤ 0x10000) ∧ demoK.warp? opK.wid = some warpK := by
  constructorm* _ ∧ _ <;> decide +kernel

/-- Channels of kind CSI-2, I3C with a period, and I3C without one: units of 64 bytes, a ring of 4, words at 0x40. -/
def channelOf (kind period : Nat) : Sensor :=
  { words := [BitVec.ofNat 32 (1 + kind * 2 ^ 16), 0x100, 64, 4, 0x40, 0xFFFFFFFF, BitVec.ofNat 32 period, 0], units := 5 }
/-- The same with a byte barrier at 0x80. -/
def channelBb : Sensor := { channelOf 1 0 with words := (channelOf 1 0).words.set 5 0x80 }
def unitS : SensorUnit := { port := 0, channel := 0, select := 0, lines := 0, payload := List.replicate 48 9 }
def demoSen : State :=
  { demo with cur := none, bootState := 4, modeDue := some true, realTime := 10 ^ 10
              dies := demo.dies.modify 0 (fun d => { d with sensors := [channelOf 1 0, channelOf 2 9, channelOf 2 0] }) }
theorem test_premises_HostAndDeviceEventResults :
    (∀ k < 3, let x := demoSen.channel 0 k
      demoSen.ctx? x.ctx = some ctx0 ∧ 64 ≤ x.usz ∧ x.usz % 64 = 0 ∧ x.nu ≠ 0 ∧ x.base % 16 = 0 ∧ 48 ≤ x.usz - 16 ∧ x.cwoff % 4 = 0 ∧
        x.bboff = 0xFFFFFFFF ∧ ctx0.windowOk 0 x.cwoff 4 false = true) ∧ ctx0.residentOn 0 = true ∧ (demoSen.die 0).sensors.length = 3 ∧
    ((demoSen.channel 0 0).kind = 1 ∧ (demoSen.channel 0 1).kind = 2 ∧ (demoSen.channel 0 1).period ≠ 0 ∧ (demoSen.channel 0 2).kind = 2 ∧
      (demoSen.channel 0 2).period = 0) ∧ demoSen.noImages ∧
    (∀ k < 3, let x := demoSen.channel 0 k
      x.port = unitS.port ∧ x.channel = unitS.channel ∧ x.select = unitS.select ∧ x.lines = unitS.lines ∧ x.since + 36000 * x.period ≤ demoSen.realTime ∧
        demoSen.unitOwned 0 k (.unit 100) unitS = false ∧ { demoSen with owned := [⟨.spad 0 2, [.op 99]⟩] }.unitOwned 0 k (.unit 100) unitS = true ∧
        ∀ y ∈ spaceLines (.spad 0) 0x40 4, demoSen.isOwned y = false) ∧ demoSen.sensorWaiting = [] ∧ demoSen.mailbox.length = 256 ∧
    (∀ b ∈ [0, 1, 2, 3], ({ demoSen with bootState := b } : State).bootState = b) ∧
    (demoSen.hostWaiting = [] ∧ demoSen.barFree 0xFFFF 1 = true ∧ demoSen.inSomeWindow (0xFFFF / 2 ^ 27) (0xFFFF % 2 ^ 27) = true ∧
      demoSen.inSomeWindow 0 0x10000 = false ∧ 2 ≤ demoSen.dies.length) ∧
    (channelBb.bboff % 16 = 0 ∧ ctx0.windowOk 0 channelBb.bboff 16 false = true ∧
      channelBb.bboff + 16 ≤ channelBb.base + channelBb.usz * (channelBb.units % channelBb.nu) ∧ channelBb.cwoff + 4 ≤ channelBb.bboff) ∧
    ((demoSen.queue 0).en = false ∧ (demoSen.queue 0).swIn = false ∧ 15 < demoSen.queues.length) ∧ demoSen.modeDue = some true ∧
    demoSen.bootState = 4 ∧ demoSen.temp < 90 ∧ (List.replicate 32 (0 : Byte)).length = 32 ∧ 2 ^ 36 - 1 + [(7 : Byte)].length ≤ 2 ^ 36 := by
  unfold State.noImages
  constructorm* _ ∧ _ <;> decide +kernel

/-- Well-formed instructions in each form. -/
theorem test_premises_EncodingsRoundTrip :
    (∀ i ∈ [Instr.iadd { dab with pred := ⟨v 639, true, 31⟩, rep := some ⟨64, 7, 7, 7⟩ }, .mov (xo (v 639) (v 0) 0xFFFFFFFF 0),
      .bcp (fx (v 0) (v 0) (.inl (-128)) 0 63 31 7 0), .imad (fx (v 0) (.inl 127) (.resv 1023) 3 0 0 0 0x3FF)],
      i.operands.form ≠ .h) ∧ Instr.wellFormed (.iadd { dab with pred := ⟨v 639, true, 31⟩, rep := some ⟨64, 7, 7, 7⟩ }) = true ∧
    Instr.wellFormed (.mov (xo (v 639) (v 0) 0xFFFFFFFF 0)) = true ∧ Instr.wellFormed (.imad (fx (v 0) (.inl 127) (.resv 1023) 3 0 0 0 0x3FF)) = true ∧
    decodeWords [0xC268100051000000, 0x3F880000] = .one (.mov (xo (v 8) (v 0) 0x3F880000 0)) 2 := by
  decide +kernel

theorem test_premises_PairsRoundTrip :
    Instr.wellFormed (.iadd (ho (v 255) (v 255) (.inl 127) 3)) = true ∧ Instr.wellFormed (.stSh (ho (v 0) (v 9) (v 2) 0)) = true ∧
    decodeWords [0x8084_8040_140C_01C0] = .pair (some (.iadd (ho (v 9) (v 9) (v 2) 0))) (some (.fmul (ho (v 12) (v 12) (v 7) 0))) ∧
    staticLegal (.iadd (ho (v 9) (v 9) (v 2) 0)) = true ∧ staticLegal (.fmul (ho (v 12) (v 12) (v 7) 0)) = true := by
  decide +kernel

theorem test_premises_MalformedWordsRefused :
    (0xF000000000000000 < 2 ^ 64 ∧ 0xF000000000000000 / 2 ^ 60 = 15) ∧ (0xE200000000000000 / 2 ^ 60 = 14 ∧ 2 ≤ 0xE200000000000000 / 2 ^ 56 % 16) ∧
    (0xE00C900000000001 / 2 ^ 56 = 14 * 16 ∧ 0xE00C900000000001 % 2 ^ 41 ≠ 0) ∧ (0xE100000100000000 / 2 ^ 56 = 14 * 16 + 1 ∧ 0xE100000100000000 / 2 ^ 32 % 2 ^ 24 ≠ 0) ∧
    (0xE00C900000000000 % 2 ^ 41 = 0 ∧ 0x80848040140C01C0 / 2 ^ 62 = 2) ∧
    (0xE100000000000100 / 2 ^ 56 = 14 * 16 + 1 ∧ 0xE100000000000100 / 2 ^ 32 % 2 ^ 24 = 0) ∧ (0xC2001401D1000001 / 2 ^ 61 = 6 ∧ 0xC2001401D1000001 % 256 ≠ 0) ∧
    (0xC2001401D1000000 % 256 = 0 ∧ 0x100000000 / 2 ^ 32 ≠ 0) ∧ 0x09E0000000510000 < 2 ^ 63 ∧ mkInstr (0x09E0000000510000 / 2 ^ 53) none_ = none := by
  decide +kernel

/-- A word at PC 64 in the cache of core 0, port 0's turn; an event at the head of the agenda. -/
def demoStep : State :=
  { demo with warps := [{ warp0 with lanes := lane0 :: List.replicate 31 { st := .ended } }], cur := none, agenda := [.port 0 0 0]
              dies := demo.dies.modify 0 (fun d => { d with cores := d.cores.modify 0 (fun c => { c with icache := [⟨1, 0, 64, 0x0800280B9C819180⟩] }) }) }
def warpStep : Warp := { warp0 with lanes := lane0 :: List.replicate 31 { st := .ended } }
def setStep : (Nat × Nat × Nat) × List Nat := ((64, 0, 0), [0])
/-- The same warp on a port after another has issued in the cycle. -/
theorem test_premises_StepRunsTheDecodedInstruction_later :
    ({ demoStep with portsDone := [(0, 1, 0)] } : State).portsDone ≠ [] ∧
      ({ demoStep with portsDone := [(0, 1, 0)] } : State).portsDone.contains (0, 0, 0) = false := by
  decide +kernel

theorem test_premises_StepRunsTheDecodedInstruction :
    (let s0 : State := { demoStep with agenda := [] }
     demoStep.secondary = none ∧ demoStep.clocksStopped = false ∧ demoStep.portsDone.contains (0, 0, 0) = false ∧ s0.slotEvents.find? s0.changes = none ∧ s0.portOrder 0 0 0 = [warpStep] ∧ s0.readySets warpStep = [setStep] ∧
      setStep.1.1 < warpStep.image.codeStart + 8 ∧ s0.codeAt warpStep 64 = .cached 0x0800280B9C819180 ∧
      (∃ i, decodeWords [0x0800280B9C819180] = .one i 1) ∧ (Instr.warpBoost 7).isa? = none) :=
  ⟨by decide +kernel, by decide +kernel, by decide +kernel, by decide +kernel, by decide +kernel, by decide +kernel, by decide +kernel, by decide +kernel, ⟨_, rfl⟩, rfl⟩

/-- A register beyond the footprint traps at issue, with and without a handler entry; a register that an operation holds. -/
def demoHeld : State := { demo with ops := [opM 50 false false] }
theorem test_premises_IssueTrapsAndHeldRegisters :
    (demo.issueTrap warp0 (.mov (fo (v 639) (v 0) (.resv 700) 0)) = 3 ∧ (Instr.mov (fo (v 639) (v 0) (.resv 700) 0)).isa?.isSome = true ∧
      demo.ctx? 1 = some ctx0 ∧ ctx0.escalated = none ∧ demo.escalates ctx0 = [] ∧ (demo.ctxs.map (·.id)).Nodup ∧ ∀ l ∈ cur0.lanes, l < 32) ∧
    (demoH.cur = some { cur0 with lanes := [0] } ∧ (demoH.warp? 7).map (·.readBy { cur0 with lanes := [0] }) = some warpH ∧ warpH.supervisor = true ∧ demoH.escalates ctx0 = [] ∧
      demoH.issueTrap warpH (.mov (fo (v 639) (v 0) (.resv 700) 0)) = 3) ∧
    (demoHeld.issueTrap warp0 (.mov (fo (v 512) (v 0) (v 3) 0)) = 0 ∧ demoHeld.namesHeld warp0 (activeLanes demoHeld (.mov (fo (v 512) (v 0) (v 3) 0)) cur0 warp0) (.mov (fo (v 512) (v 0) (v 3) 0)) ≠ [] ∧
      demoHeld.hasRoom warp0 0) :=
  ⟨by decide +kernel, by decide +kernel, by decide +kernel, by decide +kernel, by unfold State.hasRoom; decide +kernel⟩

theorem test_premises_MemoriesStayCanonical : demoK.memoryOk = true ∧ ∃ t, step demoK = .next t := ⟨by decide +kernel, _, rfl⟩

end Sys2Proof.Tests
end

namespace Sys2Proof.Machine

/-! ## Bytes of on-die memories -/

theorem State.spaceBytes_eq (s : State) (sp : Space) (a n : Nat) :
    s.spaceBytes sp a n = (List.range n).map (fun j => s.byteAt sp (a + j)) := by
  cases sp with
  | shared b =>
    simp only [State.spaceBytes, State.byteAt, State.sharedAt]
    cases s.block? b <;> simp [Memory.readBytes_eq]
  | spad d => simp [State.spaceBytes, State.byteAt, State.spadAt, Memory.readBytes_eq]
  | weight b =>
    simp only [State.spaceBytes, State.byteAt, State.weightAt]
    cases s.block? b <;> simp [Memory.readBytes_eq]

theorem State.bytesToNat_spaceBytes (s : State) (sp : Space) (a n : Nat) :
    bytesToNat (s.spaceBytes sp a n) = s.numberAt sp a n := by
  rw [State.spaceBytes_eq, State.numberAt]

@[simp] theorem State.spacePut_warps (s : State) (sp : Space) (a : Nat) (bs : List Byte) :
    (s.spacePut sp a bs).warps = s.warps := by cases sp <;> rfl
@[simp] theorem State.spacePut_ctxs (s : State) (sp : Space) (a : Nat) (bs : List Byte) :
    (s.spacePut sp a bs).ctxs = s.ctxs := by cases sp <;> rfl
@[simp] theorem State.spacePut_dram (s : State) (sp : Space) (a : Nat) (bs : List Byte) :
    (s.spacePut sp a bs).dram = s.dram := by cases sp <;> rfl
@[simp] theorem State.spacePut_hostMem (s : State) (sp : Space) (a : Nat) (bs : List Byte) :
    (s.spacePut sp a bs).hostMem = s.hostMem := by cases sp <;> rfl

theorem State.bare_modBlock (s : State) (b : Nat) (f : Block → Block)
    (hf : ∀ x, ({ f x with shared := [], wb := [] } : Block) = { x with shared := [], wb := [] }) :
    (s.modBlock b f).bare = s.bare := by
  simp only [State.bare, State.modBlock, List.map_map]
  congr 1
  refine List.map_congr_left (fun x _ => ?_)
  simp only [Function.comp]
  split
  · exact hf x
  · rfl

theorem State.bare_modDie (s : State) (d : Nat) (f : Die → Die)
    (hf : ∀ x, ({ f x with spad := [] } : Die) = { x with spad := [] }) : (s.modDie d f).bare = s.bare := by
  simp only [State.bare, State.modDie]
  congr 1
  refine List.ext_getElem? (fun n => ?_)
  simp only [List.getElem?_map, List.getElem?_modify]
  cases s.dies[n]? with
  | none => rfl
  | some x =>
    simp only [Option.map_some]
    split
    · exact congrArg some (hf x)
    · rfl

@[simp] theorem State.bare_spacePut (s : State) (sp : Space) (a : Nat) (bs : List Byte) :
    (s.spacePut sp a bs).bare = s.bare := by
  cases sp with
  | shared b => exact s.bare_modBlock b _ (fun _ => rfl)
  | spad d => exact s.bare_modDie d _ (fun _ => rfl)
  | weight b => exact s.bare_modBlock b _ (fun _ => rfl)

theorem State.die_modDie (s : State) (d e : Nat) (f : Die → Die) :
    (s.modDie d f).die e = if d = e ∧ d < s.dies.length then f (s.die e) else s.die e := by
  simp only [State.die, State.modDie, List.getD_eq_getElem?_getD, List.getElem?_modify]
  by_cases h : d = e
  · subst h
    by_cases g : d < s.dies.length
    · simp [g]
    · simp [g]
  · simp [h]

theorem State.sharedAt_modBlock (s : State) (b q k : Nat) (f : Block → Block) (hf : ∀ x, (f x).bid = x.bid) :
    (s.modBlock b f).sharedAt q k =
      ((s.block? q).map (fun x => Cells.get (if q = b then f x else x).shared k)).getD 0 := by
  simp only [State.sharedAt, State.block?_modBlock s q b f hf, Option.map_map]
  rfl

theorem State.weightAt_modBlock (s : State) (b q k : Nat) (f : Block → Block) (hf : ∀ x, (f x).bid = x.bid) :
    (s.modBlock b f).weightAt q k =
      ((s.block? q).map (fun x => Cells.get (if q = b then f x else x).wb k)).getD 0 := by
  simp only [State.weightAt, State.block?_modBlock s q b f hf, Option.map_map]
  rfl

theorem State.spadAt_modDie (s : State) (d e k : Nat) (f : Die → Die) :
    (s.modDie d f).spadAt e k = if d = e ∧ d < s.dies.length then Cells.get (f (s.die e)).spad k else s.spadAt e k := by
  simp only [State.spadAt, State.die_modDie]
  split <;> rfl

/-- A byte outside the bytes put into an on-die memory reads as before. -/
theorem State.byteAt_spacePut_other (s : State) (sp q : Space) (a k : Nat) (bs : List Byte)
    (h : ¬ (q = sp ∧ a ≤ k ∧ k < a + bs.length)) : (s.spacePut sp a bs).byteAt q k = s.byteAt q k := by
  have out (m : Memory) (g : q = sp) : Cells.get (m.writeBytes a bs) k = Cells.get m k := by
    rw [Memory.get_writeBytes, if_neg (fun x => h ⟨g, x⟩)]
  cases sp with
  | shared b =>
    cases q with
    | shared c =>
      simp only [State.spacePut, State.byteAt]
      refine Eq.trans (State.sharedAt_modBlock s b c k _ (fun _ => rfl)) ?_
      rw [State.sharedAt]
      split
      · subst c; simp only [out _ rfl]
      · rfl
    | spad d => rfl
    | weight c =>
      simp only [State.spacePut, State.byteAt]
      refine Eq.trans (State.weightAt_modBlock s b c k _ (fun _ => rfl)) ?_
      rw [State.weightAt]
      split <;> rfl
  | spad d =>
    cases q with
    | shared c => rfl
    | spad e =>
      simp only [State.spacePut, State.byteAt]
      rw [State.spadAt_modDie]
      split
      · next g => exact out _ (by rw [g.1])
      · rfl
    | weight c => rfl
  | weight b =>
    cases q with
    | shared c =>
      simp only [State.spacePut, State.byteAt]
      refine Eq.trans (State.sharedAt_modBlock s b c k _ (fun _ => rfl)) ?_
      rw [State.sharedAt]
      split <;> rfl
    | spad d => rfl
    | weight c =>
      simp only [State.spacePut, State.byteAt]
      refine Eq.trans (State.weightAt_modBlock s b c k _ (fun _ => rfl)) ?_
      rw [State.weightAt]
      split
      · subst c; simp only [out _ rfl]
      · rfl

/-- A byte put into an on-die memory that exists is read back. -/
theorem State.byteAt_spacePut_same (s : State) (sp : Space) (a j : Nat) (bs : List Byte) (hs : s.hasSpace sp)
    (h : j < bs.length) : (s.spacePut sp a bs).byteAt sp (a + j) = bs.getD j 0 := by
  have wrote (m : Memory) : Cells.get (m.writeBytes a bs) (a + j) = bs.getD j 0 := by
    rw [Memory.get_writeBytes, if_pos (by omega), Nat.add_sub_cancel_left]
  cases sp with
  | shared b =>
    obtain ⟨x, hx⟩ := Option.isSome_iff_exists.mp hs
    simp only [State.spacePut, State.byteAt]
    refine Eq.trans (State.sharedAt_modBlock s b b (a + j) _ (fun _ => rfl)) ?_
    rw [hx]
    simpa using wrote x.shared
  | spad d =>
    simp only [State.spacePut, State.byteAt]
    rw [State.spadAt_modDie, if_pos ⟨rfl, hs⟩]
    exact wrote _
  | weight b =>
    obtain ⟨x, hx⟩ := Option.isSome_iff_exists.mp hs
    simp only [State.spacePut, State.byteAt]
    refine Eq.trans (State.weightAt_modBlock s b b (a + j) _ (fun _ => rfl)) ?_
    rw [hx]
    simpa using wrote x.wb

/-! ## Records in memory -/

/-- A header fills one slot (Table 9.4). -/
@[simp] theorem Record.length_header (r : Record) : r.header.length = 64 := by simp [Record.header]

theorem length_flatMap_const {α β : Type} (xs : List α) (f : α → List β) (n : Nat) (h : ∀ x ∈ xs, (f x).length = n) :
    (xs.flatMap f).length = xs.length * n := by
  rw [List.length_flatMap, List.map_congr_left h]
  simp

/-- A body holds 8 bytes for each lane and 128 for each register (Table 9.5). -/
@[simp] theorem Record.length_body (r : Record) (regs : List Nat) : (r.body regs).length = 256 + 128 * regs.length := by
  have lanes (f : Nat → List Byte) (n : Nat) (h : ∀ l, (f l).length = n) : ((List.range 32).flatMap f).length = 32 * n := by
    rw [length_flatMap_const _ f n (fun l _ => h l), List.length_range]
  simp only [Record.body, List.length_append]
  rw [lanes _ 8 (fun l => by split <;> simp), length_flatMap_const regs _ 128 (fun n _ => by
    rw [lanes _ 4 (fun l => by split <;> simp)])]
  omega

@[simp] theorem State.putRecord_warps (s : State) (w : Warp) (r : Record) : (s.putRecord w r).warps = s.warps := by
  unfold State.putRecord; split <;> simp
@[simp] theorem State.putRecord_ctxs (s : State) (w : Warp) (r : Record) : (s.putRecord w r).ctxs = s.ctxs := by
  unfold State.putRecord; split <;> simp
@[simp] theorem State.putRecord_dram (s : State) (w : Warp) (r : Record) : (s.putRecord w r).dram = s.dram := by
  unfold State.putRecord; split <;> simp
@[simp] theorem State.putRecord_hostMem (s : State) (w : Warp) (r : Record) : (s.putRecord w r).hostMem = s.hostMem := by
  unfold State.putRecord; split <;> simp
@[simp] theorem State.bare_putRecord (s : State) (w : Warp) (r : Record) : (s.putRecord w r).bare = s.bare := by
  unfold State.putRecord; split <;> simp

/-- Putting a record where it lies changes its own bytes alone. -/
theorem State.byteAt_putRecord (s : State) (w : Warp) (r : Record) (q : Space) (k : Nat)
    (h : ¬ (q = .spad w.die ∧ r.bytesAt w k)) : (s.putRecord w r).byteAt q k = s.byteAt q k := by
  unfold State.putRecord
  split
  · next b n hp =>
    refine State.byteAt_spacePut_other _ _ _ _ _ _ (fun ⟨g, lo, hi⟩ => h ⟨g, .inl ⟨b, n, hp, lo, ?_⟩⟩)
    simp only [List.length_append, Record.length_header, Record.length_body] at hi
    omega
  · next n hp =>
    refine State.byteAt_spacePut_other _ _ _ _ _ _ (fun ⟨g, lo, hi⟩ => h ⟨g, .inr ⟨n, hp, lo, ?_⟩⟩)
    simpa using hi
  · rfl

end Sys2Proof.Machine

namespace Sys2Proof.Machine

/-! ## Changes of warps and lanes -/

/-- A change that a projection does not see. -/
theorem map_modify_of_eq {α β : Type} (xs : List α) (n : Nat) (f : α → α) (g : α → β) (h : ∀ x, g (f x) = g x) :
    (xs.modify n f).map g = xs.map g := by
  refine List.ext_getElem? (fun k => ?_)
  simp only [List.getElem?_map, List.getElem?_modify]
  cases xs[k]? with
  | none => rfl
  | some x =>
    simp only [Option.map_eq_map, Option.map_some]
    split
    · rw [h]
    · rfl

theorem State.map_modWarp {β : Type} (s : State) (wid : Nat) (f : Warp → Warp) (g : Warp → β) (h : ∀ w, g (f w) = g w) :
    (s.modWarp wid f).warps.map g = s.warps.map g := by
  simp only [State.modWarp, List.map_map]
  refine List.map_congr_left (fun w _ => ?_)
  simp only [Function.comp]
  split
  · exact h w
  · rfl

theorem State.modWarp_self (s : State) (wid : Nat) : s.modWarp wid (fun w => w) = s := by
  simp [State.modWarp]

theorem State.modWarp_modWarp (s : State) (wid : Nat) (f g : Warp → Warp) (hf : ∀ w, (f w).wid = w.wid) :
    (s.modWarp wid f).modWarp wid g = s.modWarp wid (fun w => g (f w)) := by
  simp only [State.modWarp, List.map_map]
  congr 1
  refine List.map_congr_left (fun w _ => ?_)
  simp only [Function.comp]
  by_cases h : w.wid = wid
  · simp [h, hf]
  · simp [h]

theorem State.warp?_modWarp_same {s : State} {wid : Nat} {w : Warp} (hw : s.warp? wid = some w) (f : Warp → Warp)
    (hf : ∀ w, (f w).wid = w.wid) : (s.modWarp wid f).warp? wid = some (f w) := by
  simp [State.warp?_modWarp s wid wid f hf, hw]

theorem State.warp?_modWarp_other (s : State) {wid v : Nat} (h : v ≠ wid) (f : Warp → Warp)
    (hf : ∀ w, (f w).wid = w.wid) : (s.modWarp wid f).warp? v = s.warp? v := by
  simp [State.warp?_modWarp s v wid f hf, h]

/-- Warps that a projection does not tell apart are found alike, if it keeps their numbers. -/
theorem State.warp?_map_of_warps {s t : State} (g : Warp → Warp) (hg : ∀ w, (g w).wid = w.wid)
    (h : t.warps.map g = s.warps.map g) (v : Nat) : (t.warp? v).map g = (s.warp? v).map g := by
  have e (u : State) : (u.warp? v).map g = (u.warps.map g).find? (fun w => w.wid == v) := by
    rw [List.find?_map, State.warp?]
    congr 2
    funext w
    simp [hg]
  rw [e, e, h]

/-- A change of lanes that is the same made once and twice. -/
theorem Warp.lane_modLanes (w : Warp) (ls : List Nat) (f : Lane → Lane) (hf : ∀ x, f (f x) = f x) (k : Nat) :
    (w.modLanes ls f).lane k = if k ∈ ls ∧ k < w.lanes.length then f (w.lane k) else w.lane k := by
  induction ls generalizing w with
  | nil => simp [Warp.modLanes]
  | cons l ls ih =>
    have step : (w.modLanes (l :: ls) f) = (w.modLane l f).modLanes ls f := rfl
    rw [step, ih, Warp.lane_modLane, Warp.length_modLane]
    by_cases hl : k = l
    · subst hl
      by_cases hm : k ∈ ls <;> by_cases hk : k < w.lanes.length <;> simp [hm, hk, hf]
    · simp [hl]

@[simp] theorem Warp.still_modLanes (w : Warp) (ls : List Nat) (f : Lane → Lane) : (w.modLanes ls f).still = w.still :=
  Warp.still_foldl ls (fun _ => f) w
@[simp] theorem Warp.wid_modLanes (w : Warp) (ls : List Nat) (f : Lane → Lane) : (w.modLanes ls f).wid = w.wid :=
  Warp.wid_foldl ls (fun _ => f) w
@[simp] theorem Warp.length_modLanes (w : Warp) (ls : List Nat) (f : Lane → Lane) :
    (w.modLanes ls f).lanes.length = w.lanes.length := Warp.length_foldl ls (fun _ => f) w

/-- Warps that differ in their lanes alone. -/
theorem Warp.eq_of_still {a b : Warp} (h : a.still = b.still) : a = { b with lanes := a.lanes } :=
  congrArg (fun x : Warp => { x with lanes := a.lanes }) h

/-! ## Lanes that stop in a new record -/

/-- A lane that stands in a state at a position, whatever it held. -/
def Lane.stopped (st : LaneState) (pc half repc : Nat) (x : Lane) : Lane :=
  { x with st := st, pc := pc, half := half, repc := repc }

/-- A warp with one more record (R226). -/
def Warp.withRecord (w : Warp) (r : Record) : Warp :=
  { w with records := w.records ++ [r], seqNext := (w.seqNext + 1) % 2 ^ 32 }

/-- Lanes of a warp stop in a new record: what taking a trap (R223) and suspending (R217) have in common. -/
def State.stopIn (s : State) (wid : Nat) (ls : List Nat) (mk : Nat → Record) (st : LaneState) (pc half repc : Nat) : State :=
  (s.addRecord wid mk).modLanes wid ls (Lane.stopped st pc half repc)

@[simp] theorem Warp.wid_withRecord (w : Warp) (r : Record) : (w.withRecord r).wid = w.wid := rfl
@[simp] theorem Warp.lane_withRecord (w : Warp) (r : Record) (l : Nat) : (w.withRecord r).lane l = w.lane l := rfl

theorem State.addRecord_eq {s : State} {wid : Nat} {w : Warp} (hw : s.warp? wid = some w) (mk : Nat → Record) :
    s.addRecord wid mk = (s.modWarp wid (fun u => u.withRecord (mk w.seqNext))).putRecord w (mk w.seqNext) := by
  simp only [State.addRecord, hw]
  rfl

theorem State.warps_addRecord {s : State} {wid : Nat} {w : Warp} (hw : s.warp? wid = some w) (mk : Nat → Record) :
    (s.addRecord wid mk).warps = (s.modWarp wid (fun u => u.withRecord (mk w.seqNext))).warps := by
  rw [State.addRecord_eq hw, State.putRecord_warps]

@[simp] theorem State.addRecord_ctxs (s : State) (wid : Nat) (mk : Nat → Record) : (s.addRecord wid mk).ctxs = s.ctxs := by
  unfold State.addRecord
  split
  · rfl
  · simp only [State.putRecord_ctxs]
    rfl

section
variable {s : State} {wid : Nat} {w : Warp} (hw : s.warp? wid = some w) (ls : List Nat) (mk : Nat → Record)
  (st : LaneState) (pc half repc : Nat)
include hw

/-- The warps after lanes stopped: the warp has the record, and its lanes have stopped. -/
theorem State.warps_stopIn : (s.stopIn wid ls mk st pc half repc).warps =
    (s.modWarp wid (fun u => (u.withRecord (mk w.seqNext)).modLanes ls (Lane.stopped st pc half repc))).warps := by
  rw [← State.modWarp_modWarp s wid (fun u => u.withRecord (mk w.seqNext))
    (fun u => u.modLanes ls (Lane.stopped st pc half repc)) (fun _ => rfl)]
  simp only [State.stopIn, State.modLanes, State.modWarp, State.warps_addRecord hw]

theorem State.warp?_stopIn : (s.stopIn wid ls mk st pc half repc).warp? wid =
    some ((w.withRecord (mk w.seqNext)).modLanes ls (Lane.stopped st pc half repc)) := by
  rw [State.warp?, State.warps_stopIn hw]
  exact State.warp?_modWarp_same hw _ (fun _ => by simp)

theorem State.warp?_stopIn_other (v : Nat) (hv : v ≠ wid) : (s.stopIn wid ls mk st pc half repc).warp? v = s.warp? v := by
  rw [State.warp?, State.warps_stopIn hw]
  exact State.warp?_modWarp_other s hv _ (fun _ => by simp)

/-- Stopped lanes stand stopped, with all else they held; other lanes keep. -/
theorem State.laneAt_stopIn (lt : ∀ l ∈ ls, l < w.lanes.length) (v l : Nat) :
    (s.stopIn wid ls mk st pc half repc).laneAt v l =
      if v = wid ∧ l ∈ ls then (s.laneAt v l).stopped st pc half repc else s.laneAt v l := by
  by_cases hv : v = wid
  · subst hv
    simp only [State.laneAt, State.warp?_stopIn hw, hw, Option.map_some, Option.getD_some, true_and,
      Warp.lane_modLanes _ _ (Lane.stopped st pc half repc) (fun _ => rfl), Warp.lane_withRecord]
    by_cases hl : l ∈ ls
    · rw [if_pos ⟨hl, lt l hl⟩, if_pos hl]
    · rw [if_neg (fun x => hl x.1), if_neg hl]
  · simp only [State.laneAt, State.warp?_stopIn_other hw ls mk st pc half repc v hv, hv, false_and, if_false]

theorem State.recordless_stopIn : (s.stopIn wid ls mk st pc half repc).warps.map Warp.recordless =
    s.warps.map Warp.recordless := by
  rw [State.warps_stopIn hw]
  refine State.map_modWarp s wid _ _ (fun u => ?_)
  rw [Warp.eq_of_still (Warp.still_modLanes (u.withRecord (mk w.seqNext)) ls (Lane.stopped st pc half repc))]
  rfl

theorem State.bare_stopIn : (s.stopIn wid ls mk st pc half repc).bare = s.bare := by
  have e : (s.stopIn wid ls mk st pc half repc).bare = (s.addRecord wid mk).bare := rfl
  rw [e, State.addRecord_eq hw, State.bare_putRecord]
  rfl

/-- Only the bytes of the new record change. -/
theorem State.bytesKept_stopIn : BytesKept s (s.stopIn wid ls mk st pc half repc)
    (fun sp a => sp = .spad w.die ∧ (mk w.seqNext).bytesAt w a) := by
  have e : s.addRecord wid mk = _ := State.addRecord_eq hw mk
  refine ⟨fun a => ?_, fun a => ?_, fun sp a h => ?_⟩
  · have : (s.stopIn wid ls mk st pc half repc).dram = (s.addRecord wid mk).dram := rfl
    rw [this, e, State.putRecord_dram]
    rfl
  · have : (s.stopIn wid ls mk st pc half repc).hostMem = (s.addRecord wid mk).hostMem := rfl
    rw [this, e, State.putRecord_hostMem]
    rfl
  · have : (s.stopIn wid ls mk st pc half repc).byteAt sp a = (s.addRecord wid mk).byteAt sp a := by cases sp <;> rfl
    rw [this, e, State.byteAt_putRecord _ _ _ _ _ h]
    cases sp <;> rfl
end

end Sys2Proof.Machine

namespace Sys2Proof.Machine

/-! ## Taking a trap -/

/-- What the record of a trap says (R223, R425). -/
structure Record.OfTrap (r : Record) (ls : List Nat) (code pc half faddr event : Nat) : Prop where
  state : r.state = .faulted
  inPlace : r.inPlace = true
  before : r.before = true
  lanes : r.lanes = ls
  trap : r.trap = code
  pc : r.pc = pc
  half : r.half = half
  faddr : r.faddr = faddr
  event : r.event = event
  fresh : r.dispatched = false

/-- A trap stops its lanes in a faulted record in the lowest free slot of the fault page. -/
theorem State.park_stopIn {s : State} {wid : Nat} {w : Warp} (hw : s.warp? wid = some w) (ls : List Nat)
    (code pc half repc opc faddr event : Nat) :
    ∃ mk n, s.park wid ls code pc half repc opc faddr event =
        { s.stopIn wid ls mk .parked pc half repc with arrivals := n } ∧
      ∀ k, (mk k).seq = k ∧ (mk k).place = .slot w.freeSlot ∧ (mk k).OfTrap ls code pc half faddr event := by
  simp only [State.park, hw]
  exact ⟨_, _, rfl, fun k => ⟨rfl, rfl, ⟨rfl, rfl, rfl, rfl, rfl, rfl, rfl, rfl, rfl, rfl⟩⟩⟩

/-- The warp after one of its lane sets took a trap. -/
theorem State.warp?_park {s : State} {wid : Nat} {w : Warp} (hw : s.warp? wid = some w) (ls : List Nat)
    (code pc half repc opc faddr event : Nat) :
    ∃ r : Record, r.seq = w.seqNext ∧ r.OfTrap ls code pc half faddr event ∧
      (s.park wid ls code pc half repc opc faddr event).warp? wid =
        some ((w.withRecord r).modLanes ls (Lane.stopped .parked pc half repc)) := by
  obtain ⟨mk, n, e, hmk⟩ := State.park_stopIn hw ls code pc half repc opc faddr event
  obtain ⟨hseq, -, htrap⟩ := hmk w.seqNext
  exact ⟨_, hseq, htrap, by rw [e]; exact State.warp?_stopIn hw ls mk .parked pc half repc⟩

theorem State.laneAt_park {s : State} {wid : Nat} {w : Warp} (hw : s.warp? wid = some w) (ls : List Nat)
    (lt : ∀ l ∈ ls, l < w.lanes.length) (code pc half repc opc faddr event v l : Nat) :
    (s.park wid ls code pc half repc opc faddr event).laneAt v l =
      if v = wid ∧ l ∈ ls then (s.laneAt v l).stopped .parked pc half repc else s.laneAt v l := by
  obtain ⟨mk, n, e, -⟩ := State.park_stopIn hw ls code pc half repc opc faddr event
  rw [e]
  exact State.laneAt_stopIn hw ls mk .parked pc half repc lt v l

/-- Lanes that take a trap stand parked in one faulted record, and nothing else changes (R223). -/
theorem State.parks_park {s : State} {wid : Nat} {w : Warp} (hw : s.warp? wid = some w) (ls : List Nat)
    (lt : ∀ l ∈ ls, l < w.lanes.length) (code pc half repc opc faddr event : Nat) :
    Parks s (s.park wid ls code pc half repc opc faddr event) w ls code pc half faddr event := by
  obtain rfl := State.find_wid hw
  have lane := State.laneAt_park hw ls lt code pc half repc opc faddr event
  obtain ⟨r, -, hr, found⟩ := State.warp?_park hw ls code pc half repc opc faddr event
  obtain ⟨mk, n, e, hmk⟩ := State.park_stopIn hw ls code pc half repc opc faddr event
  have place := (hmk w.seqNext).2.1
  have bytes := State.bytesKept_stopIn hw ls mk .parked pc half repc
  have out (sp : Space) (a : Nat) (h : ¬ (sp = .spad w.die ∧ w.slotAddr w.freeSlot ≤ a ∧ a < w.slotAddr w.freeSlot + 64)) :
      (s.stopIn w.wid ls mk .parked pc half repc).byteAt sp a = s.byteAt sp a := by
    refine bytes.onDie sp a (fun ⟨hs, hb⟩ => h ⟨hs, ?_⟩)
    rcases hb with ⟨b, m, hp, -⟩ | ⟨k, hp, hk⟩
    · simp [place] at hp
    · obtain rfl : w.freeSlot = k := by simpa [place] using hp
      exact hk
  refine ⟨⟨fun l hl => ?_, _, r, found, ?_, hr.state, hr.inPlace, hr.before, hr.lanes, hr.trap, hr.pc, hr.half, hr.faddr,
    hr.event⟩, ?_, ?_, ?_, ?_, fun v hv => ?_, ?_, ?_⟩
  · rw [lane, if_pos ⟨rfl, hl⟩]
    rfl
  · rw [Warp.eq_of_still (Warp.still_modLanes _ _ _)]
    exact List.mem_append_right _ (List.mem_singleton_self r)
  · intro v l
    simp only [State.regAt, State.fpxAt, lane]
    split <;> exact ⟨fun _ => rfl, rfl, rfl⟩
  · rw [e]
    exact ⟨bytes.dram, bytes.host, fun b a => out (.shared b) a (by simp), fun b a => out (.weight b) a (by simp)⟩
  · intro v l h
    rw [lane, if_neg h]
  · rw [e]
    exact fun d a h => out (.spad d) a (by simpa using h)
  · rw [e]
    exact State.warp?_stopIn_other hw ls mk .parked pc half repc v hv
  · rw [e]
    exact State.recordless_stopIn hw ls mk .parked pc half repc
  · rw [e]
    exact congrArg (fun x : State => { x with arrivals := 0 }) (State.bare_stopIn hw ls mk .parked pc half repc)

@[simp] theorem State.park_ctxs (s : State) (wid : Nat) (ls : List Nat) (code pc half repc opc faddr event : Nat) :
    (s.park wid ls code pc half repc opc faddr event).ctxs = s.ctxs := by
  unfold State.park
  split
  · rfl
  · exact State.addRecord_ctxs _ _ _

/-- Further lane sets of a warp have taken traps: its records stand, parked lanes stay parked, and registers keep. -/
structure ParksOn (s t : State) (wid : Nat) : Prop where
  warp : ∀ w, s.warp? wid = some w → ∃ u, t.warp? wid = some u ∧ u.lanes.length = w.lanes.length ∧ ∀ r ∈ w.records, r ∈ u.records
  parked : ∀ l, (s.laneAt wid l).st = .parked → (t.laneAt wid l).st = .parked
  regs : ∀ v l n, t.regAt v l n = s.regAt v l n

theorem ParksOn.refl (s : State) (wid : Nat) : ParksOn s s wid where
  warp w hw := ⟨w, hw, rfl, fun _ h => h⟩
  parked _ h := h
  regs _ _ _ := rfl

theorem ParksOn.trans {s t u : State} {wid : Nat} (h : ParksOn s t wid) (g : ParksOn t u wid) : ParksOn s u wid where
  warp w hw := by
    obtain ⟨x, hx, lenx, recx⟩ := h.warp w hw
    obtain ⟨y, hy, leny, recy⟩ := g.warp x hx
    exact ⟨y, hy, leny.trans lenx, fun r hr => recy r (recx r hr)⟩
  parked l hl := g.parked l (h.parked l hl)
  regs v l n := (g.regs v l n).trans (h.regs v l n)

theorem State.parksOn_park {s : State} {wid : Nat} {w : Warp} (hw : s.warp? wid = some w) (ls : List Nat)
    (lt : ∀ l ∈ ls, l < w.lanes.length) (code pc half repc opc faddr event : Nat) :
    ParksOn s (s.park wid ls code pc half repc opc faddr event) wid := by
  have lane := State.laneAt_park hw ls lt code pc half repc opc faddr event
  obtain ⟨r, -, -, found⟩ := State.warp?_park hw ls code pc half repc opc faddr event
  refine ⟨fun w' hw' => ?_, fun l hl => ?_, fun v l n => ?_⟩
  · obtain rfl := Option.some.inj (hw.symm.trans hw')
    refine ⟨_, found, by simp [Warp.withRecord], fun q hq => ?_⟩
    rw [Warp.eq_of_still (Warp.still_modLanes _ _ _)]
    exact List.mem_append_left _ hq
  · rw [lane]
    split
    · rfl
    · exact hl
  · simp only [State.regAt, lane]
    split <;> rfl

/-! ## Traps of several lanes -/

/-- Groups of traps after one more trap. -/
theorem groupTraps_append (ts : List LaneTrap) (t : LaneTrap) :
    groupTraps (ts ++ [t]) =
      if (groupTraps ts).any (fun x => x.1.code == t.code) then
        (groupTraps ts).map (fun x => if x.1.code == t.code then (x.1, x.2 ++ [t.lane]) else x)
      else groupTraps ts ++ [(t, [t.lane])] := by
  rw [groupTraps, List.foldl_append]
  rfl

/-- Every trap is in a group of its code. -/
theorem mem_groupTraps (ts : List LaneTrap) : ∀ t ∈ ts, ∃ g ∈ groupTraps ts, g.1.code = t.code ∧ t.lane ∈ g.2 := by
  induction ts using List.reverseRecOn with
  | nil => simp
  | append_singleton ts x ih =>
    intro t ht
    rw [groupTraps_append]
    rcases List.mem_append.mp ht with ht | ht
    · obtain ⟨g, hg, hc, hl⟩ := ih t ht
      split
      · refine ⟨_, List.mem_map.mpr ⟨g, hg, rfl⟩, ?_⟩
        split
        · exact ⟨hc, List.mem_append_left _ hl⟩
        · exact ⟨hc, hl⟩
      · exact ⟨g, List.mem_append_left _ hg, hc, hl⟩
    · obtain rfl := List.mem_singleton.mp ht
      split
      · next any =>
        obtain ⟨g, hg, hc⟩ := List.any_eq_true.mp any
        refine ⟨_, List.mem_map.mpr ⟨g, hg, rfl⟩, ?_⟩
        rw [if_pos hc]
        exact ⟨by simpa using hc, List.mem_append_right _ (List.mem_singleton_self _)⟩
      · exact ⟨_, List.mem_append_right _ (List.mem_singleton_self _), rfl, List.mem_singleton_self _⟩

/-- A group is led by one of the traps, in that trap's lane, and holds lanes of traps. -/
theorem groupTraps_led (ts : List LaneTrap) :
    ∀ g ∈ groupTraps ts, g.1 ∈ ts ∧ g.2.head? = some g.1.lane ∧ ∀ l ∈ g.2, ∃ t ∈ ts, t.lane = l := by
  induction ts using List.reverseRecOn with
  | nil => simp [groupTraps]
  | append_singleton ts x ih =>
    have old : ∀ g ∈ groupTraps ts, g.1 ∈ ts ++ [x] ∧ g.2.head? = some g.1.lane ∧ ∀ l ∈ g.2, ∃ t ∈ ts ++ [x], t.lane = l := by
      intro g hg
      obtain ⟨hm, hh, hl⟩ := ih g hg
      exact ⟨List.mem_append_left _ hm, hh, fun l h => (hl l h).imp (fun _ y => ⟨List.mem_append_left _ y.1, y.2⟩)⟩
    intro g hg
    rw [groupTraps_append] at hg
    split at hg
    · obtain ⟨y, hy, rfl⟩ := List.mem_map.mp hg
      obtain ⟨hm, hh, hl⟩ := old y hy
      split
      · refine ⟨hm, by simp [hh], fun l h => ?_⟩
        rcases List.mem_append.mp h with h | h
        · exact hl l h
        · exact ⟨x, by simp, (List.mem_singleton.mp h).symm⟩
      · exact ⟨hm, hh, hl⟩
    · rcases List.mem_append.mp hg with hg | hg
      · exact old g hg
      · obtain rfl := List.mem_singleton.mp hg
        exact ⟨by simp, rfl, fun l h => ⟨x, by simp, (List.mem_singleton.mp h).symm⟩⟩

/-- Groups of lanes that park one after the other. -/
def State.parkGroups (s : State) (e : Env) (gs : List (LaneTrap × List Nat)) : State :=
  gs.foldl (fun s g => s.park e.c.wid g.2 g.1.code e.c.pc e.c.half (e.c.repcAt e.i) e.i.opcode g.1.faddr g.1.event) s

/-- Every group stands parked in a faulted record of its own trap; registers keep. -/
theorem State.parkGroups_spec (e : Env) (gs : List (LaneTrap × List Nat)) {s : State} {w : Warp}
    (hw : s.warp? e.c.wid = some w) (lt : ∀ g ∈ gs, ∀ l ∈ g.2, l < w.lanes.length) :
    ParksOn s (s.parkGroups e gs) e.c.wid ∧ ∀ g ∈ gs, ∃ u r, (s.parkGroups e gs).warp? e.c.wid = some u ∧ r ∈ u.records ∧
      r.OfTrap g.2 g.1.code e.c.pc e.c.half g.1.faddr g.1.event ∧
      ∀ l ∈ g.2, ((s.parkGroups e gs).laneAt e.c.wid l).st = .parked := by
  induction gs generalizing s w with
  | nil => exact ⟨ParksOn.refl s _, by simp⟩
  | cons g gs ih =>
    have ltg := lt g List.mem_cons_self
    have first := State.parksOn_park hw g.2 ltg g.1.code e.c.pc e.c.half (e.c.repcAt e.i) e.i.opcode g.1.faddr g.1.event
    obtain ⟨⟨parked, -⟩, -⟩ := State.parks_park hw g.2 ltg g.1.code e.c.pc e.c.half (e.c.repcAt e.i) e.i.opcode g.1.faddr g.1.event
    rw [State.find_wid hw] at parked
    obtain ⟨r, -, hr, found⟩ :=
      State.warp?_park hw g.2 g.1.code e.c.pc e.c.half (e.c.repcAt e.i) e.i.opcode g.1.faddr g.1.event
    have step : s.parkGroups e (g :: gs) = (s.park e.c.wid g.2 g.1.code e.c.pc e.c.half (e.c.repcAt e.i) e.i.opcode
      g.1.faddr g.1.event).parkGroups e gs := rfl
    rw [step]
    obtain ⟨later, rest⟩ := ih found (fun x hx l hl => by
      simpa [Warp.withRecord] using lt x (List.mem_cons_of_mem _ hx) l hl)
    refine ⟨first.trans later, fun x hx => ?_⟩
    rcases List.mem_cons.mp hx with rfl | hx
    · obtain ⟨u, hu, -, recs⟩ := later.warp _ found
      refine ⟨u, r, hu, recs r ?_, hr, fun l hl => later.parked l (parked l hl)⟩
      rw [Warp.eq_of_still (Warp.still_modLanes _ _ _)]
      exact List.mem_append_right _ (List.mem_singleton_self r)
    · exact rest x hx

/-- A lane that raises a trap stands parked in a faulted record of its code, led by the first such lane, whose FADDR and
EVENT it has (R425). -/
theorem State.raise_spec {s : State} {e : Env} {ts : List LaneTrap} {w : Warp} (hw : s.warp? e.c.wid = some w)
    (lt : ∀ t ∈ ts, t.lane < w.lanes.length) :
    ParksOn s (s.raise e ts) e.c.wid ∧ ∀ t ∈ ts, ∃ u r x, (s.raise e ts).warp? e.c.wid = some u ∧ r ∈ u.records ∧ t.lane ∈ r.lanes ∧
      r.OfTrap r.lanes t.code e.c.pc e.c.half x.faddr x.event ∧ x ∈ ts ∧ r.lanes.headD 0 = x.lane ∧
      ((s.raise e ts).laneAt e.c.wid t.lane).st = .parked := by
  have lts : ∀ g ∈ groupTraps ts, ∀ l ∈ g.2, l < w.lanes.length := by
    intro g hg l hl
    obtain ⟨t, ht, rfl⟩ := (groupTraps_led ts g hg).2.2 l hl
    exact lt t ht
  obtain ⟨on, each⟩ := State.parkGroups_spec e (groupTraps ts) hw lts
  refine ⟨on, fun t ht => ?_⟩
  obtain ⟨g, hg, hcode, hlane⟩ := mem_groupTraps ts t ht
  obtain ⟨u, r, hu, hr, trap, parked⟩ := each g hg
  obtain ⟨hfirst, hhead, -⟩ := groupTraps_led ts g hg
  have lanes := trap.lanes
  refine ⟨u, r, g.1, hu, hr, lanes ▸ hlane, ?_, hfirst, ?_, parked t.lane hlane⟩
  · rw [lanes, ← hcode]
    exact trap
  · rw [lanes, List.headD_eq_head?_getD, hhead]
    rfl

end Sys2Proof.Machine

namespace Sys2Proof.Machine

/-! ## Escalation -/

theorem mem_insertBy {α : Type} (lt : α → α → Bool) (x y : α) (ys : List α) : y ∈ insertBy lt x ys ↔ y = x ∨ y ∈ ys := by
  induction ys with
  | nil => simp [insertBy]
  | cons z zs ih =>
    rw [insertBy]
    split
    · simp
    · simp only [List.mem_cons, ih]
      tauto

/-- Sorting keeps the elements. -/
@[simp] theorem mem_sortBy {α : Type} (lt : α → α → Bool) (y : α) (xs : List α) : y ∈ sortBy lt xs ↔ y ∈ xs := by
  induction xs with
  | nil => simp [sortBy]
  | cons x xs ih => simp [sortBy, mem_insertBy, ih]

/-- What every step of a fold keeps, the fold keeps. -/
theorem foldl_keeps {σ α β : Type} (f : σ → α → σ) (g : σ → β) (h : ∀ s x, g (f s x) = g s) (xs : List α) (s : σ) :
    g (xs.foldl f s) = g s := by
  induction xs generalizing s with
  | nil => rfl
  | cons x xs ih => rw [List.foldl_cons, ih, h]

/-- What of a warp decides which of its records escalate (R426, R427). -/
def Warp.faults (w : Warp) : Nat × Nat × WarpKind × List Record :=
  (w.wid, w.ctx, w.kind, w.records.filter (fun r => r.state == .faulted && !r.dispatched))

theorem Warp.mem_faults (w : Warp) (r : Record) : r ∈ w.faults.2.2.2 ↔ r ∈ w.records ∧ r.state = .faulted ∧ r.dispatched = false := by
  simp [Warp.faults]

theorem State.mem_escalates (s : State) (c : Context) (p : Warp × Record) :
    p ∈ s.escalates c ↔ c.escalated = none ∧ p.1 ∈ s.warps ∧ p.1.ctx = c.id ∧ p.2 ∈ p.1.faults.2.2.2 ∧
      (p.1.kind = .handler ∨ c.trapv.toNat / 8 = 0) := by
  obtain ⟨w, r⟩ := p
  simp only [State.escalates, Warp.mem_faults]
  cases h : c.escalated with
  | some x => simp
  | none =>
    simp only [Option.isSome_none, Bool.false_eq_true, if_false, mem_sortBy, List.mem_flatMap, List.mem_filter, beq_iff_eq,
      List.mem_map, Prod.mk.injEq, Bool.and_eq_true, Bool.or_eq_true, Bool.not_eq_true', Warp.supervisor, true_and]
    constructor
    · rintro ⟨u, ⟨hu, hc⟩, q, ⟨hq, hf, hs⟩, rfl, rfl⟩
      exact ⟨hu, hc, ⟨hq, hf⟩, hs⟩
    · rintro ⟨hu, hc, ⟨hq, hf⟩, hs⟩
      exact ⟨w, ⟨hu, hc⟩, r, ⟨hq, hf, hs⟩, rfl, rfl⟩

/-- A record that is not faulted leaves what escalates. -/
theorem State.faults_addRecord (s : State) (wid : Nat) (mk : Nat → Record) (h : ∀ n, (mk n).state ≠ .faulted) :
    (s.addRecord wid mk).warps.map Warp.faults = s.warps.map Warp.faults := by
  cases hw : s.warp? wid with
  | none => simp only [State.addRecord, hw]
  | some w =>
    rw [State.warps_addRecord hw]
    exact State.map_modWarp s wid _ _ (fun u => by simp [Warp.faults, Warp.withRecord, List.filter_append, h])

theorem State.faults_modLanes (s : State) (wid : Nat) (ls : List Nat) (f : Lane → Lane) :
    (s.modLanes wid ls f).warps.map Warp.faults = s.warps.map Warp.faults :=
  State.map_modWarp s wid _ _ (fun u => by rw [Warp.eq_of_still (Warp.still_modLanes u ls f)]; rfl)

theorem State.faults_preemptSet (s : State) (wid : Nat) (x : (Nat × Nat × Nat) × List Nat) :
    (s.preemptSet wid x).warps.map Warp.faults = s.warps.map Warp.faults := by
  unfold State.preemptSet
  split
  · rfl
  · simp only
    split <;> rw [State.faults_modLanes, State.faults_addRecord _ _ _ (fun _ => by simp)]

theorem State.preemptSet_ctxs (s : State) (wid : Nat) (x : (Nat × Nat × Nat) × List Nat) :
    (s.preemptSet wid x).ctxs = s.ctxs := by
  unfold State.preemptSet
  split
  · rfl
  · simp only
    split <;> exact State.addRecord_ctxs _ _ _

theorem State.faults_preemptWarp (s : State) (wid : Nat) : (s.preemptWarp wid).warps.map Warp.faults = s.warps.map Warp.faults := by
  unfold State.preemptWarp
  split
  · rfl
  · exact foldl_keeps _ (fun s : State => s.warps.map Warp.faults) (fun s x => s.faults_preemptSet wid x) _ _

theorem State.preemptWarp_ctxs (s : State) (wid : Nat) : (s.preemptWarp wid).ctxs = s.ctxs := by
  unfold State.preemptWarp
  split
  · rfl
  · exact foldl_keeps _ State.ctxs (fun s x => s.preemptSet_ctxs wid x) _ _

/-- An escalation changes nothing of what else escalates. -/
theorem State.faults_escalate (s : State) (ctx wid seq : Nat) :
    (s.escalate ctx wid seq).warps.map Warp.faults = s.warps.map Warp.faults := by
  unfold State.escalate
  split
  · rfl
  · split
    · rfl
    · exact foldl_keeps _ (fun s : State => s.warps.map Warp.faults) (fun s (w : Warp) => s.faults_preemptWarp w.wid) _ _

theorem State.ctx?_preemptWarps (ws : List Warp) (s : State) (v : Nat) :
    (ws.foldl (fun s w => s.preemptWarp w.wid) s).ctx? v = s.ctx? v :=
  foldl_keeps _ (fun s : State => s.ctx? v) (fun s (w : Warp) => by simp only [State.ctx?, s.preemptWarp_ctxs]) _ _

theorem State.ctx?_modCtx_same {s : State} {ctx : Nat} {x : Context} (hx : s.ctx? ctx = some x) (f : Context → Context)
    (hf : ∀ x, (f x).id = x.id) : (s.modCtx ctx f).ctx? ctx = some (f x) := by
  rw [State.ctx?_modCtx s ctx ctx f hf, hx, Option.map_some, if_pos rfl]

theorem State.ctx?_modCtx_other (s : State) {ctx v : Nat} (h : v ≠ ctx) (f : Context → Context)
    (hf : ∀ x, (f x).id = x.id) : (s.modCtx ctx f).ctx? v = s.ctx? v := by
  simp [State.ctx?_modCtx s v ctx f hf, h]

/-- An escalation leaves other contexts. -/
theorem State.ctx?_escalate_other (s : State) (ctx wid seq v : Nat) (h : v ≠ ctx) : (s.escalate ctx wid seq).ctx? v = s.ctx? v := by
  unfold State.escalate
  split
  · rfl
  · split
    · rfl
    · simp only [State.ctx?_preemptWarps]
      exact s.ctx?_modCtx_other h _ (fun _ => rfl)

/-- An escalation names its record in its context (R443). -/
theorem State.ctx?_escalate {s : State} {ctx : Nat} {x : Context} (hx : s.ctx? ctx = some x) (hn : x.escalated = none) (wid seq : Nat) :
    ∃ y, (s.escalate ctx wid seq).ctx? ctx = some y ∧ y.escalated = some (wid, seq) := by
  simp only [State.escalate, hx, hn, Option.isSome_none, Bool.false_eq_true, if_false, State.ctx?_preemptWarps]
  exact ⟨_, State.ctx?_modCtx_same hx _ (fun _ => rfl), rfl⟩

/-- What escalates next in a context is a given record of a warp. -/
def State.Due (s : State) (ctx wid seq : Nat) : Prop :=
  ∃ x, s.ctx? ctx = some x ∧ x.escalated = none ∧ s.escalates x ≠ [] ∧ ∀ p ∈ s.escalates x, p.1.wid = wid ∧ p.2.seq = seq

/-- A context has escalated a record of a warp. -/
def State.Escalated (s : State) (ctx wid seq : Nat) : Prop := ∃ x, s.ctx? ctx = some x ∧ x.escalated = some (wid, seq)

/-- One context's part of `State.escalateDue`. -/
def State.escalateOne (s : State) (c : Context) : State :=
  match ((s.ctx? c.id).map s.escalates).getD [] with
  | [] => s
  | x :: _ => s.escalate c.id x.1.wid x.2.seq

theorem State.escalateDue_eq (s : State) : s.escalateDue = s.ctxs.foldl State.escalateOne s := rfl

/-- Warps that show the same faults have the same records due. -/
theorem State.mem_escalates_of_faults {s t : State} (h : t.warps.map Warp.faults = s.warps.map Warp.faults) {c : Context}
    {p : Warp × Record} (hp : p ∈ s.escalates c) : ∃ u, (u, p.2) ∈ t.escalates c ∧ u.wid = p.1.wid := by
  obtain ⟨hn, hw, hc, hr, hk⟩ := (s.mem_escalates c p).mp hp
  obtain ⟨u, hu, e⟩ := List.mem_map.mp (h ▸ List.mem_map_of_mem hw : p.1.faults ∈ t.warps.map Warp.faults)
  have wid : u.wid = p.1.wid := congrArg (·.1) e
  have ctx : u.ctx = p.1.ctx := congrArg (·.2.1) e
  have kind : u.kind = p.1.kind := congrArg (·.2.2.1) e
  exact ⟨u, (t.mem_escalates c _).mpr ⟨hn, hu, ctx.trans hc, e ▸ hr, kind ▸ hk⟩, wid⟩

theorem State.due_of_faults {s t : State} {ctx wid seq : Nat} (h : t.warps.map Warp.faults = s.warps.map Warp.faults)
    (hc : t.ctx? ctx = s.ctx? ctx) (hd : s.Due ctx wid seq) : t.Due ctx wid seq := by
  obtain ⟨x, hx, hn, some, all⟩ := hd
  refine ⟨x, hc.trans hx, hn, ?_, fun p hp => ?_⟩
  · obtain ⟨p, hp⟩ := List.exists_mem_of_ne_nil _ some
    obtain ⟨u, hu, -⟩ := State.mem_escalates_of_faults h hp
    exact List.ne_nil_of_mem hu
  · obtain ⟨u, hu, hw⟩ := State.mem_escalates_of_faults h.symm hp
    exact ⟨hw ▸ (all _ hu).1, (all _ hu).2⟩

theorem State.due_escalateOne_other {s : State} {c : Context} {ctx wid seq : Nat} (h : c.id ≠ ctx) (hd : s.Due ctx wid seq) :
    (s.escalateOne c).Due ctx wid seq := by
  unfold State.escalateOne
  split
  · exact hd
  · exact State.due_of_faults (s.faults_escalate _ _ _) (s.ctx?_escalate_other _ _ _ _ (Ne.symm h)) hd

theorem State.escalated_escalateOne {s : State} {c : Context} {ctx wid seq : Nat} (h : c.id = ctx) (hd : s.Due ctx wid seq) :
    (s.escalateOne c).Escalated ctx wid seq := by
  obtain ⟨x, hx, hn, some, all⟩ := hd
  subst h
  unfold State.escalateOne
  rw [hx, Option.map_some, Option.getD_some]
  split
  · next e => exact absurd e some
  · next p ps e =>
    obtain ⟨hw, hs⟩ := all p (e ▸ List.mem_cons_self)
    rw [hw, hs]
    exact State.ctx?_escalate hx hn wid seq

/-- A context escalates once. -/
theorem State.escalated_escalateOne_again {s : State} {c : Context} {ctx wid seq : Nat} (he : s.Escalated ctx wid seq) :
    (s.escalateOne c).Escalated ctx wid seq := by
  obtain ⟨x, hx, hm⟩ := he
  unfold State.escalateOne
  split
  · exact ⟨x, hx, hm⟩
  · next p ps e =>
    by_cases h : ctx = c.id
    · subst h
      have none : s.escalates x = [] := by simp [State.escalates, hm]
      simp [hx, none] at e
    · exact ⟨x, (s.ctx?_escalate_other _ _ _ _ h).trans hx, hm⟩

/-- What is due is escalated (R443). -/
theorem State.escalated_escalateDue {s : State} {ctx wid seq : Nat} (hd : s.Due ctx wid seq) : s.escalateDue.Escalated ctx wid seq := by
  have fold (cs : List Context) (s : State) :
      (s.Escalated ctx wid seq → (cs.foldl State.escalateOne s).Escalated ctx wid seq) ∧
      (s.Due ctx wid seq → ctx ∈ cs.map (·.id) → (cs.foldl State.escalateOne s).Escalated ctx wid seq) := by
    induction cs generalizing s with
    | nil => exact ⟨id, fun _ h => by simp at h⟩
    | cons c cs ih =>
      refine ⟨fun he => (ih _).1 (State.escalated_escalateOne_again he), fun hd hm => ?_⟩
      by_cases h : c.id = ctx
      · exact (ih _).1 (State.escalated_escalateOne h hd)
      · refine (ih _).2 (State.due_escalateOne_other h hd) ?_
        simpa [Ne.symm h] using hm
  rw [State.escalateDue_eq]
  obtain ⟨x, hx, -⟩ := id hd
  refine (fold s.ctxs s).2 hd (List.mem_map.mpr ⟨x, List.mem_of_find?_eq_some hx, ?_⟩)
  simpa using List.find?_some hx

/-- After a trap of a warp the new record is the one that is due, if none was before (R426, R427). -/
theorem State.due_park {s : State} {wid : Nat} {w : Warp} {x : Context} (hw : s.warp? wid = some w) (hx : s.ctx? w.ctx = some x)
    (hn : x.escalated = none) (none : s.escalates x = []) (now : w.supervisor = true ∨ x.trapv.toNat < 8) (ls : List Nat)
    (code pc half repc opc faddr event : Nat) :
    (s.park wid ls code pc half repc opc faddr event).Due w.ctx wid w.seqNext := by
  have hid : x.id = w.ctx := by simpa using List.find?_some hx
  obtain ⟨mk, n, e, hmk⟩ := State.park_stopIn hw ls code pc half repc opc faddr event
  obtain ⟨hseq, -, trap⟩ := hmk w.seqNext
  have warps : (s.park wid ls code pc half repc opc faddr event).warps.map Warp.faults =
      (s.modWarp wid (fun u => u.withRecord (mk w.seqNext))).warps.map Warp.faults := by
    rw [e, ← State.warps_addRecord hw]
    exact State.faults_modLanes _ _ _ _
  have keeps : (s.park wid ls code pc half repc opc faddr event).ctx? w.ctx = (s.modWarp wid (fun u =>
      u.withRecord (mk w.seqNext))).ctx? w.ctx := by
    simp only [State.ctx?, State.park_ctxs]
    rfl
  refine State.due_of_faults warps keeps ⟨x, hx, hn, List.ne_nil_of_mem (a := (w.withRecord (mk w.seqNext), mk w.seqNext)) ?_, ?_⟩
  · refine (State.mem_escalates _ _ _).mpr ⟨hn, ?_, hid.symm, ?_, ?_⟩
    · exact List.mem_of_find?_eq_some (State.warp?_modWarp_same hw _ (fun _ => rfl))
    · exact (Warp.mem_faults _ _).mpr ⟨List.mem_append_right _ (List.mem_singleton_self _), trap.state, trap.fresh⟩
    · refine now.imp (fun h => ?_) (fun h => by omega)
      exact beq_iff_eq.mp h
  · rintro ⟨u, r⟩ hp
    obtain ⟨-, hu, hc, hr, hk⟩ := (State.mem_escalates _ _ _).mp hp
    obtain ⟨v, hv, rfl⟩ := List.mem_map.mp hu
    have old (q : Record) (hq : q ∈ v.faults.2.2.2) (hvc : v.ctx = x.id) (hvk : v.kind = .handler ∨ x.trapv.toNat / 8 = 0) : False := by
      have := (s.mem_escalates x (v, q)).mpr ⟨hn, hv, hvc, hq, hvk⟩
      simp [none] at this
    by_cases hvw : v.wid = wid
    · simp only [hvw, beq_self_eq_true, if_true] at hc hr hk ⊢
      refine ⟨hvw, ?_⟩
      obtain ⟨hm, hf⟩ := (Warp.mem_faults _ _).mp hr
      rcases List.mem_append.mp hm with hm | hm
      · exact (old r ((Warp.mem_faults _ _).mpr ⟨hm, hf⟩) hc hk).elim
      · rw [List.mem_singleton.mp hm, hseq]
    · simp only [beq_iff_eq, hvw, if_false] at hc hr hk
      exact (old r hr hc hk).elim

end Sys2Proof.Machine

namespace Sys2Proof.Machine

/-! ## States that differ in positions and waiting folds -/

/-- A lane wherever it stands. -/
def Lane.placeless (x : Lane) : Lane := { x with pc := 0, half := 0, repc := 0 }

/-- A warp wherever its lanes stand, without the folds that wait their turn. -/
def Warp.placeless (w : Warp) : Warp := { w with folds := [], lanes := w.lanes.map Lane.placeless }

/-- A state has moved lanes of a warp on, or marked a fold of it that waits, and nothing else. -/
structure Ahead (s t : State) (wid : Nat) : Prop where
  still : t.still = s.still
  warps : t.warps.map Warp.placeless = s.warps.map Warp.placeless
  others : ∀ v, v ≠ wid → (t.warp? v).map Warp.latchless = (s.warp? v).map Warp.latchless

theorem Warp.lane_placeless (w : Warp) (l : Nat) : w.placeless.lane l = (w.lane l).placeless := by
  simp only [Warp.lane_eq, Warp.placeless, List.getElem?_map]
  cases w.lanes[l]? <;> rfl

theorem Warp.placeless_modLanes (w : Warp) (ls : List Nat) (f : Lane → Lane) (hf : ∀ x, (f x).placeless = x.placeless) :
    (w.modLanes ls f).placeless = w.placeless := by
  induction ls generalizing w with
  | nil => rfl
  | cons l ls ih =>
    have step : w.modLanes (l :: ls) f = (w.modLane l f).modLanes ls f := rfl
    rw [step, ih]
    simp only [Warp.placeless, Warp.modLane, map_modify_of_eq _ _ _ _ hf]

theorem State.ahead_modWarp (s : State) (wid : Nat) (f : Warp → Warp) (hid : ∀ w, (f w).wid = w.wid)
    (hf : ∀ w, (f w).placeless = w.placeless) : Ahead s (s.modWarp wid f) wid where
  still := rfl
  warps := State.map_modWarp s wid f _ hf
  others v hv := by rw [State.warp?_modWarp_other s hv f hid]

/-- The advance moves lanes on. -/
theorem State.ahead_advance (s : State) (c : Cur) : Ahead s (s.advance c) c.wid :=
  s.ahead_modWarp c.wid _ (fun w => Warp.wid_modLanes w _ _) (fun w => Warp.placeless_modLanes w _ _ (fun x => by split <;> rfl))

/-- What is still says all of what is bare. -/
theorem State.bare_of_still {s t : State} (h : t.still = s.still) : t.bare = s.bare := (congrArg State.bare h :)

theorem SameMemory.byteAt {s t : State} (h : SameMemory s t) (sp : Space) (a : Nat) : t.byteAt sp a = s.byteAt sp a := by
  cases sp with
  | shared b => exact h.shared b a
  | spad d => exact h.spad d a
  | weight b => exact h.weight b a

theorem SameMemory.bytesKept {s t : State} (h : SameMemory s t) (A : Space → Nat → Prop) : BytesKept s t A :=
  ⟨h.dram, h.host, fun sp a _ => h.byteAt sp a⟩

theorem BytesKept.trans {s t u : State} {A : Space → Nat → Prop} (h : BytesKept s t A) (g : BytesKept t u A) : BytesKept s u A where
  dram a := (g.dram a).trans (h.dram a)
  host a := (g.host a).trans (h.host a)
  onDie sp a n := (g.onDie sp a n).trans (h.onDie sp a n)

theorem BytesKept.mono {s t : State} {A B : Space → Nat → Prop} (h : BytesKept s t A) (sub : ∀ sp a, A sp a → B sp a) :
    BytesKept s t B := ⟨h.dram, h.host, fun sp a n => h.onDie sp a (fun x => n (sub sp a x))⟩

section
variable {s t : State} {wid : Nat} (h : Ahead s t wid)
include h

theorem Ahead.find {v : Nat} {w : Warp} (hw : s.warp? v = some w) : ∃ u, t.warp? v = some u ∧ u.placeless = w.placeless := by
  have e := State.warp?_map_of_warps Warp.placeless (fun _ => rfl) h.warps v
  rw [hw, Option.map_some, Option.map_eq_some_iff] at e
  exact e

theorem Ahead.find_back {v : Nat} {u : Warp} (hu : t.warp? v = some u) : ∃ w, s.warp? v = some w ∧ u.placeless = w.placeless := by
  have e := State.warp?_map_of_warps Warp.placeless (fun _ => rfl) h.warps v
  rw [hu, Option.map_some, eq_comm, Option.map_eq_some_iff] at e
  exact e.imp (fun _ x => ⟨x.1, x.2.symm⟩)

theorem Ahead.laneAt (v l : Nat) : (t.laneAt v l).placeless = (s.laneAt v l).placeless := by
  have e := State.warp?_map_of_warps Warp.placeless (fun _ => rfl) h.warps v
  have lane (u : State) : (u.laneAt v l).placeless = (((u.warp? v).map Warp.placeless).map (fun w => w.lane l)).getD { st := .ended } := by
    unfold State.laneAt
    cases u.warp? v with
    | none => rfl
    | some w => exact (w.lane_placeless l).symm
  rw [lane, lane, e]

theorem Ahead.lane (v l : Nat) : (∀ k, t.regAt v l k = s.regAt v l k) ∧ t.fpxAt v l = s.fpxAt v l ∧
    (t.laneAt v l).gen = (s.laneAt v l).gen ∧ (t.laneAt v l).still = (s.laneAt v l).still := by
  have e := h.laneAt v l
  exact ⟨fun k => (congrArg (fun x : Lane => x.reg k) e :), (congrArg Lane.fpx e :), (congrArg Lane.gen e :), (congrArg Lane.still e :)⟩

theorem Ahead.bytesKept (A : Space → Nat → Prop) : BytesKept s t A := (SameMemory.of_still h.still).bytesKept A

theorem Ahead.heldRegs (v : Nat) : t.heldRegs v = s.heldRegs v := (congrArg (fun x : State => x.heldRegs v) h.still :)

/-- A suspension that starts ahead of a state is one of the state. -/
theorem SuspendFrame.of_ahead {u : State} {ls : List Nat} {A : Space → Nat → Prop} {g : Warp → Warp} {k : State → State}
    (hg : ∀ w, g w = g w.placeless) (f : SuspendFrame t u wid ls A g k) : SuspendFrame s u wid ls A g k where
  lanes v l := by
    obtain ⟨regs, fpx, gen, still⟩ := h.lane v l
    obtain ⟨regs', fpx', gen', still'⟩ := f.lanes v l
    exact ⟨fun k => (regs' k).trans (regs k), fpx'.trans fpx, gen'.trans gen, fun n => (still' n).trans still⟩
  bytes := by
    refine (h.bytesKept _).trans (f.bytes.mono (fun sp a x => x.imp id (fun ⟨w, hw, hb⟩ => ?_)))
    obtain ⟨v, hv, e⟩ := h.find_back hw
    have : w.seqNext = v.seqNext := (congrArg Warp.seqNext e :)
    exact ⟨v, hv, this ▸ hb⟩
  warps := by
    have e (x : State) : x.warps.map g = (x.warps.map Warp.placeless).map g := by
      rw [List.map_map]
      exact List.map_congr_left (fun w _ => hg w)
    rw [f.warps, e t, e s, h.warps]
  others v hv := (f.others v hv).trans (h.others v hv)
  rest := f.rest.trans (congrArg k (State.bare_of_still h.still))

theorem SuspendedIn.of_ahead {u : State} {ls : Nat} {lanes : List Nat} {wait : Wait} {before : Bool} {results : List RegWrite}
    (f : SuspendedIn t u ls wid lanes wait before results) : SuspendedIn s u ls wid lanes wait before results := by
  obtain ⟨stand, w, v, r, hw, hv, hr, hstate, hlanes, hwait, hbefore, hresults, hlive, hsaved, hexempt, hcopy⟩ := f
  obtain ⟨x, hx, e⟩ := h.find_back hw
  have live : w.liveSet ls = x.liveSet ls := (congrArg (fun y : Warp => y.liveSet ls) e :)
  have num : w.wid = x.wid := (congrArg Warp.wid e :)
  refine ⟨fun l hl => ?_, x, v, r, hx, hv, hr, hstate, hlanes, hwait, hbefore, hresults, hlive.trans live, hsaved, ?_, fun y hy => ?_⟩
  · obtain ⟨regs, fpx, gen, -⟩ := h.lane wid l
    obtain ⟨st, regs', fpx', gen'⟩ := stand l hl
    exact ⟨st, fun k => (regs' k).trans (regs k), fpx'.trans fpx, gen'.trans gen⟩
  · rw [hexempt, h.heldRegs, num]
  · have lane : (w.lane y.lane).placeless = (x.lane y.lane).placeless := by rw [← Warp.lane_placeless, e, Warp.lane_placeless]
    obtain ⟨gen, fpx, regs⟩ := hcopy y hy
    refine ⟨gen.trans (congrArg Lane.gen lane :), fpx.trans (congrArg Lane.fpx lane :), fun n => ?_⟩
    rw [regs, live]
    split
    · exact (congrArg (fun z : Lane => z.reg n) lane :)
    · rfl
end

/-! ## Suspending -/

/-- Cells that are kept by key. -/
theorem Cells.get_filter_key {n : Nat} (m : Cells n) (p : Nat → Bool) (k : Nat) :
    Cells.get (m.filter (fun c : Nat × BitVec n => p c.1) : Cells n) k = if p k then Cells.get m k else 0 := by
  induction m with
  | nil => simp
  | cons c m ih =>
    by_cases hc : p c.1 = true
    · rw [List.filter_cons_of_pos (by exact hc)]
      simp only [Cells.get, ih]
      by_cases hk : k = c.1
      · subst hk; simp [hc]
      · simp [hk]
    · rw [List.filter_cons_of_neg (by exact hc)]
      simp only [Cells.get, ih]
      by_cases hk : k = c.1
      · subst hk; simp [hc]
      · simp [hk]

section
variable {s : State} {wid : Nat} {w : Warp} (hw : s.warp? wid = some w) {ls : List Nat} (lt : ∀ l ∈ ls, l < w.lanes.length)
  (mk : Nat → Record) (pc half repc : Nat)
include hw lt

theorem State.suspendFrame_stopIn (hseq : (mk w.seqNext).seq = w.seqNext) :
    SuspendFrame s (s.stopIn wid ls mk .suspended pc half repc) wid ls nowhere Warp.recordless id where
  lanes v l := by
    simp only [State.regAt, State.fpxAt, State.laneAt_stopIn hw ls mk .suspended pc half repc lt]
    by_cases h : v = wid ∧ l ∈ ls
    · rw [if_pos h]
      exact ⟨fun _ => rfl, rfl, rfl, fun n => absurd h n⟩
    · rw [if_neg h]
      exact ⟨fun _ => rfl, rfl, rfl, fun _ => rfl⟩
  bytes := by
    refine (State.bytesKept_stopIn hw ls mk .suspended pc half repc).mono (fun sp a ⟨hs, hb⟩ => .inr ⟨w, hw, ?_⟩)
    have still := Warp.eq_of_still (Warp.still_modLanes (w.withRecord (mk w.seqNext)) ls (Lane.stopped .suspended pc half repc))
    refine ⟨_, State.warp?_stopIn hw ls mk .suspended pc half repc, ?_⟩
    rw [still]
    exact ⟨hs, mk w.seqNext, List.mem_append_right _ (List.mem_singleton_self _), hseq, hb⟩
  warps := State.recordless_stopIn hw ls mk .suspended pc half repc
  others v hv := by rw [State.warp?_stopIn_other hw ls mk .suspended pc half repc v hv]
  rest := State.bare_stopIn hw ls mk .suspended pc half repc

theorem State.suspendedIn_stopIn {live : Nat} {wait : Wait} {before : Bool} {results : List RegWrite}
    (hr : (mk w.seqNext).state = .waiting ∧ (mk w.seqNext).lanes = ls ∧ (mk w.seqNext).wait = wait ∧
      (mk w.seqNext).before = before ∧ (mk w.seqNext).results = results)
    (hc : (mk w.seqNext).live = w.liveSet live ∧ (mk w.seqNext).saved = w.saveLanes ls (w.liveSet live) ∧
      (mk w.seqNext).exempt = s.heldRegs w.wid) :
    SuspendedIn s (s.stopIn wid ls mk .suspended pc half repc) live wid ls wait before results := by
  obtain ⟨hstate, hlanes, hwait, hbefore, hresults⟩ := hr
  obtain ⟨hlive, hsaved, hexempt⟩ := hc
  refine ⟨fun l hl => ?_, w, _, mk w.seqNext, hw, State.warp?_stopIn hw ls mk .suspended pc half repc, ?_, hstate, hlanes, hwait,
    hbefore, hresults, hlive, ?_, hexempt, fun v hv => ?_⟩
  · have lane := State.laneAt_stopIn hw ls mk .suspended pc half repc lt wid l
    rw [if_pos ⟨rfl, hl⟩] at lane
    exact ⟨by rw [lane]; rfl, fun k => by rw [State.regAt, lane]; rfl, by rw [State.fpxAt, lane]; rfl, by rw [lane]; rfl⟩
  · rw [Warp.eq_of_still (Warp.still_modLanes _ _ _)]
    exact List.mem_append_right _ (List.mem_singleton_self _)
  · rw [hsaved, hlanes, Warp.saveLanes, List.map_map]
    exact List.map_id ls
  · rw [hsaved] at hv
    obtain ⟨l, -, rfl⟩ := List.mem_map.mp hv
    refine ⟨rfl, rfl, fun n => ?_⟩
    have := Cells.get_filter_key (w.lane l).regs (w.liveSet live).contains n
    simpa [Lane.reg] using this
end

/-- A suspension whose record finds room stops its lanes in it, after a mark of the folds that it will make (R217, R251). -/
theorem State.suspend?_stopIn {s : State} {e : Env} {x : Suspension} {w : Warp} (hw : s.warp? e.c.wid = some w)
    (room : s.hasRoom w x.ls) :
    ∃ (folds : Warp → List Fold) (mk : Nat → Record) (pc half repc : Nat), s.suspend? e x = some ((s.modWarp e.c.wid (fun y => { y with folds := folds y })).stopIn
        e.c.wid x.lanes mk .suspended pc half repc) ∧
      ∀ n, (mk n).seq = n ∧ ((mk n).state = .waiting ∧ (mk n).lanes = x.lanes ∧ (mk n).wait = x.wait ∧ (mk n).before = x.before ∧
        (mk n).results = x.results) ∧ (mk n).live = w.liveSet x.ls ∧ (mk n).saved = w.saveLanes x.lanes (w.liveSet x.ls) ∧
        (mk n).exempt = s.heldRegs w.wid := by
  have num := State.find_wid hw
  obtain ⟨pl, hpl⟩ := Option.ne_none_iff_exists'.mp room
  obtain ⟨folds, marked⟩ : ∃ folds : Warp → List Fold, (if foldsLater e.i x.wait && s.isDet w then
      s.modWarp e.c.wid (fun y => { y with folds := y.folds ++ [.pending y.seqNext] }) else s) =
        s.modWarp e.c.wid (fun y => { y with folds := folds y }) := by
    split
    · exact ⟨_, rfl⟩
    · exact ⟨fun y => y.folds, (s.modWarp_self e.c.wid).symm⟩
  simp only [State.suspend?, hw, hpl, num, marked]
  exact ⟨folds, _, _, _, _, rfl, fun n => ⟨rfl, ⟨rfl, rfl, rfl, rfl, rfl⟩, rfl, rfl, rfl⟩⟩

/-- A suspension whose record finds room: its lanes wait in the record, and nothing else changes (R217, R218). -/
theorem State.suspend?_spec {s : State} {e : Env} {x : Suspension} {w : Warp} (hw : s.warp? e.c.wid = some w)
    (room : s.hasRoom w x.ls) (lt : ∀ l ∈ x.lanes, l < w.lanes.length) :
    ∃ t, s.suspend? e x = some t ∧ SuspendedIn s t x.ls e.c.wid x.lanes x.wait x.before x.results ∧
      SuspendFrame s t e.c.wid x.lanes nowhere Warp.recordless id := by
  obtain ⟨folds, mk, pc, half, repc, he, hmk⟩ := State.suspend?_stopIn hw room
  obtain ⟨hseq, hr, hc⟩ := hmk w.seqNext
  have ahead := s.ahead_modWarp e.c.wid (fun y => { y with folds := folds y }) (fun _ => rfl) (fun _ => rfl)
  have found := State.warp?_modWarp_same hw (fun y => { y with folds := folds y }) (fun _ => rfl)
  exact ⟨_, he, SuspendedIn.of_ahead ahead (State.suspendedIn_stopIn found lt mk pc half repc hr hc),
    SuspendFrame.of_ahead ahead (fun _ => rfl) (State.suspendFrame_stopIn found lt mk pc half repc hseq)⟩

end Sys2Proof.Machine

namespace Sys2Proof.Machine

/-! ## Issue traps and held registers -/

/-- Every instruction of the table runs in the envelope of an issue (R22). -/
theorem exec_eq_issue {i : Instr} (h : i.isa?.isSome = true) (s : State) : ∃ body, exec i s = issue i s body := by
  cases i <;> cases h <;> (dsimp only [exec]; exact ⟨_, rfl⟩)

/-- An issuing set reads its warp as it stands, but for PART, RND and AXC. -/
theorem Warp.readBy_eq (w : Warp) (c : Cur) : ∃ part rnd axc, w.readBy c = { w with part := part, rnd := rnd, axc := axc } := by
  unfold Warp.readBy
  split
  · exact ⟨w.part, w.rnd, w.axc, rfl⟩
  · next x _ => exact ⟨x.part, x.rnd, x.axc, rfl⟩

/-- A warp that takes a trap takes it as every set reads it. -/
theorem Parks.readBy {s t : State} {w : Warp} {ls : List Nat} {trap pc half faddr event : Nat}
    (h : Parks s t w ls trap pc half faddr event) (c : Cur) : Parks s t (w.readBy c) ls trap pc half faddr event := by
  obtain ⟨part, rnd, axc, e⟩ := w.readBy_eq c
  obtain ⟨parked, frame⟩ := h
  rw [e]
  exact ⟨parked, frame.lanes, frame.memory, frame.quiet⟩

section
variable {s : State} {i : Instr} {c : Cur} {w : Warp} (hcur : s.cur = some c)
  (hwarp : (s.warp? c.wid).map (·.readBy c) = some w) (lt : ∀ l ∈ c.lanes, l < w.lanes.length) (isa : i.isa?.isSome = true)
include hcur hwarp lt isa

/-- An issue trap parks the whole issuing set in one record, the one that is due if none was before (R22, R426). -/
theorem exec_issueTrap (trap : s.issueTrap w i ≠ 0) :
    ∃ t, exec i s = .next t ∧ Parks s t w c.lanes (s.issueTrap w i) c.pc c.half 0 0 ∧
      (∀ x, s.ctx? w.ctx = some x → x.escalated = none → (w.supervisor = true ∨ x.trapv.toNat < 8) → s.escalates x = [] →
        t.Due w.ctx c.wid w.seqNext) := by
  obtain ⟨body, run⟩ := exec_eq_issue isa s
  obtain ⟨v, hv, rfl⟩ := Option.map_eq_some_iff.mp hwarp
  rw [Warp.readBy_lanes] at lt
  refine ⟨_, run.trans (issue_trap hcur hwarp trap body), (State.parks_park hv c.lanes lt _ _ _ _ _ _ _).readBy c, ?_⟩
  obtain ⟨part, rnd, axc, e⟩ := v.readBy_eq c
  rw [e]
  exact fun x hx hn now none => State.due_park hv hx hn none now c.lanes _ _ _ _ _ _ _

/-- A held register suspends the whole issuing set before its instruction (R310). -/
theorem exec_namesHeld (trap : s.issueTrap w i = 0) (held : s.namesHeld w (activeLanes s i c w) i ≠ []) (room : s.hasRoom w 0) :
    ∃ t, exec i s = .next t ∧
      SuspendedIn s t 0 c.wid c.lanes (.hold (s.namesHeld w (activeLanes s i c w) i)) true [] ∧
      SuspendFrame s t c.wid c.lanes nowhere Warp.recordless id := by
  obtain ⟨body, run⟩ := exec_eq_issue isa s
  obtain ⟨v, hv, rfl⟩ := Option.map_eq_some_iff.mp hwarp
  rw [Warp.readBy_lanes] at lt
  have roomv : s.hasRoom v 0 := by
    obtain ⟨part, rnd, axc, e⟩ := v.readBy_eq c
    rw [e] at room
    exact room
  obtain ⟨t, ht, inRecord, frame⟩ := State.suspend?_spec (e := s.env i c (v.readBy c)) (x :=
    { lanes := c.lanes, before := true, wait := .hold (s.namesHeld (v.readBy c) (activeLanes s i c (v.readBy c)) i) }) hv roomv lt
  refine ⟨t, ?_, inRecord, frame⟩
  rw [run, issue_held hcur hwarp trap held, State.suspend, ht]
end

/-- Settles O58: the trap parks the set by `exec_issueTrap` and the new record is what `State.escalateDue` finds; the held
register suspends it by `exec_namesHeld`. -/
theorem issueTrapsAndHeldRegisters : Obligations.IssueTrapsAndHeldRegisters := by
  intro s i c w hcur hwarp full lt isa
  rw [← full] at lt
  refine ⟨fun trap => ?_, fun trap held room => exec_namesHeld hcur hwarp lt isa trap held room⟩
  obtain ⟨t, run, parks, due⟩ := exec_issueTrap hcur hwarp lt isa trap
  exact ⟨t, run, parks, fun x hx hn now none _ => State.escalated_escalateDue (due x hx hn now none)⟩

end Sys2Proof.Machine

namespace Sys2Proof.Machine

/-! ## What does not depend on where lanes stand -/

/-- A state wherever its lanes stand. -/
def State.placeless (s : State) : State := { s with warps := s.warps.map Warp.placeless }

theorem Ahead.placeless {s t : State} {wid : Nat} (h : Ahead s t wid) : t.placeless = s.placeless := by
  have e (x : State) : x.placeless = { x.still with warps := x.warps.map Warp.placeless } := rfl
  rw [e t, e s, h.still, h.warps]

theorem State.warpsOn_placeless (s : State) (d c : Nat) : s.placeless.warpsOn d c = (s.warpsOn d c).map Warp.placeless := by
  simp only [State.warpsOn, State.placeless, List.filter_map]
  rfl

theorem State.slowUsed_placeless (s : State) (d c : Nat) : s.placeless.slowUsed d c = s.slowUsed d c := by
  simp only [State.slowUsed, State.warpsOn_placeless, List.flatMap_map]
  rfl

theorem State.spillUsed_placeless (s : State) (ctx d : Nat) : s.placeless.spillUsed ctx d = s.spillUsed ctx d := by
  simp only [State.spillUsed, State.placeless, List.filter_map, List.flatMap_map]
  rfl

theorem State.findRoom_placeless (s : State) (w : Warp) (n : Nat) : s.placeless.findRoom w.placeless n = s.findRoom w n := by
  simp only [State.findRoom, State.slowUsed_placeless, State.findSpillPlace, State.findSpill, State.findSpillBeside,
    State.spillUsed_placeless]
  rfl

theorem State.missing_placeless (s : State) (w : Warp) (z : Nat) (offs : List Nat) :
    s.placeless.missing w z offs = s.missing w z offs := by
  simp only [State.missing, State.holdsLine, State.warpsOn_placeless, List.any_map]
  rfl

theorem Ahead.hasRoom {s t : State} {wid : Nat} (h : Ahead s t wid) {v u : Warp} (e : u.placeless = v.placeless) {ls : Nat}
    (room : s.hasRoom v ls) : t.hasRoom u ls := by
  have live : u.liveSet ls = v.liveSet ls := (congrArg (fun y : Warp => y.liveSet ls) e :)
  rw [State.hasRoom, ← State.findRoom_placeless, live, h.placeless, e, State.findRoom_placeless]
  exact room

theorem State.missing_advance (s : State) (c : Cur) (w : Warp) (z : Nat) (offs : List Nat) :
    (s.advance c).missing w z offs = s.missing w z offs := by
  rw [← State.missing_placeless, (s.ahead_advance c).placeless, State.missing_placeless]

/-! ## Suspending at an issue -/

/-- Lanes of an issue that suspend after its advance, in a record that finds room. -/
theorem Issuing.suspend? {s : State} {i : Instr} {c : Cur} {w : Warp} (h : Issuing s i c w) (x : Suspension)
    (room : s.hasRoom w x.ls) (sub : ∀ l ∈ x.lanes, l ∈ c.lanes) :
    ∃ t, (s.advance c).suspend? (s.env i c w) x = Option.some t ∧ SuspendedIn s t x.ls c.wid x.lanes x.wait x.before x.results ∧
      SuspendFrame s t c.wid x.lanes nowhere Warp.recordless id := by
  obtain ⟨v, hv, rfl, -⟩ := h.found
  obtain ⟨u, hu, e⟩ := (s.ahead_advance c).find hv
  have len : u.lanes.length = v.lanes.length := by simpa [Warp.placeless] using congrArg (fun y : Warp => y.lanes.length) e
  have roomv : s.hasRoom v x.ls := by
    obtain ⟨part, rnd, axc, r⟩ := v.readBy_eq c
    rw [r] at room
    exact room
  obtain ⟨t, ht, inRecord, frame⟩ := State.suspend?_spec (e := s.env i c (v.readBy c)) hu ((s.ahead_advance c).hasRoom e roomv)
    (fun l hl => by rw [len, ← Warp.readBy_lanes v c]; exact h.lt l (sub l hl))
  exact ⟨t, ht, inRecord.of_ahead (s.ahead_advance c), frame.of_ahead (s.ahead_advance c) (fun _ => rfl)⟩

/-! ## Operand words of an access -/

/-- A source of one word is its operand's word. -/
theorem operandWords_one (s : State) (w : Warp) (ls : List Nat) (l : Nat) (sg : Bool) (x : Operand) :
    operandWords s w ls l 1 sg x = [operandWord s w ls l .int x] := by
  cases x <;> rfl

theorem length_operandWords (s : State) (w : Warp) (ls : List Nat) (l n : Nat) (sg : Bool) (x : Operand) (hn : 0 < n) :
    (operandWords s w ls l n sg x).length = n := by
  cases x <;> simp [operandWords, regRange] <;> omega

theorem Env.valsOf_b0 (e : Env) (s : State) (na nc nd l : Nat) : (e.valsOf s na 1 nc nd l).b0 = e.b s l := by
  simp [Env.valsOf, LaneVals.b0, Env.words, operandWords_one, Env.b, Env.word]

/-- The words that a store takes from A are those of an integer source. -/
theorem Env.valsOf_a (e : Env) (s : State) (n nb nc nd l : Nat) (hn : 0 < n) (hi : e.i.opcode ≠ 0x248) :
    (e.valsOf s n nb nc nd l).a = e.words s n false e.o.a l := by
  have int : aType e.i = .int := by simp [aType, hi]
  by_cases h1 : n = 1
  · subst h1
    simp [Env.valsOf, Env.words, operandWords_one, Env.word, int]
  · simp [Env.valsOf, h1, Nat.ne_of_gt hn]

/-- The offset of an access, formed after the advance, is that at issue (R254). -/
theorem State.offsetOf_advance (s : State) (i : Instr) (c : Cur) (w : Warp) (l : Nat) :
    offsetOf i.operands ((s.env i c w).b (s.advance c) l) = s.offsetAt i.operands c w l := by
  rw [Env.b_advance]
  rfl

theorem State.offsets_valsOf (s : State) (i : Instr) (c : Cur) (w : Warp) (na nc nd : Nat) (p : List Nat) :
    (p.map ((s.env i c w).valsOf (s.advance c) na 1 nc nd)).map (fun v => offsetOf i.operands v.b0) =
      p.map (s.offsetAt i.operands c w) := by
  rw [List.map_map]
  refine List.map_congr_left (fun l _ => ?_)
  simp only [Function.comp, Env.valsOf_b0, State.offsetOf_advance]

/-! ## The check of R254 at an issue -/

/-- Active lanes whose access passes R254. -/
def State.passing (s : State) (i : Instr) (c : Cur) (w : Warp) (shared : Bool) (z : Nat) : List Nat :=
  (activeLanes s i c w).filter (fun l => s.checkAccess w shared (s.offsetAt i.operands c w l) z z == 0)

/-- Traps of the active lanes whose access fails R254. -/
def State.failing (s : State) (i : Instr) (c : Cur) (w : Warp) (shared : Bool) (z : Nat) : List LaneTrap :=
  ((activeLanes s i c w).filter (fun l => s.checkAccess w shared (s.offsetAt i.operands c w l) z z != 0)).map (fun l =>
    { lane := l, code := s.checkAccess w shared (s.offsetAt i.operands c w l) z z, faddr := s.offsetAt i.operands c w l })

theorem State.checkLanes_advance (s : State) (i : Instr) (c : Cur) (w : Warp) (shared : Bool) (z : Nat) :
    (s.advance c).checkLanes (s.env i c w) shared z (fun l => offsetOf i.operands ((s.env i c w).b (s.advance c) l)) =
      (s.passing i c w shared z, s.failing i c w shared z) := by
  simp only [State.offsetOf_advance]
  rfl

section
variable {s : State} {i : Instr} {c : Cur} {w : Warp} {shared : Bool} {z : Nat}

theorem State.passing_sub : ∀ l ∈ s.passing i c w shared z, l ∈ c.lanes :=
  fun _ h => List.mem_of_mem_filter (List.mem_of_mem_filter h)

theorem State.passing_of_checked (h : ∀ l ∈ activeLanes s i c w, s.checkAccess w shared (s.offsetAt i.operands c w l) z z = 0) :
    s.passing i c w shared z = activeLanes s i c w :=
  List.filter_eq_self.mpr (fun l hl => by simp [h l hl])

theorem State.failing_of_checked (h : ∀ l ∈ activeLanes s i c w, s.checkAccess w shared (s.offsetAt i.operands c w l) z z = 0) :
    s.failing i c w shared z = [] := by
  rw [State.failing, List.filter_eq_nil_iff.mpr (fun l hl => by simp [h l hl])]
  rfl

/-- Lines of accesses that meet no owned one. -/
theorem State.blockers_eq_nil {offs : List Nat} (h : ∀ x ∈ offs, s.ownedLines w shared x z = []) : s.blockers w shared z offs = [] := by
  rw [State.blockers, List.flatMap_eq_nil_iff.mpr h]
  rfl

theorem State.accessesFree.checked (h : s.accessesFree i c w shared z) :
    ∀ l ∈ activeLanes s i c w, s.checkAccess w shared (s.offsetAt i.operands c w l) z z = 0 := fun l hl => (h l hl).1

theorem State.accessesFree.blockers (h : s.accessesFree i c w shared z) :
    s.blockers w shared z ((activeLanes s i c w).map (s.offsetAt i.operands c w)) = [] :=
  State.blockers_eq_nil (fun x hx => by
    obtain ⟨l, hl, rfl⟩ := List.mem_map.mp hx
    exact (h l hl).2)
end

/-! ## Owned lines before an H form -/

/-- An H form of a shared-memory access meets the owned lines of the lanes that pass R254 (R256). -/
theorem State.hBlockers_half (s : State) {i : Instr} (c : Cur) (w : Warp) (hf : i.operands.form = .h)
    (ho : i.opcode = 0x240 ∨ i.opcode = 0x241) :
    (s.advance c).hBlockers (s.env i c w) = s.blockers w true (szBytes (i.operands.mods 0 3))
      ((s.passing i c w true (szBytes (i.operands.mods 0 3))).map (s.offsetAt i.operands c w)) := by
  have half : (i.operands.form == .h && (i.opcode == 0x240 || i.opcode == 0x241)) = true := by simp [hf, ho]
  simp only [State.hBlockers, State.hLanes, State.env_o, State.env_i, half, if_true, State.offsetOf_advance]
  rfl

/-- No other access is tried before its instruction. -/
theorem State.hBlockers_other (s : State) {i : Instr} (c : Cur) (w : Warp)
    (h : ¬ (i.operands.form = .h ∧ (i.opcode = 0x240 ∨ i.opcode = 0x241))) : (s.advance c).hBlockers (s.env i c w) = [] := by
  have whole : (i.operands.form == .h && (i.opcode == 0x240 || i.opcode == 0x241)) = false := by simpa using h
  simp only [State.hBlockers, State.hLanes, State.env_o, State.env_i, whole]
  rfl

theorem State.hBlockers_advance (s : State) (i : Instr) (c : Cur) (w : Warp) :
    (s.advance c).hBlockers (s.env i c w) = s.hBlockers (s.env i c w) := by
  have words : (s.env i c w).b (s.advance c) = (s.env i c w).b s := funext (Env.b_advance s i c w)
  simp only [State.hBlockers, State.hLanes, words]
  rfl

end Sys2Proof.Machine

namespace Sys2Proof.Machine

/-! ## Register writes of lanes -/

theorem Warp.modLane_modLane (w : Warp) (l : Nat) (f g : Lane → Lane) :
    (w.modLane l f).modLane l g = w.modLane l (fun x => g (f x)) := by
  simp only [Warp.modLane, List.modify_modify_eq]
  rfl

theorem Warp.modLane_self (w : Warp) (l : Nat) : w.modLane l (fun x => x) = w := by
  simp only [Warp.modLane]
  rw [show w.lanes.modify l (fun x => x) = w.lanes from List.modify_id l w.lanes]

/-- Register writes made one after the other in a warp. -/
def Warp.writeRegs (w : Warp) (ws : List RegWrite) : Warp :=
  ws.foldl (fun w r => w.modLane r.lane (fun x => x.setReg r.reg r.val)) w

theorem State.writeRegs_eq (s : State) (wid : Nat) (ws : List RegWrite) : s.writeRegs wid ws = s.modWarp wid (·.writeRegs ws) := rfl

theorem Warp.writeRegs_append (w : Warp) (xs ys : List RegWrite) : w.writeRegs (xs ++ ys) = (w.writeRegs xs).writeRegs ys :=
  List.foldl_append

/-- The register writes of words to a destination are the write to it (R20). -/
theorem Warp.writeRegs_dstWrites (w : Warp) (l : Nat) (d : Operand) (vs : List Word) :
    w.writeRegs (dstWrites l d vs) = w.modLane l (fun x => x.writeDst d vs) := by
  cases d with
  | reg b =>
    simp only [dstWrites, Lane.writeDst]
    induction vs generalizing b w with
    | nil => exact (w.modLane_self l).symm
    | cons v vs ih =>
      have next : (List.range vs.length).map (fun k => (⟨l, b + (k + 1), vs.getD k 0⟩ : RegWrite)) =
          (List.range vs.length).map (fun k => ⟨l, b + 1 + k, vs.getD k 0⟩) :=
        List.map_congr_left (fun k _ => by rw [Nat.add_comm k 1, Nat.add_assoc])
      rw [List.length_cons, List.range_succ_eq_map, List.map_cons, List.map_map]
      refine Eq.trans (b := (w.modLane l (fun x => x.setReg b v)).writeRegs
        ((List.range vs.length).map (fun k => ⟨l, b + (k + 1), vs.getD k 0⟩))) rfl ?_
      rw [next, ih, Warp.modLane_modLane]
      rfl
  | _ => exact (w.modLane_self l).symm

/-- Register writes of words to each active lane's destination set no flag. -/
theorem State.writeRegs_perLane (s : State) (e : Env) (f : Nat → List Word) :
    s.writeRegs e.c.wid (e.p.flatMap (fun l => dstWrites l e.o.d (f l))) = s.perLane e (fun l => (f l, 0)) := by
  have lane (x : Lane) (vs : List Word) : { x.writeDst e.o.d vs with fpx := x.fpx ||| 0 } = x.writeDst e.o.d vs := by
    obtain ⟨m, hm⟩ := x.writeDst_rest e.o.d vs
    simp [hm]
  have warp (p : List Nat) (w : Warp) : w.writeRegs (p.flatMap (fun l => dstWrites l e.o.d (f l))) =
      p.foldl (fun w l => w.modLane l (fun x => { x.writeDst e.o.d (f l) with fpx := x.fpx ||| 0 })) w := by
    induction p generalizing w with
    | nil => rfl
    | cons l p ih =>
      rw [List.flatMap_cons, Warp.writeRegs_append, ih, Warp.writeRegs_dstWrites, List.foldl_cons]
      simp only [lane]
  rw [State.writeRegs_eq]
  exact congrArg (s.modWarp e.c.wid) (funext (warp e.p))

/-! ## The register image of a load (Table 11.2) -/

theorem toSigned_bitVec (v n : Nat) (hn : 0 < n) : toSigned v n = (BitVec.ofNat n v).toInt := by
  have half : 2 ^ n = 2 * 2 ^ (n - 1) := by rw [← Nat.pow_succ']; congr 1; omega
  rw [toSigned, BitVec.toInt_eq_toNat_cond, BitVec.toNat_ofNat]
  have : v % 2 ^ n < 2 ^ n := Nat.mod_lt _ (Nat.two_pow_pos n)
  split <;> split <;> omega

/-- A signed number of a word's lower bits is the extension of those bits. -/
theorem ofInt_toSigned (v n : Nat) (hn : 0 < n) : BitVec.ofInt 32 (toSigned v n) = (BitVec.ofNat n v).signExtend 32 := by
  rw [toSigned_bitVec v n hn]
  rfl

theorem length_loadImage (sz : Nat) (bs : List Byte) : (loadImage sz bs).length = szRegs sz := by
  unfold loadImage
  split <;> simp [szRegs, szBytes]

theorem loadImage_signed (sz : Nat) (bs : List Byte) :
    (sz = 2 → loadImage sz bs = [(BitVec.ofNat 8 (bytesToNat bs)).signExtend 32]) ∧
    (sz = 4 → loadImage sz bs = [(BitVec.ofNat 16 (bytesToNat bs)).signExtend 32]) := by
  constructor <;> rintro rfl
  · rw [← ofInt_toSigned _ 8 (by decide)]; rfl
  · rw [← ofInt_toSigned _ 16 (by decide)]; rfl

theorem getD_loadImage {sz : Nat} (h2 : sz ≠ 2) (h4 : sz ≠ 4) (bs : List Byte) (k : Nat) (hk : k < szRegs sz) :
    (loadImage sz bs).getD k 0 = BitVec.ofNat 32 (bytesToNat bs / 2 ^ (32 * k)) := by
  unfold loadImage
  simp [hk]

end Sys2Proof.Machine

namespace Sys2Proof.Machine

/-! ## Loads -/

/-- An instruction that loads from shared memory or from the scratchpad (R258). -/
structure IsLoad (shared : Bool) (i : Instr) : Prop where
  opcode : i.opcode = if shared then 0x240 else 0x242
  runs : ∀ s, exec i s = issue i s (fun e s => s.loadInstr e shared)

/-- An instruction that stores to shared memory or to the scratchpad (R258). -/
structure IsStore (shared : Bool) (i : Instr) : Prop where
  opcode : i.opcode = if shared then 0x241 else 0x243
  sig : i.sig = sigSt i.operands
  runs : ∀ s, exec i s = issue i s (fun e s => s.storeInstr e shared)

theorem isLoad_ldSh (o : Operands) : IsLoad true (.ldSh o) := ⟨rfl, fun _ => rfl⟩
theorem isLoad_ldSp (o : Operands) : IsLoad false (.ldSp o) := ⟨rfl, fun _ => rfl⟩
theorem isStore_stSh (o : Operands) : IsStore true (.stSh o) := ⟨rfl, rfl, fun _ => rfl⟩
theorem isStore_stSp (o : Operands) : IsStore false (.stSp o) := ⟨rfl, rfl, fun _ => rfl⟩

/-- The loads of lanes whose lines are all free and cached give each the register image of its bytes. -/
theorem loadTry_loaded {i : Instr} {shared : Bool} {s : State} {w : Warp} {vs : List LaneVals}
    (free : s.blockers w shared (szBytes (i.operands.mods 0 3)) (vs.map (fun v => offsetOf i.operands v.b0)) = [])
    (held : shared = false → s.missing w (szBytes (i.operands.mods 0 3)) (vs.map (fun v => offsetOf i.operands v.b0)) = []) :
    loadTry i shared s w vs = { s := s, ws := vs.flatMap (fun v => dstWrites v.lane i.operands.d
      (loadImage (i.operands.mods 0 3) (s.spaceBytes (w.space shared) (s.spaceAddr w shared (offsetOf i.operands v.b0))
        (szBytes (i.operands.mods 0 3))))) } := by
  have none : (if shared then [] else s.missing w (szBytes (i.operands.mods 0 3)) (vs.map (fun v => offsetOf i.operands v.b0))) = [] := by
    cases shared with
    | true => rfl
    | false => exact held rfl
  simp only [loadTry, free, none]
  rfl

/-- Loads that meet an owned line wait for those lines. -/
theorem loadTry_lines {i : Instr} {shared : Bool} {s : State} {w : Warp} {vs : List LaneVals} {ks : List LineKey}
    (h : s.blockers w shared (szBytes (i.operands.mods 0 3)) (vs.map (fun v => offsetOf i.operands v.b0)) = ks) (ne : ks ≠ []) :
    loadTry i shared s w vs = { s := s, wait := some (.lines ks) } := by
  have some : ks.isEmpty = false := by simpa using ne
  simp only [loadTry, h, some]
  rfl

/-- Loads of the scratchpad that meet none but miss lines wait for those. -/
theorem loadTry_fill {i : Instr} {s : State} {w : Warp} {vs : List LaneVals} {ms : List Nat}
    (free : s.blockers w false (szBytes (i.operands.mods 0 3)) (vs.map (fun v => offsetOf i.operands v.b0)) = [])
    (h : s.missing w (szBytes (i.operands.mods 0 3)) (vs.map (fun v => offsetOf i.operands v.b0)) = ms) (ne : ms ≠ []) :
    loadTry i false s w vs = { s := s, wait := some (.fill ms) } := by
  have some : ms.isEmpty = false := by simpa using ne
  simp only [loadTry, free, h, some, Bool.false_eq_true, if_false]
  rfl

/-- What a load leaves of its lanes that pass R254, before the others trap. -/
def State.loadPassing (s : State) (i : Instr) (c : Cur) (w : Warp) (shared : Bool) : State :=
  let g := s.passing i c w shared (szBytes (i.operands.mods 0 3))
  let vs := g.map ((s.env i c w).valsOf (s.advance c) 0 1 0 0)
  if g.isEmpty then s.advance c
  else (s.advance c).complete (s.env i c w) { lanes := g, wait := .nothing, ls := i.operands.ls, vals := vs }
    (loadTry i shared (s.advance c) w vs)

/-- A load without a line to wait for before it: the lanes that pass are served, the others trap (R258). -/
theorem State.loadInstr_eq (s : State) (i : Instr) (c : Cur) (w : Warp) (shared : Bool)
    (free : (s.advance c).hBlockers (s.env i c w) = []) :
    (s.advance c).loadInstr (s.env i c w) shared =
      (s.loadPassing i c w shared).raise (s.env i c w) (s.failing i c w shared (szBytes (i.operands.mods 0 3))) := by
  simp only [State.loadInstr, free, State.env_o, State.checkLanes_advance]
  rfl

/-- A load whose active lanes all pass R254 and wait for nothing writes each lane's register image. -/
theorem State.loadPassing_loaded {s : State} {i : Instr} {c : Cur} {w : Warp} {shared : Bool}
    (free : s.accessesFree i c w shared (szBytes (i.operands.mods 0 3)))
    (held : shared = false →
      s.missing w (szBytes (i.operands.mods 0 3)) ((activeLanes s i c w).map (s.offsetAt i.operands c w)) = []) :
    s.loadPassing i c w shared = (s.advance c).perLane (s.env i c w) (fun l => (loadImage (i.operands.mods 0 3)
      (s.spaceBytes (w.space shared) (s.addressAt i.operands c w shared l) (szBytes (i.operands.mods 0 3))), 0)) := by
  have pass := State.passing_of_checked free.checked
  have offs := State.offsets_valsOf s i c w 0 0 0 (activeLanes s i c w)
  have tried := loadTry_loaded (i := i) (shared := shared) (s := s.advance c) (w := w)
    (vs := (activeLanes s i c w).map ((s.env i c w).valsOf (s.advance c) 0 1 0 0))
    (by rw [offs]; exact free.blockers) (fun e => by rw [offs, State.missing_advance]; exact held e)
  rw [← State.writeRegs_perLane]
  simp only [State.loadPassing, pass, tried, List.flatMap_map, Env.valsOf_b0, State.offsetOf_advance]
  split
  · next none =>
    rw [State.env_p, List.isEmpty_iff.mp none]
    exact (State.modWarp_self _ _).symm
  · simp only [State.complete]
    rfl

section
variable {s : State} {i : Instr} {c : Cur} {w : Warp} {shared : Bool} (h : Issuing s i c w)
include h

/-- A load whose active lanes all pass R254 and meet owned lines suspends them until those are released. -/
theorem State.loadPassing_suspended {x : Wait} (some : activeLanes s i c w ≠ []) (room : s.hasRoom w i.operands.ls)
    (ok : ∀ l ∈ activeLanes s i c w, s.checkAccess w shared (s.offsetAt i.operands c w l) (szBytes (i.operands.mods 0 3))
      (szBytes (i.operands.mods 0 3)) = 0)
    (tried : loadTry i shared (s.advance c) w ((activeLanes s i c w).map ((s.env i c w).valsOf (s.advance c) 0 1 0 0)) =
      { s := s.advance c, wait := .some x }) :
    SuspendFrame s (s.loadPassing i c w shared) c.wid (activeLanes s i c w) nowhere Warp.recordless id ∧
      SuspendedIn s (s.loadPassing i c w shared) i.operands.ls c.wid (activeLanes s i c w) x false [] := by
  have busy : (activeLanes s i c w).isEmpty = false := by simpa using some
  obtain ⟨t, ht, inRecord, frame⟩ := h.suspend? { lanes := activeLanes s i c w, wait := x, ls := i.operands.ls
                                                  vals := (activeLanes s i c w).map ((s.env i c w).valsOf (s.advance c) 0 1 0 0) }
    room (fun _ hl => List.mem_of_mem_filter hl)
  have stands : s.loadPassing i c w shared = t := by
    simp only [State.loadPassing, State.passing_of_checked ok, busy, Bool.false_eq_true, if_false, tried, State.complete, ht,
      State.suspend]
  rw [stands]
  exact ⟨frame, inRecord⟩

/-- The whole set of an H form that meets owned lines suspends before it until those are released (R216, R256). -/
theorem State.suspendBefore_spec (room : s.hasRoom w 0) (ks : List LineKey) (bad : List LaneTrap) :
    SuspendFrame s ((s.advance c).suspendBefore (s.env i c w) ks bad) c.wid c.lanes nowhere Warp.recordless id ∧
      SuspendedIn s ((s.advance c).suspendBefore (s.env i c w) ks bad) 0 c.wid c.lanes (.lines ks) true [] := by
  obtain ⟨t, ht, inRecord, frame⟩ := h.suspend? { lanes := c.lanes, before := true, wait := .lines ks } room (fun _ hl => hl)
  have stands : (s.advance c).suspendBefore (s.env i c w) ks bad = t := by
    simp only [State.suspendBefore, State.suspendOr, State.env_c, ht]
  rw [stands]
  exact ⟨frame, inRecord⟩
end

/-- Where every access passes R254 and meets no owned line, nothing holds the instruction back. -/
theorem State.accessesFree.hBlockers {s : State} {i : Instr} {c : Cur} {w : Warp} {shared : Bool}
    (free : s.accessesFree i c w shared (szBytes (i.operands.mods 0 3)))
    (ho : shared = true ∨ ¬ (i.opcode = 0x240 ∨ i.opcode = 0x241)) : (s.advance c).hBlockers (s.env i c w) = [] := by
  by_cases half : i.operands.form = .h ∧ (i.opcode = 0x240 ∨ i.opcode = 0x241)
  · obtain rfl : shared = true := ho.resolve_right (fun n => n half.2)
    rw [State.hBlockers_half s c w half.1 half.2, State.passing_of_checked free.checked]
    exact free.blockers
  · exact s.hBlockers_other c w half

/-- The words of a loaded number (Table 11.2): little-endian, sign-extended for .i8 and .i16. -/
def Loaded (sz n : Nat) (ws : List Word) : Prop :=
  (sz = 2 → ws = [(BitVec.ofNat 8 n).signExtend 32]) ∧ (sz = 4 → ws = [(BitVec.ofNat 16 n).signExtend 32]) ∧
    (sz ≠ 2 → sz ≠ 4 → ws.length = szRegs sz ∧ ∀ k < ws.length, ws.getD k 0 = BitVec.ofNat 32 (n / 2 ^ (32 * k)))

theorem loaded_loadImage (sz : Nat) (bs : List Byte) : Loaded sz (bytesToNat bs) (loadImage sz bs) :=
  ⟨(loadImage_signed sz bs).1, (loadImage_signed sz bs).2, fun h2 h4 =>
    ⟨length_loadImage sz bs, fun _ hk => getD_loadImage h2 h4 bs _ (length_loadImage sz bs ▸ hk)⟩⟩

section
variable {shared : Bool} {i : Instr} (ld : IsLoad shared i) {s : State} {c : Cur} {w : Warp} (h : Issuing s i c w)
include ld h

/-- A load that no line holds back: the lanes that pass R254 are served, then the others trap. -/
theorem IsLoad.run (free : (s.advance c).hBlockers (s.env i c w) = []) : exec i s = .next
    ((s.loadPassing i c w shared).raise (s.env i c w) (s.failing i c w shared (szBytes (i.operands.mods 0 3)))) := by
  rw [ld.runs, issue_next h, State.loadInstr_eq _ _ _ _ _ free]

/-- Where no lane traps, what the passing lanes do is all. -/
theorem IsLoad.run_checked (free : (s.advance c).hBlockers (s.env i c w) = [])
    (ok : ∀ l ∈ activeLanes s i c w, s.checkAccess w shared (s.offsetAt i.operands c w l) (szBytes (i.operands.mods 0 3))
      (szBytes (i.operands.mods 0 3)) = 0) : exec i s = .next (s.loadPassing i c w shared) := by
  rw [ld.run h free, State.failing_of_checked ok]
  rfl

/-- A load that waits for nothing gives each active lane the words at its address. -/
theorem IsLoad.loads (free : s.accessesFree i c w shared (szBytes (i.operands.mods 0 3)))
    (held : shared = false →
      s.missing w (szBytes (i.operands.mods 0 3)) ((activeLanes s i c w).map (s.offsetAt i.operands c w)) = []) :
    ∃ t, exec i s = .next t ∧ Writes s t i c w (szRegs (i.operands.mods 0 3)) (fun l ws fl => fl = 0 ∧
      Loaded (i.operands.mods 0 3)
        (s.numberAt (w.space shared) (s.addressAt i.operands c w shared l) (szBytes (i.operands.mods 0 3))) ws) := by
  have unheld := free.hBlockers (by
    rw [ld.opcode]
    cases shared <;> simp)
  refine ⟨_, (ld.run_checked h unheld free.checked).trans (congrArg _ (State.loadPassing_loaded free held)), ?_⟩
  refine writes_perLane h _ _ _ (fun l => (length_loadImage _ _).le) (fun l _ => ⟨rfl, ?_⟩)
  rw [← State.bytesToNat_spaceBytes]
  exact loaded_loadImage _ _

/-- A load in F or X form whose lanes all pass R254 suspends them for the lines that it waits for. -/
theorem IsLoad.suspends (some : activeLanes s i c w ≠ []) (form : i.operands.form ≠ .h) (room : s.hasRoom w i.operands.ls)
    (ok : ∀ l ∈ activeLanes s i c w, s.checkAccess w shared (s.offsetAt i.operands c w l) (szBytes (i.operands.mods 0 3))
      (szBytes (i.operands.mods 0 3)) = 0) :
    let p := activeLanes s i c w
    let ks := s.blockers w shared (szBytes (i.operands.mods 0 3)) (p.map (s.offsetAt i.operands c w))
    let ms := s.missing w (szBytes (i.operands.mods 0 3)) (p.map (s.offsetAt i.operands c w))
    (ks ≠ [] → ∃ t, exec i s = .next t ∧ SuspendFrame s t c.wid p nowhere Warp.recordless id ∧
      SuspendedIn s t i.operands.ls c.wid p (.lines ks) false []) ∧
    (ks = [] → shared = false → ms ≠ [] → ∃ t, exec i s = .next t ∧ SuspendFrame s t c.wid p nowhere Warp.recordless id ∧
      SuspendedIn s t i.operands.ls c.wid p (.fill ms) false []) := by
  have run := ld.run_checked h (s.hBlockers_other c w (fun x => form x.1)) ok
  have offs := State.offsets_valsOf s i c w 0 0 0 (activeLanes s i c w)
  refine ⟨fun owned => ⟨_, run, ?_⟩, fun free hs miss => ⟨_, run, ?_⟩⟩
  · exact State.loadPassing_suspended h some room ok (loadTry_lines (by rw [offs]; rfl) owned)
  · subst hs
    exact State.loadPassing_suspended h some room ok
      (loadTry_fill (by rw [offs]; exact free) (by rw [offs]; exact s.missing_advance c w _ _) miss)
end

/-- A load or store in H form that meets owned lines holds its whole issuing set back before it (R216, R256). -/
theorem suspends_half {i : Instr} {s : State} {c : Cur} {w : Warp} (h : Issuing s i c w) (form : i.operands.form = .h)
    (access : IsLoad true i ∨ IsStore true i) (room : s.hasRoom w 0) :
    let z := szBytes (i.operands.mods 0 3)
    let ks := s.blockers w true z ((s.passing i c w true z).map (s.offsetAt i.operands c w))
    ks ≠ [] → ∃ t, exec i s = .next t ∧ SuspendFrame s t c.wid c.lanes nowhere Warp.recordless id ∧
      SuspendedIn s t 0 c.wid c.lanes (.lines ks) true [] := by
  intro z ks owned
  have lines : (s.advance c).hBlockers (s.env i c w) = ks := s.hBlockers_half c w form (access.imp (·.opcode) (·.opcode))
  have busy : ks.isEmpty = false := by simpa using owned
  have load : (s.advance c).loadInstr (s.env i c w) true =
      (s.advance c).suspendBefore (s.env i c w) ks ((s.advance c).hLanes (s.env i c w)).2 := by
    simp only [State.loadInstr, lines, busy]
    rfl
  have store : (s.advance c).storeInstr (s.env i c w) true =
      (s.advance c).suspendBefore (s.env i c w) ks ((s.advance c).hLanes (s.env i c w)).2 := by
    simp only [State.storeInstr, lines, busy]
    rfl
  refine ⟨_, ?_, State.suspendBefore_spec h room ks ((s.advance c).hLanes (s.env i c w)).2⟩
  rcases access with ld | st
  · rw [ld.runs, issue_next h, load]
  · rw [st.runs, issue_next h, store]

/-- ld.par gives the word of the argument block, 0 beyond its end (R262). -/
theorem givesWordOf_ldPar : GivesWordOf .ldPar (fun w _ x => w.args.getD x.b.toNat 0) :=
  gives_perLane (fun e s l => ([e.w.args.getD (e.b s l).toNat 0], 0)) (fun _ _ => rfl) (fun _ _ _ _ => Nat.le_refl _)
    (fun _ => rfl) (fun s o c w _ l _ => ⟨by rw [Env.b_advance]; rfl, rfl⟩)

/-- pref.sp moves its lanes on and changes nothing else (R263). -/
theorem exec_prefSp {s : State} {o : Operands} {c : Cur} {w : Warp} (h : Issuing s (.prefSp o) c w) :
    ∃ t, exec (.prefSp o) s = .next t ∧ RegistersOnly s t c.wid [] (fun _ => false) ∧ SameFlags s t ∧ Moved s t c := by
  refine ⟨_, issue_next h (fun _ s => s), s.registersOnly_advance c _ _, fun v l => ?_, State.moved_advance h⟩
  obtain ⟨-, fpx, gen, -⟩ := (s.ahead_advance c).lane v l
  exact ⟨fpx, gen⟩

/-- Settles O19: `IsLoad.loads` for the words, `IsLoad.suspends` for the waits of the F and X forms, `suspends_half` for
those of the H forms. -/
theorem loadResults : Obligations.LoadResults := by
  refine ⟨⟨fun shared mk hm s o c w h free held => ?_, givesWordOf_ldPar, fun s o c w h => exec_prefSp h⟩,
    fun shared mk hm s o c w h some form room ok => ?_, fun mk hm s o c w h form room => ?_⟩
  · simp only [List.mem_cons, Prod.mk.injEq, List.not_mem_nil, or_false] at hm
    rcases hm with ⟨rfl, rfl⟩ | ⟨rfl, rfl⟩
    · exact (isLoad_ldSh o).loads h free held
    · exact (isLoad_ldSp o).loads h free held
  · simp only [List.mem_cons, Prod.mk.injEq, List.not_mem_nil, or_false] at hm
    rcases hm with ⟨rfl, rfl⟩ | ⟨rfl, rfl⟩
    · exact (isLoad_ldSh o).suspends h some form room ok
    · exact (isLoad_ldSp o).suspends h some form room ok
  · simp only [List.mem_cons, List.not_mem_nil, or_false] at hm
    rcases hm with rfl | rfl
    · exact suspends_half (i := .ldSh o) h form (.inl (isLoad_ldSh o)) room
    · exact suspends_half (i := .stSh o) h form (.inr (isStore_stSh o)) room

end Sys2Proof.Machine

namespace Sys2Proof.Machine

/-! ## Write events of on-die memories -/

/-- A warp without the stores that the latches of its records name (R271). -/
def Warp.unlatched (w : Warp) : Warp := { w with records := w.records.map Record.bare }

/-- Write events have changed bytes of on-die memories that A picks, with what they latch and what engines read before
them, and nothing else (R228, R239, R271). -/
structure Written (s t : State) (A : Space → Nat → Prop) : Prop where
  warps : t.warps.map Warp.unlatched = s.warps.map Warp.unlatched
  bytes : BytesKept s t A
  rest : t.bare = s.bare

theorem Written.refl (s : State) (A : Space → Nat → Prop) : Written s s A :=
  ⟨rfl, ⟨fun _ => rfl, fun _ => rfl, fun _ _ _ => rfl⟩, rfl⟩

theorem Written.trans {s t u : State} {A : Space → Nat → Prop} (h : Written s t A) (g : Written t u A) : Written s u A :=
  ⟨g.warps.trans h.warps, h.bytes.trans g.bytes, g.rest.trans h.rest⟩

theorem Written.mono {s t : State} {A B : Space → Nat → Prop} (h : Written s t A) (sub : ∀ sp a, A sp a → B sp a) : Written s t B :=
  ⟨h.warps, h.bytes.mono sub, h.rest⟩

/-- A latch is all that a write event changes of a record. -/
theorem Record.bare_latchRecord (old new : State) (sp : Space) (a n : Nat) (k : Option (Nat × Nat)) (w : Warp) (r : Record) :
    (latchRecord old new sp a n k w r).bare = r.bare := by
  unfold latchRecord
  split
  · next sh x cond v hr =>
    split
    · simp only [Record.bare, hr]
    · rfl
  · rfl

theorem State.bare_beforeWrite (s : State) (sp : Space) (a n : Nat) : (s.beforeWrite sp a n).bare = s.bare := by
  unfold State.beforeWrite
  split
  · simp only [State.bare, List.map_map]
    rfl
  · rfl

theorem State.warps_beforeWrite (s : State) (sp : Space) (a n : Nat) : (s.beforeWrite sp a n).warps = s.warps := by
  unfold State.beforeWrite
  split <;> rfl

theorem State.sameMemory_beforeWrite (s : State) (sp : Space) (a n : Nat) : SameMemory s (s.beforeWrite sp a n) := by
  unfold State.beforeWrite
  split <;> exact ⟨fun _ => rfl, fun _ => rfl, fun _ _ => rfl, fun _ _ => rfl, fun _ _ => rfl⟩

/-- An on-die memory is there whatever its bytes are. -/
theorem State.hasSpace_bare (s : State) (sp : Space) : s.bare.hasSpace sp ↔ s.hasSpace sp := by
  have block (b : Nat) : (s.bare.block? b).isSome = (s.block? b).isSome := by
    simp only [State.bare, State.block?, List.find?_map, Option.isSome_map]
    rfl
  cases sp with
  | shared b => simp only [State.hasSpace, block]
  | spad d => simp [State.hasSpace, State.bare]
  | weight b => simp only [State.hasSpace, block]

theorem State.inImage_bare (s : State) (sp : Space) (a n : Nat) : s.bare.inImage sp a n = s.inImage sp a n := by
  cases sp with
  | spad d =>
    simp only [State.inImage, State.bare, List.any_map]
    rfl
  | _ => rfl

theorem State.hasSpace_of_bare {s t : State} (h : t.bare = s.bare) {sp : Space} (hs : s.hasSpace sp) : t.hasSpace sp := by
  rw [← State.hasSpace_bare, h, State.hasSpace_bare]
  exact hs

theorem State.inImage_of_bare {s t : State} (h : t.bare = s.bare) (sp : Space) (a n : Nat) : t.inImage sp a n = s.inImage sp a n := by
  rw [← State.inImage_bare, h, State.inImage_bare]

/-- A write event changes its bytes alone. -/
theorem State.written_spaceWrite (s : State) (sp : Space) (a : Nat) (bs : List Byte) (k : Option (Nat × Nat)) :
    Written s (s.spaceWrite sp a bs k) (bytesFrom sp a bs.length) := by
  unfold State.spaceWrite
  split
  · exact Written.refl s _
  · have before := s.sameMemory_beforeWrite sp a bs.length
    refine ⟨?_, ⟨fun x => ?_, fun x => ?_, fun q x hx => ?_⟩, ?_⟩
    · simp only [State.spacePut_warps, State.warps_beforeWrite, List.map_map]
      refine List.map_congr_left (fun w _ => ?_)
      simp only [Function.comp, Warp.unlatched, List.map_map, Warp.mk.injEq, true_and, and_true]
      exact List.map_congr_left (fun r _ => Record.bare_latchRecord _ _ _ _ _ _ _ r)
    · exact (congrArg (Cells.get · x) (State.spacePut_dram _ sp a bs)).trans (before.dram x)
    · exact (congrArg (Cells.get · x) (State.spacePut_hostMem _ sp a bs)).trans (before.host x)
    · refine Eq.trans ?_ ((State.byteAt_spacePut_other _ sp q a x bs hx).trans (before.byteAt q x))
      cases q <;> rfl
    · exact (State.bare_spacePut (s.beforeWrite sp a bs.length) sp a bs).trans (s.bare_beforeWrite sp a bs.length)

/-- A byte that a write event has written is read back, where no save image lies (R437). -/
theorem State.byteAt_spaceWrite (s : State) {sp : Space} {a j : Nat} {bs : List Byte} (k : Option (Nat × Nat)) (hs : s.hasSpace sp)
    (free : s.inImage sp a bs.length = false) (hj : j < bs.length) : (s.spaceWrite sp a bs k).byteAt sp (a + j) = bs.getD j 0 := by
  rw [← State.byteAt_spacePut_same (s.beforeWrite sp a bs.length) sp a j bs
    (State.hasSpace_of_bare (s.bare_beforeWrite sp a bs.length) hs) hj]
  simp only [State.spaceWrite, free]
  cases sp <;> rfl

/-- Write events of an on-die memory, one after the other. -/
def State.storeAll (s : State) (sp : Space) (k : Option (Nat × Nat)) (ws : List (Nat × List Byte)) : State :=
  ws.foldl (fun s x => s.spaceWrite sp x.1 x.2 k) s

theorem State.storeAll_append (s : State) (sp : Space) (k : Option (Nat × Nat)) (xs ys : List (Nat × List Byte)) :
    s.storeAll sp k (xs ++ ys) = (s.storeAll sp k xs).storeAll sp k ys := List.foldl_append

/-- Bytes of an on-die memory that writes cover. -/
def coveredBy (sp : Space) (ws : List (Nat × List Byte)) : Space → Nat → Prop :=
  fun q a => ∃ x ∈ ws, bytesFrom sp x.1 x.2.length q a

theorem State.written_storeAll (s : State) (sp : Space) (k : Option (Nat × Nat)) (ws : List (Nat × List Byte)) :
    Written s (s.storeAll sp k ws) (coveredBy sp ws) := by
  induction ws generalizing s with
  | nil => exact Written.refl s _
  | cons x ws ih =>
    have first := s.written_spaceWrite sp x.1 x.2 k
    exact (first.mono (fun q a h => ⟨x, List.mem_cons_self, h⟩)).trans
      ((ih _).mono (fun q a ⟨y, hy, h⟩ => ⟨y, List.mem_cons_of_mem _ hy, h⟩))

/-- Of several writes the last one that covers a byte gives its value. -/
theorem State.byteAt_storeAll (s : State) (sp : Space) (k : Option (Nat × Nat)) (xs ys : List (Nat × List Byte))
    (x : Nat × List Byte) (j : Nat) (hs : s.hasSpace sp) (free : s.inImage sp x.1 x.2.length = false) (hj : j < x.2.length)
    (last : ∀ y ∈ ys, ¬ (y.1 ≤ x.1 + j ∧ x.1 + j < y.1 + y.2.length)) :
    (s.storeAll sp k (xs ++ x :: ys)).byteAt sp (x.1 + j) = x.2.getD j 0 := by
  have before := (s.written_storeAll sp k xs).rest
  have step : s.storeAll sp k (xs ++ x :: ys) = ((s.storeAll sp k xs).spaceWrite sp x.1 x.2 k).storeAll sp k ys :=
    s.storeAll_append sp k xs (x :: ys)
  rw [step, (State.written_storeAll _ sp k ys).bytes.onDie sp _ (fun ⟨y, hy, h⟩ => last y hy h.2)]
  exact State.byteAt_spaceWrite _ k (State.hasSpace_of_bare before hs) (by rw [State.inImage_of_bare before]; exact free) hj

/-! ## The bytes of a store (Table 11.2) -/

theorem getD_natToBytes (n v k : Nat) (h : k < n) : (natToBytes n v).getD k 0 = BitVec.ofNat 8 (v / 2 ^ (8 * k)) := by
  induction n generalizing v k with
  | zero => omega
  | succ n ih =>
    cases k with
    | zero => simp [natToBytes]
    | succ k =>
      rw [natToBytes, List.getD_cons_succ, ih _ _ (by omega), Nat.div_div_eq_div_mul]
      congr 2
      rw [Nat.mul_add, Nat.pow_add, Nat.mul_comm]

/-- Byte j of words in a row is byte j mod 4 of word j div 4. -/
theorem getD_wordBytes (ws : List Word) (j : Nat) (h : j < 4 * ws.length) :
    (ws.flatMap (fun w => natToBytes 4 w.toNat)).getD j 0 = BitVec.ofNat 8 ((ws.getD (j / 4) 0).toNat / 2 ^ (8 * (j % 4))) := by
  induction ws generalizing j with
  | nil => simp at h
  | cons w ws ih =>
    rw [List.flatMap_cons]
    by_cases hj : j < 4
    · rw [List.getD_append _ _ _ _ (by simpa using hj), getD_natToBytes 4 _ j hj, Nat.div_eq_of_lt hj, Nat.mod_eq_of_lt hj]
      rfl
    · obtain ⟨m, rfl⟩ : ∃ m, j = m + 4 := ⟨j - 4, by omega⟩
      rw [List.getD_append_right _ _ _ _ (by simp), natToBytes_length, Nat.add_sub_cancel, ih m (by simp at h; omega),
        Nat.add_div_right m (by decide), Nat.add_mod_right]
      rfl

theorem szBytes_le (sz : Nat) : szBytes sz ≤ 4 * szRegs sz := by
  unfold szRegs szBytes
  split <;> decide

theorem szRegs_pos (sz : Nat) : 0 < szRegs sz := by
  unfold szRegs
  split <;> omega

theorem length_storeBytes {sz : Nat} {ws : List Word} (h : ws.length = szRegs sz) : (storeBytes sz ws).length = szBytes sz := by
  have := szBytes_le sz
  rw [storeBytes, List.length_take, length_flatMap_const ws _ 4 (fun _ _ => natToBytes_length 4 _)]
  omega

theorem getD_storeBytes {sz : Nat} {ws : List Word} (h : ws.length = szRegs sz) {j : Nat} (hj : j < szBytes sz) :
    (storeBytes sz ws).getD j 0 = BitVec.ofNat 8 ((ws.getD (j / 4) 0).toNat / 2 ^ (8 * (j % 4))) := by
  have := szBytes_le sz
  rw [← getD_wordBytes ws j (by omega), storeBytes]
  simp [List.getD_eq_getElem?_getD, hj]

end Sys2Proof.Machine

namespace Sys2Proof.Machine

/-! ## Folds of stores into a digest (R250, R251) -/

/-- The value by which the fold of a word pair steps a digest. -/
def foldWord (hi lo : Nat) : Dword := BitVec.ofNat 64 (hi % 2 ^ 32 * 2 ^ 32 + lo % 2 ^ 32)

/-- Byte a of a store of bytes at offset o, 0 where it stores none. -/
def storedByte (o : Nat) (bs : List Byte) (a : Nat) : Byte := if o ≤ a ∧ a < o + bs.length then bs.getD (a - o) 0 else 0

/-- The word pairs that a store folds: each aligned word that it touches, with its offset. -/
def storePairs (o : Nat) (bs : List Byte) : List (Nat × Nat) :=
  (List.range ((o + bs.length + 3) / 4 - o / 4)).map (fun j =>
    (4 * (o / 4 + j), bytesToNat ((List.range 4).map (fun b => storedByte o bs (4 * (o / 4 + j) + b)))))

theorem foldStore_eq (w : Warp) (o : Nat) (bs : List Byte) :
    foldStore w o bs = (storePairs o bs).foldl (fun w x => w.fold x.1 x.2) w := by
  simp only [foldStore, storePairs, List.foldl_map, storedByte, Bool.and_eq_true, decide_eq_true_eq]

theorem Warp.fold_eq (w : Warp) (hi lo : Nat) : ∃ dig folds, w.fold hi lo = { w with dig := dig, folds := folds } := by
  unfold Warp.fold
  split
  · exact ⟨_, w.folds, rfl⟩
  · exact ⟨w.dig, _, rfl⟩

/-- Where no earlier fold waits, a fold is made at once. -/
theorem Warp.fold_of_nil {w : Warp} (h : w.folds = []) (hi lo : Nat) :
    w.fold hi lo = { w with dig := digestStep w.dig (foldWord hi lo) } := by
  simp only [Warp.fold, h]
  rfl

theorem foldStore_rest (w : Warp) (o : Nat) (bs : List Byte) : ∃ dig folds, foldStore w o bs = { w with dig := dig, folds := folds } := by
  rw [foldStore_eq]
  induction storePairs o bs generalizing w with
  | nil => exact ⟨w.dig, w.folds, rfl⟩
  | cons x xs ih =>
    obtain ⟨d, f, e⟩ := w.fold_eq x.1 x.2
    obtain ⟨d', f', e'⟩ := ih (w.fold x.1 x.2)
    exact ⟨d', f', by rw [List.foldl_cons, e', e]⟩

theorem foldStore_of_nil {w : Warp} (h : w.folds = []) (o : Nat) (bs : List Byte) : foldStore w o bs =
    { w with dig := (storePairs o bs).foldl (fun d x => digestStep d (foldWord x.1 x.2)) w.dig } := by
  rw [foldStore_eq]
  induction storePairs o bs generalizing w with
  | nil => rfl
  | cons x xs ih =>
    rw [List.foldl_cons, Warp.fold_of_nil h, ih (by exact h), List.foldl_cons]

/-- A warp after a store instruction of given stores: ISS has counted it, and where it folds, each store is folded. -/
def Warp.stored (w : Warp) (folds : Bool) (xs : List (Nat × List Byte)) : Warp :=
  if folds then xs.foldl (fun w x => foldStore w x.1 x.2) { w with iss := w.iss + 1 } else { w with iss := w.iss + 1 }

theorem Warp.stored_eq (w : Warp) (folds : Bool) (xs : List (Nat × List Byte)) :
    ∃ dig fs, w.stored folds xs = { w with iss := w.iss + 1, dig := dig, folds := fs } ∧
      (folds = false → dig = w.dig ∧ fs = w.folds) := by
  have many (u : Warp) : ∃ dig fs, xs.foldl (fun w x => foldStore w x.1 x.2) u = { u with dig := dig, folds := fs } := by
    induction xs generalizing u with
    | nil => exact ⟨u.dig, u.folds, rfl⟩
    | cons x xs ih =>
      obtain ⟨d, f, e⟩ := foldStore_rest u x.1 x.2
      obtain ⟨d', f', e'⟩ := ih (foldStore u x.1 x.2)
      exact ⟨d', f', by rw [List.foldl_cons, e', e]⟩
  cases folds with
  | false => exact ⟨w.dig, w.folds, rfl, fun _ => ⟨rfl, rfl⟩⟩
  | true =>
    obtain ⟨d, f, e⟩ := many { w with iss := w.iss + 1 }
    exact ⟨d, f, e, fun n => by simp at n⟩

/-- Stores that fold at once step the digest one after the other. -/
theorem Warp.stored_of_nil {w : Warp} (h : w.folds = []) (xs : List (Nat × List Byte)) : w.stored true xs =
    { w with iss := w.iss + 1
             dig := xs.foldl (fun d y => (storePairs y.1 y.2).foldl (fun d x => digestStep d (foldWord x.1 x.2)) d) w.dig } := by
  have many (u : Warp) (hu : u.folds = []) : xs.foldl (fun w x => foldStore w x.1 x.2) u =
      { u with dig := xs.foldl (fun d y => (storePairs y.1 y.2).foldl (fun d x => digestStep d (foldWord x.1 x.2)) d) u.dig } := by
    induction xs generalizing u with
    | nil => rfl
    | cons x xs ih =>
      rw [List.foldl_cons, foldStore_of_nil hu]
      exact ih { u with dig := _ } hu
  exact many { w with iss := w.iss + 1 } h

/-- The stores of an instruction, counted and folded in the state. -/
theorem foldl_foldStore (s : State) (wid : Nat) (shared : Bool) (xs : List (Nat × List Byte)) :
    xs.foldl (fun s x => if shared then s else s.foldStore wid x.1 x.2) (s.noteStore wid) =
      s.modWarp wid (fun w => w.stored (!shared && s.isDet w) xs) := by
  cases shared with
  | true =>
    exact foldl_keeps _ id (fun _ _ => rfl) xs _
  | false =>
    have many (u : State) : xs.foldl (fun s x => s.foldStore wid x.1 x.2) u =
        u.modWarp wid (fun w => if u.isDet w then xs.foldl (fun w x => foldStore w x.1 x.2) w else w) := by
      induction xs generalizing u with
      | nil => simp [State.modWarp_self]
      | cons x xs ih =>
        have det (w : Warp) : u.isDet (foldStore w x.1 x.2) = u.isDet w := by
          obtain ⟨d, f, e⟩ := foldStore_rest w x.1 x.2
          rw [e]
          rfl
        have wid' (w : Warp) : (if u.isDet w then foldStore w x.1 x.2 else w).wid = w.wid := by
          obtain ⟨d, f, e⟩ := foldStore_rest w x.1 x.2
          rw [e]
          split <;> rfl
        rw [List.foldl_cons, ih, State.foldStore, State.modWarp_modWarp _ _ _ _ wid']
        refine congrArg (u.modWarp wid) (funext (fun w => ?_))
        have same (v : Warp) : (u.modWarp wid (fun w => if u.isDet w then foldStore w x.1 x.2 else w)).isDet v = u.isDet v := rfl
        simp only [same]
        by_cases hd : u.isDet w = true
        · simp [hd, det]
        · simp [hd]
    simp only [Bool.false_eq_true, if_false, Bool.not_false, Bool.true_and]
    rw [many]
    exact State.modWarp_modWarp s wid (fun w => { w with iss := w.iss + 1 }) _ (fun _ => rfl)

/-! ## Word pairs of an aligned store -/

theorem toNat_append_eq {n m : Nat} (x : BitVec n) (y : BitVec m) : (x ++ y).toNat = x.toNat * 2 ^ m + y.toNat := by
  rw [BitVec.toNat_append, ← Nat.shiftLeft_add_eq_or_of_lt y.isLt, Nat.shiftLeft_eq]

/-- A word pair as its offset above its four bytes. -/
theorem foldWord_append (a : Nat) (b0 b1 b2 b3 : Byte) :
    foldWord a (bytesToNat [b0, b1, b2, b3]) = BitVec.ofNat 32 a ++ (b3 ++ b2 ++ b1 ++ b0) := by
  refine BitVec.eq_of_toNat_eq ?_
  have h0 := b0.isLt
  have h1 := b1.isLt
  have h2 := b2.isLt
  have h3 := b3.isLt
  simp only [foldWord, bytesToNat, BitVec.toNat_ofNat, toNat_append_eq]
  omega

/-- The pair that word k of those a store touches folds. -/
def storedPair (o : Nat) (bs : List Byte) (k : Nat) : Dword :=
  let a := o / 4 * 4 + 4 * k
  BitVec.ofNat 32 a ++ (storedByte o bs (a + 3) ++ storedByte o bs (a + 2) ++ storedByte o bs (a + 1) ++ storedByte o bs a)

/-- An aligned store touches a word, or all its words. -/
theorem wordsTouched {o z : Nat} (hz : z = 1 ∨ z = 2 ∨ z = 4 ∨ z = 8 ∨ z = 16) (al : o % z = 0) :
    (o + z + 3) / 4 - o / 4 = max 1 (z / 4) := by
  rcases hz with rfl | rfl | rfl | rfl | rfl <;> omega

/-- The pair that a fold of a touched word takes. -/
theorem foldWord_storePairs (o : Nat) (bs : List Byte) (k : Nat) :
    foldWord (4 * (o / 4 + k)) (bytesToNat ((List.range 4).map (fun b => storedByte o bs (4 * (o / 4 + k) + b)))) =
      storedPair o bs k := by
  have place : 4 * (o / 4 + k) = o / 4 * 4 + 4 * k := by omega
  have words (f : Nat → Byte) : (List.range 4).map f = [f 0, f 1, f 2, f 3] := rfl
  rw [place, words, foldWord_append]
  rfl

theorem foldl_storePairs {o : Nat} {bs : List Byte}
    (hz : bs.length = 1 ∨ bs.length = 2 ∨ bs.length = 4 ∨ bs.length = 8 ∨ bs.length = 16) (al : o % bs.length = 0) (d : Dword) :
    (storePairs o bs).foldl (fun d x => digestStep d (foldWord x.1 x.2)) d =
      (List.range (max 1 (bs.length / 4))).foldl (fun d k => digestStep d (storedPair o bs k)) d := by
  rw [storePairs, wordsTouched hz al, List.foldl_map]
  simp only [foldWord_storePairs]

end Sys2Proof.Machine

namespace Sys2Proof.Machine

/-! ## Stores -/

/-- The bytes that a lane of a store takes from A (Table 11.2). -/
def State.storeData (s : State) (o : Operands) (c : Cur) (w : Warp) (l : Nat) : List Byte :=
  storeBytes (o.mods 0 3) (operandWords s w c.lanes l (szRegs (o.mods 0 3)) false o.a)

/-- What a store leaves of its lanes that pass R254, before the others trap. -/
def State.storePassing (s : State) (i : Instr) (c : Cur) (w : Warp) (shared : Bool) : State :=
  let g := s.passing i c w shared (szBytes (i.operands.mods 0 3))
  let vs := g.map ((s.env i c w).valsOf (s.advance c) (szRegs (i.operands.mods 0 3)) 1 0 0)
  let x : Suspension := { lanes := g, wait := .nothing, ls := i.operands.ls, vals := vs }
  let t := storeTry i shared (w.made + 1) (s.advance c) w vs
  let made := (s.advance c).complete (s.env i c w) x t
  if g.isEmpty then s.advance c
  else if t.wait.isSome && ((s.advance c).suspend? (s.env i c w) { x with wait := .hold [] }).isNone then made
  else made.modWarp c.wid (fun u => u.stored (!shared && made.isDet u)
    (g.map (fun l => (s.offsetAt i.operands c w l, s.storeData i.operands c w l))))

theorem length_storeData (s : State) (o : Operands) (c : Cur) (w : Warp) (l : Nat) :
    (s.storeData o c w l).length = szBytes (o.mods 0 3) :=
  length_storeBytes (length_operandWords _ _ _ _ _ _ _ (szRegs_pos _))

/-- A store writes byte j of its registers (R5). -/
theorem getD_storeData (s : State) (o : Operands) (c : Cur) (w : Warp) (l : Nat) {j : Nat} (hj : j < szBytes (o.mods 0 3)) :
    (s.storeData o c w l).getD j 0 = BitVec.ofNat 8
      (((operandWords s w c.lanes l (szRegs (o.mods 0 3)) false o.a).getD (j / 4) 0).toNat / 2 ^ (8 * (j % 4))) :=
  getD_storeBytes (length_operandWords _ _ _ _ _ _ _ (szRegs_pos _)) hj

section
variable {shared : Bool} {i : Instr} (st : IsStore shared i) (s : State) (c : Cur) (w : Warp)
include st

/-- The words that a store captures of a lane are those it stores. -/
theorem IsStore.captured (l : Nat) : storeBytes (i.operands.mods 0 3)
    ((s.env i c w).valsOf (s.advance c) (szRegs (i.operands.mods 0 3)) 1 0 0 l).a = s.storeData i.operands c w l := by
  rw [Env.valsOf_a _ _ _ _ _ _ _ (szRegs_pos _) (by rw [State.env_i, st.opcode]; cases shared <;> decide), Env.words_advance]
  rfl

/-- A store without a line to wait for before it: the lanes that pass are served, the others trap (R258). -/
theorem IsStore.storeInstr_eq (free : (s.advance c).hBlockers (s.env i c w) = []) :
    (s.advance c).storeInstr (s.env i c w) shared =
      (s.storePassing i c w shared).raise (s.env i c w) (s.failing i c w shared (szBytes (i.operands.mods 0 3))) := by
  have folds (u : State) (g : List Nat) : (g.map ((s.env i c w).valsOf (s.advance c) (szRegs (i.operands.mods 0 3)) 1 0 0)).foldl
      (fun u v => if shared then u else u.foldStore c.wid (offsetOf i.operands v.b0) (storeBytes (i.operands.mods 0 3) v.a))
        (u.noteStore c.wid) = u.modWarp c.wid (fun x => x.stored (!shared && u.isDet x)
          (g.map (fun l => (s.offsetAt i.operands c w l, s.storeData i.operands c w l)))) := by
    rw [← foldl_foldStore, List.foldl_map, List.foldl_map]
    simp only [st.captured, Env.valsOf_b0, State.offsetOf_advance]
  simp only [State.storeInstr, free, State.env_o, State.env_i, State.env_c, State.env_w, State.checkLanes_advance, folds,
    State.storePassing]
  by_cases none : (s.passing i c w shared (szBytes (i.operands.mods 0 3))).isEmpty = true
  · simp [none]
  · simp only [none, List.isEmpty_nil, Bool.not_true, Bool.false_eq_true, if_false]
end

/-- The stores of lanes whose lines are all free. -/
theorem storeTry_stored {i : Instr} {shared : Bool} {n : Nat} {s : State} {w : Warp} {vs : List LaneVals}
    (free : s.blockers w shared (szBytes (i.operands.mods 0 3)) (vs.map (fun v => offsetOf i.operands v.b0)) = []) :
    storeTry i shared n s w vs = { s := s.storeAll (w.space shared) (some (w.wid, n)) (vs.map (fun v =>
      (s.spaceAddr w shared (offsetOf i.operands v.b0), storeBytes (i.operands.mods 0 3) v.a))) } := by
  have place (u : State) (h : u.bare = s.bare) (o : Nat) : u.spaceAddr w shared o = s.spaceAddr w shared o :=
    (congrArg (fun x : State => x.spaceAddr w shared o) h :)
  have all (vs : List LaneVals) (u : State) (h : u.bare = s.bare) : vs.foldl (fun u v => u.spaceWrite (w.space shared)
      (u.spaceAddr w shared (offsetOf i.operands v.b0)) (storeBytes (i.operands.mods 0 3) v.a) (some (w.wid, n))) u =
        u.storeAll (w.space shared) (some (w.wid, n))
          (vs.map (fun v => (s.spaceAddr w shared (offsetOf i.operands v.b0), storeBytes (i.operands.mods 0 3) v.a))) := by
    induction vs generalizing u with
    | nil => rfl
    | cons v vs ih =>
      rw [List.foldl_cons, place u h, ih _ ((u.written_spaceWrite _ _ _ _).rest.trans h)]
      rfl
  simp only [storeTry, free, all vs s rfl]
  rfl

/-- A store whose active lanes all pass R254 and meet no owned line makes its write events, is counted, and is folded. -/
theorem IsStore.storePassing_stored {shared : Bool} {i : Instr} (st : IsStore shared i) {s : State} {c : Cur} {w : Warp}
    (free : s.accessesFree i c w shared (szBytes (i.operands.mods 0 3))) (some : activeLanes s i c w ≠ []) :
    s.storePassing i c w shared = ((s.advance c).storeAll (w.space shared) (Option.some (w.wid, w.made + 1))
      ((activeLanes s i c w).map (fun l => (s.addressAt i.operands c w shared l, s.storeData i.operands c w l)))).modWarp c.wid
        (fun u => u.stored (!shared && s.isDet u)
          ((activeLanes s i c w).map (fun l => (s.offsetAt i.operands c w l, s.storeData i.operands c w l)))) := by
  have busy : (activeLanes s i c w).isEmpty = false := by simpa using some
  have tried := storeTry_stored (i := i) (shared := shared) (n := w.made + 1) (s := s.advance c) (w := w)
    (vs := (activeLanes s i c w).map ((s.env i c w).valsOf (s.advance c) (szRegs (i.operands.mods 0 3)) 1 0 0))
    (by rw [State.offsets_valsOf]; exact free.blockers)
  have place (l : Nat) : (s.advance c).spaceAddr w shared (s.offsetAt i.operands c w l) = s.addressAt i.operands c w shared l := rfl
  have stores : ((activeLanes s i c w).map ((s.env i c w).valsOf (s.advance c) (szRegs (i.operands.mods 0 3)) 1 0 0)).map
      (fun v => ((s.advance c).spaceAddr w shared (offsetOf i.operands v.b0), storeBytes (i.operands.mods 0 3) v.a)) =
        (activeLanes s i c w).map (fun l => (s.addressAt i.operands c w shared l, s.storeData i.operands c w l)) := by
    rw [List.map_map]
    refine List.map_congr_left (fun l _ => ?_)
    simp only [Function.comp, Env.valsOf_b0, State.offsetOf_advance, st.captured, place]
  have det (u : State) (h : u.bare = s.bare) (x : Warp) : u.isDet x = s.isDet x := (congrArg (fun y : State => y.isDet x) h :)
  have kept := ((s.advance c).written_storeAll (w.space shared) (Option.some (w.wid, w.made + 1))
    ((activeLanes s i c w).map (fun l => (s.addressAt i.operands c w shared l, s.storeData i.operands c w l)))).rest.trans
      (State.bare_of_still (s.ahead_advance c).still)
  simp only [State.storePassing, State.passing_of_checked free.checked, busy, tried, stores, State.complete, State.writeRegs_eq,
    Warp.writeRegs, List.foldl_nil, State.modWarp_self, det _ kept]
  rfl

end Sys2Proof.Machine

namespace Sys2Proof.Machine

/-! ## The frame of a store -/

/-- A change of what counts and folds a warp's stores, of its folds only where the warp folds. -/
def Counting (folds : Warp → Bool) (F : Warp → Warp) : Prop :=
  ∀ u, ∃ iss dig fs, F u = { u with iss := iss, dig := dig, folds := fs } ∧ (folds u = false → dig = u.dig ∧ fs = u.folds)

theorem Record.bare_bare (r : Record) : r.bare.bare = r.bare := by
  cases hr : r.wait with
  | word sh a x v k => simp only [Record.bare, hr]
  | _ => simp only [Record.bare, hr]

theorem Warp.latchless_unlatched (w : Warp) : w.unlatched.latchless = w.latchless := by
  simp only [Warp.latchless, Warp.unlatched, List.map_map, Function.comp_def, Record.bare_bare]

/-- What is bare of a warp is bare of its latchless part. -/
theorem Warp.bare_latchless (w : Warp) : w.latchless.bare = w.bare := by
  simp only [Warp.bare, Warp.latchless, List.map_map, Function.comp_def, Record.bare_bare]

theorem State.latchless_advance (s : State) (c : Cur) : (s.advance c).warps.map Warp.latchless = s.warps.map Warp.latchless :=
  s.map_modWarp c.wid _ _ (fun w => by rw [Warp.eq_of_still (Warp.still_modLanes w _ _)]; rfl)

theorem Written.latchless {s t : State} {A : Space → Nat → Prop} (h : Written s t A) :
    t.warps.map Warp.latchless = s.warps.map Warp.latchless := by
  have e (x : State) : x.warps.map Warp.latchless = (x.warps.map Warp.unlatched).map Warp.latchless := by
    rw [List.map_map]
    exact List.map_congr_left (fun w _ => w.latchless_unlatched.symm)
  rw [e, h.warps, ← e]

/-- Write events change no lane. -/
theorem Written.laneAt {s t : State} {A : Space → Nat → Prop} (h : Written s t A) (v l : Nat) : t.laneAt v l = s.laneAt v l := by
  have lane (x : State) : x.laneAt v l = (((x.warp? v).map Warp.unlatched).map (fun w => w.lane l)).getD { st := .ended } := by
    rw [Option.map_map]
    rfl
  rw [lane, lane, State.warp?_map_of_warps Warp.unlatched (fun _ => rfl) h.warps]

theorem State.laneAt_modWarp_of_lanes (s : State) (wid : Nat) (F : Warp → Warp) (hw : ∀ u, (F u).wid = u.wid)
    (hl : ∀ u, (F u).lanes = u.lanes) (v l : Nat) : (s.modWarp wid F).laneAt v l = s.laneAt v l := by
  have lane (u : Warp) : (F u).lane l = u.lane l := by rw [Warp.lane_eq, Warp.lane_eq, hl]
  simp only [State.laneAt, State.warp?_modWarp s v wid F hw]
  cases s.warp? v with
  | none => rfl
  | some u =>
    simp only [Option.map_some, Option.getD_some]
    split
    · exact lane u
    · rfl

section
variable {s : State} {c : Cur} {sp : Space} {A : Space → Nat → Prop} {m : State} (wr : Written (s.advance c) m A)
include wr

/-- After the advance and write events a warp is found as it was, but for its lanes and latches. -/
theorem Written.find {v : Nat} {w : Warp} (hw : s.warp? v = some w) : ∃ u, m.warp? v = some u ∧ u.latchless = w.latchless := by
  have e := State.warp?_map_of_warps Warp.latchless (fun _ => rfl) (wr.latchless.trans (s.latchless_advance c)) v
  rw [hw, Option.map_some, Option.map_eq_some_iff] at e
  exact e

/-- The warp of an issuing set of a DET launch is found with its digest and folds. -/
theorem Written.find_det {i : Instr} {w : Warp} (h : Issuing s i c w) (det : s.isDet w = true) (none : w.folds = []) :
    ∃ u, m.warp? c.wid = some u ∧ s.isDet u = true ∧ u.folds = [] ∧ u.dig = w.dig := by
  obtain ⟨v, hv, rfl, -⟩ := h.found
  obtain ⟨part, rnd, axc, read⟩ := v.readBy_eq c
  obtain ⟨u, hu, e⟩ := wr.find hv
  have isDet : s.isDet u = s.isDet v := (congrArg s.isDet e :)
  have folds : u.folds = v.folds := (congrArg Warp.folds e :)
  have dig : u.dig = v.dig := (congrArg Warp.dig e :)
  rw [read] at det none
  exact ⟨u, hu, isDet.trans det, folds.trans none, by rw [read, dig]⟩

/-- Write events after an advance, and the count and the folds of stores, are all that a store does. -/
theorem Written.touches {i : Instr} {w : Warp} (h : Issuing s i c w) {F : Warp → Warp} (hF : Counting s.isDet F) :
    Touches s (m.modWarp c.wid F) c [] (fun _ => false) A := by
  have ahead := s.ahead_advance c
  have wid (u : Warp) : (F u).wid = u.wid := by
    obtain ⟨_, _, _, e, -⟩ := hF u
    rw [e]
  have lanes (u : Warp) : (F u).lanes = u.lanes := by
    obtain ⟨_, _, _, e, -⟩ := hF u
    rw [e]
  have bare (u : Warp) : (F u).bare = u.bare := by
    obtain ⟨_, _, _, e, -⟩ := hF u
    rw [e]
    rfl
  have lane (v l : Nat) : (m.modWarp c.wid F).laneAt v l = (s.advance c).laneAt v l :=
    (m.laneAt_modWarp_of_lanes c.wid F wid lanes v l).trans (wr.laneAt v l)
  have latchless := wr.latchless.trans (s.latchless_advance c)
  refine ⟨fun v l => ?_, (State.moved_advance h).congr (fun v l => ?_), ?_, ?_, fun v hv => ?_, fun v hv det => ?_, ?_⟩
  · obtain ⟨regs, fpx, gen, still⟩ := ahead.lane v l
    exact ⟨fun k _ => (congrArg (·.reg k) (lane v l)).trans (regs k), (congrArg Lane.fpx (lane v l)).trans fpx,
      (congrArg Lane.gen (lane v l)).trans gen, (congrArg Lane.still (lane v l)).trans still⟩
  · rw [lane]
    exact ⟨rfl, rfl, rfl⟩
  · have after := (ahead.bytesKept A).trans wr.bytes
    refine ⟨after.dram, after.host, fun sp a n => Eq.trans ?_ (after.onDie sp a n)⟩
    cases sp <;> rfl
  · have e (x : State) : x.warps.map Warp.bare = (x.warps.map Warp.latchless).map Warp.bare := by
      rw [List.map_map]
      exact List.map_congr_left (fun w _ => w.bare_latchless.symm)
    rw [State.map_modWarp m c.wid F _ bare, e, latchless, ← e]
  · rw [State.warp?_modWarp_other m hv F wid]
    exact State.warp?_map_of_warps Warp.latchless (fun _ => rfl) latchless v
  · obtain ⟨u, hu, e⟩ := wr.find hv
    obtain ⟨iss, dig, fs, eF, kept⟩ := hF u
    have same : s.isDet u = s.isDet v := (congrArg s.isDet e :)
    obtain ⟨hd, hf⟩ := kept (same.trans det)
    refine ⟨F u, State.warp?_modWarp_same hu F wid, ?_⟩
    rw [eF, hd, hf]
    exact ⟨(congrArg Warp.dig e :), (congrArg Warp.sites e :), (congrArg Warp.folds e :)⟩
  · exact wr.rest.trans (State.bare_of_still ahead.still)
end

end Sys2Proof.Machine

namespace Sys2Proof.Machine

/-! ## The check of R254 -/

/-- An access lies in shared memory, or in the window outside the spill area (R208, R210). -/
def State.reaches (s : State) (w : Warp) (shared : Bool) (o z : Nat) : Prop :=
  if shared then o + z ≤ s.sharedLimit w else ∃ x, s.ctx? w.ctx = some x ∧ x.windowOk w.die o z w.supervisor = true

section
variable {s : State} {w : Warp} {shared : Bool} {o z al : Nat}

theorem State.checkAccess_of_not_reaches (h : ¬ s.reaches w shared o z) :
    s.checkAccess w shared o z al = if shared then 0x11 else 0x10 := by
  cases shared with
  | true =>
    have out : ¬ o + z ≤ s.sharedLimit w := h
    simp [State.checkAccess, lowestTrap, out]
  | false =>
    have out : ((s.ctx? w.ctx).map (fun c => c.windowOk w.die o z w.supervisor)).getD false = false := by
      cases hx : s.ctx? w.ctx with
      | none => rfl
      | some x => simpa using fun ok => h ⟨x, hx, ok⟩
    simp [State.checkAccess, lowestTrap, out]

theorem State.checkAccess_of_reaches (h : s.reaches w shared o z) :
    s.checkAccess w shared o z al = if o % al = 0 then 0 else 0x12 := by
  cases shared with
  | true =>
    have bound : o + z ≤ s.sharedLimit w := h
    by_cases ha : o % al = 0 <;> simp [State.checkAccess, lowestTrap, bound, ha]
  | false =>
    obtain ⟨x, hx, bound⟩ := h
    by_cases ha : o % al = 0 <;> simp [State.checkAccess, lowestTrap, hx, bound, ha]

/-- An access that passes lies inside and is aligned. -/
theorem State.reaches_of_checkAccess (h : s.checkAccess w shared o z al = 0) : s.reaches w shared o z ∧ o % al = 0 := by
  by_cases inside : s.reaches w shared o z
  · rw [State.checkAccess_of_reaches inside] at h
    exact ⟨inside, by by_contra n; simp [n] at h⟩
  · rw [State.checkAccess_of_not_reaches inside] at h
    cases shared <;> simp at h
end

/-- Where an access of some bytes passes, its memory is there. -/
theorem Issuing.hasSpace {s : State} {i : Instr} {c : Cur} {w : Warp} (h : Issuing s i c w) {shared : Bool} {o z al : Nat}
    (ok : s.checkAccess w shared o z al = 0) (hz : 0 < z) : s.hasSpace (w.space shared) := by
  cases shared with
  | false => exact h.onDie
  | true =>
    have bound : o + z ≤ s.sharedLimit w := (State.reaches_of_checkAccess ok).1
    cases hb : w.block with
    | none =>
      simp [State.sharedLimit, State.blockOf, hb] at bound
      omega
    | some b =>
      cases hx : s.block? b with
      | none =>
        simp [State.sharedLimit, State.blockOf, hb, hx] at bound
        omega
      | some x => simp [State.hasSpace, Warp.space, hb, hx]

/-- An instruction that issues without a trap is legal (R22). -/
theorem Issuing.legal {s : State} {i : Instr} {c : Cur} {w : Warp} (h : Issuing s i c w) : staticLegal i = true := by
  have trap := h.noTrap
  cases legal : staticLegal i with
  | true => rfl
  | false =>
    rw [State.issueTrap, legal] at trap
    exact absurd (trap : 1 = 0) Nat.one_ne_zero

/-- A store that issues without a trap has a size (Table 11.1). -/
theorem IsStore.size {shared : Bool} {i : Instr} (st : IsStore shared i) {s : State} {c : Cur} {w : Warp} (h : Issuing s i c w) :
    let z := szBytes (i.operands.mods 0 3)
    z = 1 ∨ z = 2 ∨ z = 4 ∨ z = 8 ∨ z = 16 := by
  have legal := h.legal
  simp only [staticLegal, st.sig, sigSt, Bool.and_eq_true, decide_eq_true_eq] at legal
  have bound : i.operands.modBits ≤ 6 := by tauto
  have mods : i.operands.mods 0 3 = i.operands.modBits := by
    simp only [Operands.mods, bitsOf]
    omega
  rw [mods]
  interval_cases i.operands.modBits <;> simp [szBytes]

end Sys2Proof.Machine

namespace Sys2Proof.Machine

/-! ## Results of stores -/

theorem counting_stored (s : State) (shared : Bool) (xs : List (Nat × List Byte)) :
    Counting s.isDet (fun u => u.stored (!shared && s.isDet u) xs) := fun u => by
  obtain ⟨dig, fs, e, kept⟩ := u.stored_eq (!shared && s.isDet u) xs
  exact ⟨_, dig, fs, e, fun n => kept (by rw [n, Bool.and_false])⟩

/-- The write events of a store's active lanes, in ascending order (R258). -/
def State.storeEvents (s : State) (i : Instr) (c : Cur) (w : Warp) (shared : Bool) : List (Nat × List Byte) :=
  (activeLanes s i c w).map (fun l => (s.addressAt i.operands c w shared l, s.storeData i.operands c w l))

/-- The warp after a store: counted and folded, if some lane is active. -/
def State.afterStore (s : State) (i : Instr) (c : Cur) (w : Warp) (shared : Bool) (u : Warp) : Warp :=
  if activeLanes s i c w = [] then u
  else u.stored (!shared && s.isDet u)
    ((activeLanes s i c w).map (fun l => (s.offsetAt i.operands c w l, s.storeData i.operands c w l)))

theorem State.counting_afterStore (s : State) (i : Instr) (c : Cur) (w : Warp) (shared : Bool) :
    Counting s.isDet (s.afterStore i c w shared) := fun u => by
  unfold State.afterStore
  split
  · exact ⟨u.iss, u.dig, u.folds, rfl, fun _ => ⟨rfl, rfl⟩⟩
  · exact counting_stored s shared _ u

theorem State.iss_afterStore (s : State) (i : Instr) (c : Cur) (w : Warp) (shared : Bool) (u : Warp) :
    (s.afterStore i c w shared u).iss = u.iss + if activeLanes s i c w = [] then 0 else 1 := by
  unfold State.afterStore
  split
  · rfl
  · obtain ⟨dig, fs, e, -⟩ := u.stored_eq (!shared && s.isDet u)
      ((activeLanes s i c w).map (fun l => (s.offsetAt i.operands c w l, s.storeData i.operands c w l)))
    rw [e]

/-- The digest after a store of a DET launch where no earlier fold waits (R250, R251). -/
theorem State.digest_afterStore {s : State} {i : Instr} {c : Cur} {w : Warp} {shared : Bool} {u : Warp} (det : s.isDet u = true)
    (none : u.folds = []) : (s.afterStore i c w shared u).folds = [] ∧ (s.afterStore i c w shared u).dig =
      if shared then u.dig else (activeLanes s i c w).foldl (fun d l =>
        (storePairs (s.offsetAt i.operands c w l) (s.storeData i.operands c w l)).foldl (fun d x => digestStep d (foldWord x.1 x.2)) d) u.dig := by
  unfold State.afterStore
  split
  · next empty =>
    rw [empty]
    exact ⟨none, by cases shared <;> rfl⟩
  · cases shared with
    | true => exact ⟨none, rfl⟩
    | false =>
      rw [det, Bool.not_false, Bool.and_self, Warp.stored_of_nil none]
      exact ⟨none, List.foldl_map⟩

section
variable {shared : Bool} {i : Instr} (st : IsStore shared i) {s : State} {c : Cur} {w : Warp} (h : Issuing s i c w)
include st h

/-- A store that no line holds back: the lanes that pass R254 are served, then the others trap. -/
theorem IsStore.run (free : (s.advance c).hBlockers (s.env i c w) = []) : exec i s = .next
    ((s.storePassing i c w shared).raise (s.env i c w) (s.failing i c w shared (szBytes (i.operands.mods 0 3)))) := by
  rw [st.runs, issue_next h, st.storeInstr_eq _ _ _ free]

/-- A store whose accesses are all free: its write events, its count and its folds. -/
theorem IsStore.run_free (free : s.accessesFree i c w shared (szBytes (i.operands.mods 0 3))) : exec i s = .next
    (((s.advance c).storeAll (w.space shared) (some (w.wid, w.made + 1)) (s.storeEvents i c w shared)).modWarp c.wid
      (s.afterStore i c w shared)) := by
  have unheld := free.hBlockers (by
    rw [st.opcode]
    cases shared <;> simp)
  rw [st.run h unheld, State.failing_of_checked free.checked]
  refine congrArg _ (Eq.trans (b := s.storePassing i c w shared) rfl ?_)
  by_cases empty : activeLanes s i c w = []
  · have keep : s.afterStore i c w shared = fun u => u := by
      funext u
      rw [State.afterStore, if_pos empty]
    rw [keep, State.modWarp_self, State.storeEvents, empty, State.storePassing, State.passing_of_checked free.checked, empty]
    rfl
  · have count : s.afterStore i c w shared = fun u => u.stored (!shared && s.isDet u)
        ((activeLanes s i c w).map (fun l => (s.offsetAt i.operands c w l, s.storeData i.operands c w l))) := by
      funext u
      rw [State.afterStore, if_neg empty]
    rw [count]
    exact st.storePassing_stored free empty
end

/-- Bytes of a store's events are those of its lanes' accesses. -/
theorem coveredBy_storeEvents {s : State} {i : Instr} {c : Cur} {w : Warp} {shared : Bool} {sp : Space} {a : Nat}
    (hc : coveredBy (w.space shared) (s.storeEvents i c w shared) sp a) : sp = w.space shared ∧ ∃ l ∈ activeLanes s i c w,
      s.addressAt i.operands c w shared l ≤ a ∧ a < s.addressAt i.operands c w shared l + szBytes (i.operands.mods 0 3) := by
  obtain ⟨x, hx, hb⟩ := hc
  obtain ⟨l, hl, rfl⟩ := List.mem_map.mp hx
  rw [length_storeData] at hb
  exact ⟨hb.1, l, hl, hb.2⟩

/-- Each byte of a store is that of the highest lane that covers it. -/
theorem byteAt_storeEvents {s t : State} {i : Instr} {c : Cur} {w : Warp} {shared : Bool} (h : Issuing s i c w) (ht : t.bare = s.bare)
    (k : Option (Nat × Nat)) (free : s.accessesFree i c w shared (szBytes (i.operands.mods 0 3)))
    (images : ∀ l ∈ activeLanes s i c w,
      s.inImage (w.space shared) (s.addressAt i.operands c w shared l) (szBytes (i.operands.mods 0 3)) = false)
    {l j : Nat} (hl : l ∈ activeLanes s i c w) (hj : j < szBytes (i.operands.mods 0 3))
    (last : ∀ m ∈ activeLanes s i c w, l < m → ¬ (s.addressAt i.operands c w shared m ≤ s.addressAt i.operands c w shared l + j ∧
      s.addressAt i.operands c w shared l + j < s.addressAt i.operands c w shared m + szBytes (i.operands.mods 0 3))) :
    (t.storeAll (w.space shared) k (s.storeEvents i c w shared)).byteAt (w.space shared) (s.addressAt i.operands c w shared l + j) =
      (s.storeData i.operands c w l).getD j 0 := by
  obtain ⟨xs, ys, split⟩ := List.append_of_mem hl
  have above : ∀ m ∈ ys, l < m := by
    have sorted := activeLanes_sorted h
    rw [split] at sorted
    exact (List.pairwise_cons.mp (List.pairwise_append.mp sorted).2.1).1
  have len := length_storeData s i.operands c w
  rw [State.storeEvents, split, List.map_append, List.map_cons]
  refine t.byteAt_storeAll (w.space shared) k _ _ (s.addressAt i.operands c w shared l, s.storeData i.operands c w l) j ?_ ?_ ?_
    (fun y hy => ?_)
  · exact State.hasSpace_of_bare ht (h.hasSpace (free.checked l hl) (Nat.zero_lt_of_lt hj))
  · rw [State.inImage_of_bare ht, len]
    exact images l hl
  · rw [len]
    exact hj
  · obtain ⟨m, hm, rfl⟩ := List.mem_map.mp hy
    rw [len]
    exact last m (by rw [split]; simp [hm]) (above m hm)

/-- A byte of a store in place, by the words of its registers. -/
theorem storedByte_storeData (s : State) (o : Operands) (c : Cur) (w : Warp) (l x a : Nat) :
    storedByte x (s.storeData o c w l) a = if x ≤ a ∧ a < x + szBytes (o.mods 0 3) then
      BitVec.ofNat 8 (((operandWords s w c.lanes l (szRegs (o.mods 0 3)) false o.a).getD ((a - x) / 4) 0).toNat / 2 ^ (8 * ((a - x) % 4)))
      else 0 := by
  rw [storedByte, length_storeData]
  split
  · exact getD_storeData s o c w l (by omega)
  · rfl

/-- A store whose accesses are all free and clear of save images. -/
theorem IsStore.stores {shared : Bool} {i : Instr} (st : IsStore shared i) {s : State} {c : Cur} {w : Warp} (h : Issuing s i c w)
    (free : s.accessesFree i c w shared (szBytes (i.operands.mods 0 3))) :
    let p := activeLanes s i c w
    let z := szBytes (i.operands.mods 0 3)
    let addr (l : Nat) : Nat := s.addressAt i.operands c w shared l
    let covers (l a : Nat) : Prop := addr l ≤ a ∧ a < addr l + z
    let data (l j : Nat) : Byte := BitVec.ofNat 8
      (((operandWords s w c.lanes l (szRegs (i.operands.mods 0 3)) false i.operands.a).getD (j / 4) 0).toNat / 2 ^ (8 * (j % 4)))
    let part (l a : Nat) : Byte :=
      let x := s.offsetAt i.operands c w l
      if x ≤ a ∧ a < x + z then data l (a - x) else 0
    let pair (l k : Nat) : Dword :=
      let a := s.offsetAt i.operands c w l / 4 * 4 + 4 * k
      BitVec.ofNat 32 a ++ (part l (a + 3) ++ part l (a + 2) ++ part l (a + 1) ++ part l a)
    (∀ l ∈ p, s.inImage (w.space shared) (addr l) z = false) →
    ∃ t, exec i s = .next t ∧ Touches s t c [] (fun _ => false) (fun sp a => sp = w.space shared ∧ ∃ l ∈ p, covers l a) ∧
      (∀ l ∈ p, ∀ j < z, (∀ m ∈ p, l < m → ¬ covers m (addr l + j)) → t.byteAt (w.space shared) (addr l + j) = data l j) ∧
      IssueCounts s t c.wid (if p = [] then 0 else 1) ∧
      (s.isDet w = true → w.folds = [] → ∃ u, t.warp? c.wid = some u ∧ u.folds = [] ∧ u.dig = if shared then w.dig
        else p.foldl (fun d l => (List.range (max 1 (z / 4))).foldl (fun d k => digestStep d (pair l k)) d) w.dig) := by
  intro p z addr covers data part pair images
  have counting := s.counting_afterStore i c w shared
  have wid (u : Warp) : (s.afterStore i c w shared u).wid = u.wid := by
    obtain ⟨_, _, _, e, -⟩ := counting u
    rw [e]
  have written := (s.advance c).written_storeAll (w.space shared) (some (w.wid, w.made + 1)) (s.storeEvents i c w shared)
  refine ⟨_, st.run_free h free, (written.mono (fun _ _ => coveredBy_storeEvents)).touches h counting, fun l hl j hj last => ?_,
    fun v hv => ?_, fun det none => ?_⟩
  · refine Eq.trans ?_ ((byteAt_storeEvents h (State.bare_of_still (s.ahead_advance c).still) (some (w.wid, w.made + 1)) free images
      hl hj last).trans (getD_storeData s i.operands c w l hj))
    cases w.space shared <;> rfl
  · obtain ⟨u, hu, e⟩ := written.find hv
    have iss : u.iss = v.iss := (congrArg Warp.iss e :)
    exact ⟨_, State.warp?_modWarp_same hu _ wid, by rw [s.iss_afterStore, iss]⟩
  · obtain ⟨u, hu, detu, folds, dig⟩ := written.find_det h det none
    obtain ⟨empty, digest⟩ := State.digest_afterStore (i := i) (c := c) (w := w) (shared := shared) detu folds
    refine ⟨_, State.warp?_modWarp_same hu _ wid, empty, ?_⟩
    rw [digest, dig]
    refine if_congr Iff.rfl rfl (List.foldl_ext _ _ _ (fun d l hl => ?_))
    have len : (s.storeData i.operands c w l).length = z := length_storeData s i.operands c w l
    have size := st.size h
    have aligned := (State.reaches_of_checkAccess (free.checked l hl)).2
    rw [foldl_storePairs (by rw [len]; exact size) (by rw [len]; exact aligned), len]
    simp only [storedPair, storedByte_storeData]
    rfl

/-- Settles O20: `IsStore.run_free` gives the state, `Written.touches` its frame, `byteAt_storeEvents` the bytes, and
`State.digest_afterStore` the digest. -/
theorem storeResults : Obligations.StoreResults := by
  intro shared mk hm s o c w h free
  simp only [List.mem_cons, Prod.mk.injEq, List.not_mem_nil, or_false] at hm
  rcases hm with ⟨rfl, rfl⟩ | ⟨rfl, rfl⟩
  · exact (isStore_stSh o).stores h free
  · exact (isStore_stSp o).stores h free

end Sys2Proof.Machine

namespace Sys2Proof.Machine

/-! ## Registers of lanes that an access leaves alone -/

/-- A state has a warp as another has it, with the registers of its lanes outside ls. -/
structure Spares (s t : State) (wid : Nat) (ls : List Nat) : Prop where
  found : ∀ w, s.warp? wid = some w → ∃ u, t.warp? wid = some u ∧ u.lanes.length = w.lanes.length
  regs : ∀ l, l ∉ ls → ∀ n, t.regAt wid l n = s.regAt wid l n

theorem Spares.refl (s : State) (wid : Nat) (ls : List Nat) : Spares s s wid ls :=
  ⟨fun w hw => ⟨w, hw, rfl⟩, fun _ _ _ => rfl⟩

theorem Spares.trans {s t u : State} {wid : Nat} {ls : List Nat} (h : Spares s t wid ls) (g : Spares t u wid ls) :
    Spares s u wid ls where
  found w hw := by
    obtain ⟨x, hx, lenx⟩ := h.found w hw
    obtain ⟨y, hy, leny⟩ := g.found x hx
    exact ⟨y, hy, leny.trans lenx⟩
  regs l hl n := (g.regs l hl n).trans (h.regs l hl n)

theorem ParksOn.spares {s t : State} {wid : Nat} (h : ParksOn s t wid) (ls : List Nat) : Spares s t wid ls where
  found w hw := (h.warp w hw).imp (fun _ x => ⟨x.1, x.2.1⟩)
  regs l _ n := h.regs wid l n

theorem Ahead.spares {s t : State} {wid : Nat} (h : Ahead s t wid) (ls : List Nat) : Spares s t wid ls where
  found w hw := by
    obtain ⟨u, hu, e⟩ := h.find hw
    exact ⟨u, hu, by simpa [Warp.placeless] using congrArg (fun y : Warp => y.lanes.length) e⟩
  regs l _ n := (h.lane wid l).1 n

theorem Written.spares {s t : State} {A : Space → Nat → Prop} (h : Written s t A) (wid : Nat) (ls : List Nat) : Spares s t wid ls where
  found w hw := by
    have e := State.warp?_map_of_warps Warp.unlatched (fun _ => rfl) h.warps wid
    rw [hw, Option.map_some, Option.map_eq_some_iff] at e
    obtain ⟨u, hu, e⟩ := e
    exact ⟨u, hu, (congrArg (fun y : Warp => y.lanes.length) e :)⟩
  regs l _ n := by rw [State.regAt, h.laneAt, State.regAt]

/-- A change of a warp that keeps the registers of its other lanes. -/
theorem State.spares_modWarp (s : State) (wid : Nat) (ls : List Nat) {F : Warp → Warp} (hw : ∀ u, (F u).wid = u.wid)
    (len : ∀ u, (F u).lanes.length = u.lanes.length) (hr : ∀ u l, l ∉ ls → ∀ n, ((F u).lane l).reg n = (u.lane l).reg n) :
    Spares s (s.modWarp wid F) wid ls where
  found w hf := ⟨F w, State.warp?_modWarp_same hf F hw, len w⟩
  regs l hl n := by
    rw [State.regAt, State.regAt, State.laneAt, State.laneAt, State.warp?_modWarp s wid wid F hw]
    cases s.warp? wid with
    | none => rfl
    | some u => simpa using hr u l hl n

theorem Warp.writeRegs_rest (w : Warp) (ws : List RegWrite) : (w.writeRegs ws).still = w.still ∧
    (w.writeRegs ws).lanes.length = w.lanes.length ∧ ∀ l, (∀ x ∈ ws, x.lane ≠ l) → (w.writeRegs ws).lane l = w.lane l := by
  induction ws generalizing w with
  | nil => exact ⟨rfl, rfl, fun _ _ => rfl⟩
  | cons x ws ih =>
    obtain ⟨still, len, lane⟩ := ih (w.modLane x.lane (fun y => y.setReg x.reg x.val))
    refine ⟨still.trans rfl, len.trans (Warp.length_modLane _ _ _), fun l hl => ?_⟩
    rw [List.forall_mem_cons] at hl
    refine (lane l hl.2).trans ?_
    rw [Warp.lane_modLane, if_neg (fun e => hl.1 e.1.symm)]

theorem State.spares_writeRegs (s : State) (wid : Nat) {ls : List Nat} {ws : List RegWrite} (h : ∀ x ∈ ws, x.lane ∈ ls) :
    Spares s (s.writeRegs wid ws) wid ls := by
  rw [State.writeRegs_eq]
  exact s.spares_modWarp wid ls (fun u => (congrArg Warp.wid (u.writeRegs_rest ws).1 :)) (fun u => (u.writeRegs_rest ws).2.1)
    (fun u l hl n => by rw [(u.writeRegs_rest ws).2.2 l (fun x hx e => hl (e ▸ h x hx))])

theorem State.spares_stopIn {s : State} {wid : Nat} {w : Warp} (hw : s.warp? wid = some w) (ls : List Nat) (mk : Nat → Record)
    (st : LaneState) (pc half repc : Nat) (ms : List Nat) : Spares s (s.stopIn wid ls mk st pc half repc) wid ms where
  found u hu := by
    obtain rfl := Option.some.inj (hw.symm.trans hu)
    exact ⟨_, State.warp?_stopIn hw ls mk st pc half repc, by simp [Warp.withRecord]⟩
  regs l _ n := by
    simp only [State.regAt, State.laneAt, State.warp?_stopIn hw ls mk st pc half repc, hw, Option.map_some, Option.getD_some,
      Warp.lane_modLanes _ _ (Lane.stopped st pc half repc) (fun _ => rfl), Warp.lane_withRecord]
    split <;> rfl

section
variable {s : State} {e : Env} {x : Suspension} {w : Warp} (hw : s.warp? e.c.wid = some w) (lt : ∀ l ∈ x.lanes, l < w.lanes.length)
include hw lt

/-- A suspension keeps the registers, whether its record finds room or its lanes trap (R222). -/
theorem State.spares_suspend (ls : List Nat) : Spares s (s.suspend e x) e.c.wid ls := by
  by_cases room : s.hasRoom w x.ls
  · obtain ⟨folds, mk, pc, half, repc, he, -⟩ := State.suspend?_stopIn hw room
    have marked := (s.ahead_modWarp e.c.wid (fun y => { y with folds := folds y }) (fun _ => rfl) (fun _ => rfl)).spares ls
    have found := State.warp?_modWarp_same hw (fun y => { y with folds := folds y }) (fun _ => rfl)
    simp only [State.suspend, he]
    exact marked.trans (State.spares_stopIn found _ _ _ _ _ _ ls)
  · have full : s.suspend? e x = none := by
      simp only [State.hasRoom, ne_eq, not_not] at room
      simp only [State.suspend?, hw, room]
    simp only [State.suspend, full, State.raiseAll]
    exact (State.parksOn_park hw x.lanes lt _ _ _ _ _ _ _).spares ls

/-- A tried access changes registers of its own lanes alone. -/
theorem State.spares_complete {t : Try} (tried : Spares s t.s e.c.wid x.lanes) (own : ∀ y ∈ t.ws, y.lane ∈ x.lanes) :
    Spares s (s.complete e x t) e.c.wid x.lanes := by
  unfold State.complete
  split
  · exact tried.trans (t.s.spares_writeRegs e.c.wid own)
  · split
    · exact (State.parksOn_park hw x.lanes lt _ _ _ _ _ _ _).spares x.lanes
    · obtain ⟨u, hu, len⟩ := tried.found w hw
      refine tried.trans (State.spares_suspend hu (fun l hl => ?_) x.lanes)
      rw [len]
      exact lt l hl
end

/-! ## Access traps -/

/-- An access fails R254 with its lowest trap: outside its memory, else misaligned. -/
def State.failsWith (s : State) (w : Warp) (shared : Bool) (o z k : Nat) : Prop :=
  (¬ s.reaches w shared o z ∧ k = if shared then 0x11 else 0x10) ∨ (s.reaches w shared o z ∧ o % z ≠ 0 ∧ k = 0x12)

theorem State.checkAccess_of_fails {s : State} {w : Warp} {shared : Bool} {o z k : Nat}
    (h : s.failsWith w shared o z k) :
    s.checkAccess w shared o z z = k ∧ k ≠ 0 := by
  rcases h with ⟨out, rfl⟩ | ⟨inside, odd, rfl⟩
  · exact ⟨State.checkAccess_of_not_reaches out, by cases shared <;> decide⟩
  · rw [State.checkAccess_of_reaches inside, if_neg odd]
    exact ⟨rfl, by decide⟩

/-- Where an H form meets no owned line, no access is held back. -/
theorem State.hBlockers_nil {s : State} {i : Instr} {c : Cur} {w : Warp}
    (h : i.operands.form = .h → s.hBlockers (s.env i c w) = []) : (s.advance c).hBlockers (s.env i c w) = [] := by
  by_cases half : i.operands.form = .h
  · rw [State.hBlockers_advance]
    exact h half
  · exact s.hBlockers_other c w (fun x => half x.1)

theorem lane_of_mem_dstWrites {l : Nat} {d : Operand} {vs : List Word} {x : RegWrite} (h : x ∈ dstWrites l d vs) : x.lane = l := by
  cases d with
  | reg b =>
    obtain ⟨k, -, rfl⟩ := List.mem_map.mp h
    rfl
  | _ => simp [dstWrites] at h

/-- Loads change nothing before they write, and write registers of their lanes alone. -/
theorem loadTry_spares (i : Instr) (shared : Bool) (s : State) (w : Warp) (vs : List LaneVals) :
    (loadTry i shared s w vs).s = s ∧ ∀ x ∈ (loadTry i shared s w vs).ws, x.lane ∈ vs.map (·.lane) := by
  by_cases free : s.blockers w shared (szBytes (i.operands.mods 0 3)) (vs.map (fun v => offsetOf i.operands v.b0)) = []
  · by_cases held : shared = false → s.missing w (szBytes (i.operands.mods 0 3)) (vs.map (fun v => offsetOf i.operands v.b0)) = []
    · rw [loadTry_loaded free held]
      refine ⟨rfl, fun x hx => ?_⟩
      obtain ⟨v, hv, hd⟩ := List.mem_flatMap.mp hx
      rw [lane_of_mem_dstWrites hd]
      exact List.mem_map_of_mem hv
    · obtain ⟨rfl, miss⟩ := Classical.not_imp.mp held
      rw [loadTry_fill free rfl miss]
      exact ⟨rfl, by simp⟩
  · rw [loadTry_lines rfl free]
    exact ⟨rfl, by simp⟩

/-- Stores write no register. -/
theorem storeTry_spares (i : Instr) (shared : Bool) (n : Nat) (s : State) (w : Warp) (vs : List LaneVals) (wid : Nat) (ls : List Nat) :
    Spares s (storeTry i shared n s w vs).s wid ls ∧ (storeTry i shared n s w vs).ws = [] := by
  by_cases free : s.blockers w shared (szBytes (i.operands.mods 0 3)) (vs.map (fun v => offsetOf i.operands v.b0)) = []
  · rw [storeTry_stored free]
    exact ⟨(s.written_storeAll _ _ _).spares wid ls, rfl⟩
  · have some : (s.blockers w shared (szBytes (i.operands.mods 0 3)) (vs.map (fun v => offsetOf i.operands v.b0))).isEmpty = false := by
      simpa using free
    simp only [storeTry, some]
    exact ⟨Spares.refl s wid ls, rfl⟩

/-- The count and the folds of stores change no register. -/
theorem State.spares_stored (s : State) (wid : Nat) (ls : List Nat) (folds : Warp → Bool) (xs : List (Nat × List Byte)) :
    Spares s (s.modWarp wid (fun u => u.stored (folds u) xs)) wid ls := by
  have rest (u : Warp) : (u.stored (folds u) xs).wid = u.wid ∧ (u.stored (folds u) xs).lanes = u.lanes := by
    obtain ⟨_, _, e, -⟩ := u.stored_eq (folds u) xs
    rw [e]
    exact ⟨rfl, rfl⟩
  exact s.spares_modWarp wid ls (fun u => (rest u).1) (fun u => by rw [(rest u).2])
    (fun u l _ n => by rw [Warp.lane_eq, (rest u).2, ← Warp.lane_eq])

theorem Env.lane_valsOf (e : Env) (s : State) (na nb nc nd : Nat) (g : List Nat) : (g.map (e.valsOf s na nb nc nd)).map (·.lane) = g := by
  rw [List.map_map]
  exact List.map_id g

section
variable {s : State} {i : Instr} {c : Cur} {w : Warp} (h : Issuing s i c w) (shared : Bool)
include h

/-- Lanes of an issue stand in the warp that the advance leaves. -/
theorem State.passing_lt_advance : ∃ v, (s.advance c).warp? c.wid = some v ∧ v.lanes.length = w.lanes.length ∧
    ∀ l ∈ s.passing i c w shared (szBytes (i.operands.mods 0 3)), l < v.lanes.length := by
  obtain ⟨v, hv, len⟩ := h.found_advance
  exact ⟨v, hv, len, fun l hl => len ▸ h.lt l (State.passing_sub l hl)⟩

theorem State.spares_loadPassing :
    Spares s (s.loadPassing i c w shared) c.wid (s.passing i c w shared (szBytes (i.operands.mods 0 3))) := by
  have ahead := (s.ahead_advance c).spares (s.passing i c w shared (szBytes (i.operands.mods 0 3)))
  obtain ⟨v, hv, -, lt⟩ := State.passing_lt_advance h shared
  obtain ⟨same, own⟩ := loadTry_spares i shared (s.advance c) w
    ((s.passing i c w shared (szBytes (i.operands.mods 0 3))).map ((s.env i c w).valsOf (s.advance c) 0 1 0 0))
  rw [Env.lane_valsOf] at own
  unfold State.loadPassing
  dsimp only
  split
  · exact ahead
  · refine ahead.trans (State.spares_complete (e := s.env i c w) hv lt ?_ own)
    rw [same]
    exact Spares.refl _ _ _

theorem State.spares_storePassing :
    Spares s (s.storePassing i c w shared) c.wid (s.passing i c w shared (szBytes (i.operands.mods 0 3))) := by
  have ahead := (s.ahead_advance c).spares (s.passing i c w shared (szBytes (i.operands.mods 0 3)))
  obtain ⟨v, hv, -, lt⟩ := State.passing_lt_advance h shared
  obtain ⟨tried, none⟩ := storeTry_spares i shared (w.made + 1) (s.advance c) w
    ((s.passing i c w shared (szBytes (i.operands.mods 0 3))).map
      ((s.env i c w).valsOf (s.advance c) (szRegs (i.operands.mods 0 3)) 1 0 0)) c.wid
    (s.passing i c w shared (szBytes (i.operands.mods 0 3)))
  have own (ls : List Nat) : ∀ y ∈ (storeTry i shared (w.made + 1) (s.advance c) w
      ((s.passing i c w shared (szBytes (i.operands.mods 0 3))).map
        ((s.env i c w).valsOf (s.advance c) (szRegs (i.operands.mods 0 3)) 1 0 0))).ws, y.lane ∈ ls := by simp [none]
  unfold State.storePassing
  dsimp only
  split
  · exact ahead
  · split
    · exact ahead.trans (State.spares_complete (e := s.env i c w) hv lt tried (own _))
    · exact ahead.trans ((State.spares_complete (e := s.env i c w) hv lt tried (own _)).trans (State.spares_stored _ _ _ _ _))

/-- Every lane whose access fails R254 stands parked after the traps, with its registers (R10, R223, R425). -/
theorem raise_failing {t : State}
    (kept : Spares s t c.wid (s.passing i c w shared (szBytes (i.operands.mods 0 3)))) {l k : Nat} (hl : l ∈ activeLanes s i c w)
    (fails : s.failsWith w shared (s.offsetAt i.operands c w l) (szBytes (i.operands.mods 0 3)) k) :
    let t' := t.raise (s.env i c w) (s.failing i c w shared (szBytes (i.operands.mods 0 3)))
    ∃ u r, t'.warp? c.wid = some u ∧ r ∈ u.records ∧ l ∈ r.lanes ∧ r.state = .faulted ∧ r.trap = k ∧ r.pc = c.pc ∧
      r.half = c.half ∧ r.faddr = s.offsetAt i.operands c w (r.lanes.headD 0) ∧ (t'.laneAt c.wid l).st = .parked ∧
      ∀ n, t'.regAt c.wid l n = s.regAt c.wid l n := by
  intro t'
  obtain ⟨bad, hk⟩ := State.checkAccess_of_fails fails
  obtain ⟨v, hv, -, len⟩ := h.found
  obtain ⟨u, hu, lenu⟩ := kept.found v hv
  have lt : ∀ x ∈ s.failing i c w shared (szBytes (i.operands.mods 0 3)), x.lane < u.lanes.length := by
    intro x hx
    obtain ⟨m, hm, rfl⟩ := List.mem_map.mp hx
    rw [lenu, len]
    exact activeLanes_lt h m (List.mem_of_mem_filter hm)
  have fails : (⟨l, k, s.offsetAt i.operands c w l, 0⟩ : LaneTrap) ∈ s.failing i c w shared (szBytes (i.operands.mods 0 3)) :=
    List.mem_map.mpr ⟨l, List.mem_filter.mpr ⟨hl, by simp [bad, hk]⟩, by rw [bad]⟩
  obtain ⟨on, each⟩ := State.raise_spec (e := s.env i c w) hu lt
  obtain ⟨u', r, x, hu', hr, hlane, trap, hx, first, parked⟩ := each _ fails
  obtain ⟨m, -, rfl⟩ := List.mem_map.mp hx
  have out : l ∉ s.passing i c w shared (szBytes (i.operands.mods 0 3)) := fun n => by
    have ok := (List.mem_filter.mp n).2
    rw [bad] at ok
    exact hk (by simpa using ok)
  exact ⟨u', r, hu', hr, hlane, trap.state, trap.trap, trap.pc, trap.half, by rw [trap.faddr, first], parked,
    fun n => (on.regs c.wid l n).trans (kept.regs l out n)⟩
end

/-- Settles O21: a load or store serves its passing lanes, which spares the others, and `raise_failing` parks those. -/
theorem accessTraps : Obligations.AccessTraps := by
  intro shared mk hm s o c w h unheld
  simp only [List.mem_cons, Prod.mk.injEq, List.not_mem_nil, or_false] at hm
  rcases hm with ⟨rfl, rfl⟩ | ⟨rfl, rfl⟩ | ⟨rfl, rfl⟩ | ⟨rfl, rfl⟩
  · exact ⟨_, (isLoad_ldSh o).run h (State.hBlockers_nil unheld), fun _ hl _ => raise_failing h true (State.spares_loadPassing h true) hl⟩
  · exact ⟨_, (isLoad_ldSp o).run h (State.hBlockers_nil unheld), fun _ hl _ => raise_failing h false (State.spares_loadPassing h false) hl⟩
  · exact ⟨_, (isStore_stSh o).run h (State.hBlockers_nil unheld), fun _ hl _ => raise_failing h true (State.spares_storePassing h true) hl⟩
  · exact ⟨_, (isStore_stSp o).run h (State.hBlockers_nil unheld), fun _ hl _ => raise_failing h false (State.spares_storePassing h false) hl⟩

end Sys2Proof.Machine

namespace Sys2Proof.Machine

/-! ## Every step goes on -/

/-- An outcome is a next state. -/
def Answers (x : Host.Outcome State Fault Refusal) : Prop := ∃ t, x = .next t

theorem answers_next (t : State) : Answers (.next t) := ⟨t, rfl⟩

theorem answers_ite {p : Prop} [Decidable p] {x y : Host.Outcome State Fault Refusal} (hx : Answers x) (hy : Answers y) :
    Answers (if p then x else y) := by
  split
  · exact hx
  · exact hy

/-- A warp of a number stands in the machine. -/
def State.HasWarp (s : State) (wid : Nat) : Prop := ∃ w ∈ s.warps, w.wid = wid

theorem State.warp?_of_hasWarp {s : State} {wid : Nat} (h : s.HasWarp wid) : ∃ w, s.warp? wid = some w := by
  obtain ⟨w, hw, e⟩ := h
  exact Option.isSome_iff_exists.mp (List.find?_isSome.mpr ⟨w, hw, by simp [e]⟩)

theorem State.hasWarp_of_warp? {s : State} {wid : Nat} {w : Warp} (h : s.warp? wid = some w) : s.HasWarp wid :=
  ⟨w, List.mem_of_find?_eq_some h, State.find_wid h⟩

/-- An issue in a warp that stands in the machine answers: with a trap, a suspension or the instruction's effect. -/
theorem issue_answers {i : Instr} {s : State} {c : Cur} (hc : s.cur = some c) (hw : s.HasWarp c.wid) (body : Env → State → State) :
    Answers (issue i s body) := by
  obtain ⟨v, hv⟩ := State.warp?_of_hasWarp hw
  simp only [issue, hc, hv, Option.map_some]
  exact answers_ite (answers_next _) (answers_ite (answers_next _) (answers_next _))

theorem State.writeCtxcmd_answers (s : State) (v : Word) : Answers (s.writeCtxcmd v) := by
  unfold State.writeCtxcmd
  split <;> exact ⟨_, rfl⟩

/-- A host write of a device register answers whichever register it names (R454). -/
theorem execBar0RegisterWrite_answers (o : Nat) (v : Word) (s : State) : Answers (execBar0RegisterWrite o v s) :=
  answers_ite ⟨_, rfl⟩ (answers_ite ⟨_, rfl⟩ (answers_ite ⟨_, rfl⟩ (answers_ite (s.writeCtxcmd_answers v)
    (answers_ite ⟨_, rfl⟩ (answers_ite ⟨_, rfl⟩ (answers_ite ⟨_, rfl⟩ (answers_ite ⟨_, rfl⟩ ⟨_, rfl⟩)))))))

/-- An event answers, whatever the state. -/
theorem exec_event_answers {i : Instr} (h : i.isa? = none) (s : State) : Answers (exec i s) := by
  cases i with
  | bar0RegisterWrite o v => exact execBar0RegisterWrite_answers o v s
  | _ => cases h <;> (dsimp only [exec]; exact ⟨_, rfl⟩)

/-- What runs answers: an event, or an instruction while a set of a warp of the machine issues. -/
theorem exec_answers {s : State} {c : Cur} (hc : s.cur = some c) (hw : s.HasWarp c.wid) (i : Instr) : Answers (exec i s) := by
  cases h : i.isa? with
  | none => exact exec_event_answers h s
  | some x =>
    obtain ⟨body, run⟩ := exec_eq_issue (i := i) (by rw [h]; rfl) s
    rw [run]
    exact issue_answers hc hw body

/-! ## Every plan answers -/

/-- A plan names nothing to run, or what answers a next state. -/
def Plan.Answers : Plan → Prop
  | .run i s => Machine.Answers (exec i s)
  | .done _ => True

theorem Plan.answers_run_event {i : Instr} (h : i.isa? = none) (s : State) : (Plan.run i s).Answers := exec_event_answers h s

theorem Plan.answers_run_issue {s : State} {c : Cur} (hw : s.HasWarp c.wid) (i : Instr) (hc : s.cur = some c) :
    (Plan.run i s).Answers := exec_answers hc hw i

/-- An event that would change the state answers. -/
theorem State.answers_of_changes {s : State} {i : Instr} (h : s.changes i = true) : (Plan.run i s).Answers := by
  unfold State.changes at h
  split at h
  · next t e => exact ⟨t, e⟩
  · cases h

/-- Counting an issue and using its port leave the warps that there are. -/
theorem State.hasWarp_issued {s : State} {wid : Nat} (h : s.HasWarp wid) (w : Warp) (ls : List Nat) (n : Nat) :
    ((s.noteIssue w ls n).portUsed w).HasWarp wid := by
  obtain ⟨v, hv, rfl⟩ := h
  refine ⟨_, List.mem_map_of_mem hv, ?_⟩
  split
  · rfl
  · split <;> rfl

theorem State.onePlan_answers {s : State} {w : Warp} (hw : s.HasWarp w.wid) (x : (Nat × Nat × Nat) × List Nat) (i : Instr) (k : Nat)
    (second : Option (((Nat × Nat × Nat) × List Nat) × Instr × Nat)) : (s.onePlan w x i k second).Answers := by
  unfold State.onePlan
  split
  · exact Plan.answers_run_issue (State.hasWarp_issued hw w x.2 1) _ rfl
  · next y j m => exact Plan.answers_run_issue (State.hasWarp_issued hw w (x.2 ++ y.2) 2) _ rfl

/-- A P word that issues, traps or waits (R73, R74). -/
theorem State.pairPlan_answers {s : State} {w : Warp} (hw : s.HasWarp w.wid) (x : (Nat × Nat × Nat) × List Nat) (h0 h1 : Option Instr) :
    (s.pairPlan w x h0 h1).Answers := by
  unfold State.pairPlan
  dsimp only
  split
  · trivial
  · split
    · split
      · exact Plan.answers_run_issue (State.hasWarp_issued hw w x.2 1) _ rfl
      · split
        · trivial
        · exact Plan.answers_run_issue (State.hasWarp_issued hw w x.2 1) _ rfl
    · trivial

theorem State.fillFirst_answers (s : State) (w : Warp) (pc : Nat) : (s.fillFirst w pc).Answers := Plan.answers_run_event rfl _

/-- The warps of a port stand in the machine. -/
theorem State.hasWarp_portOrder {s : State} {d c p : Nat} {w : Warp} (h : w ∈ s.portOrder d c p) : s.HasWarp w.wid := by
  simp only [State.portOrder, mem_sortBy, State.warpsOn, List.mem_filter] at h
  exact ⟨w, h.1.1, rfl⟩

/-- A port's turn answers whatever its first lane set finds at its PC. -/
theorem State.portPlan_answers (s : State) (d c p : Nat) : (s.portPlan d c p).Answers := by
  unfold State.portPlan
  split
  · trivial
  next w ws order =>
  have hw : s.HasWarp w.wid := State.hasWarp_portOrder (order ▸ List.mem_cons_self)
  split
  · trivial
  next x rest sets =>
  split
  · exact s.fillFirst_answers w _
  · trivial
  · exact State.pairPlan_answers hw x _ _
  · split
    · exact State.onePlan_answers hw x _ _ none
    · split
      · exact s.fillFirst_answers w _
      · split <;> exact State.onePlan_answers hw x _ _ _
      · exact State.onePlan_answers hw x _ _ none

/-- The second issue of a cycle answers. -/
theorem State.secondPlan_answers (s : State) (c : Cur) : (s.secondPlan c).Answers := by
  unfold State.secondPlan
  dsimp only
  split
  · trivial
  next w found =>
  have hw : s.HasWarp c.wid := State.hasWarp_of_warp? found
  split
  · trivial
  · split
    · exact Plan.answers_run_issue (by exact hw) _ rfl
    · exact Plan.answers_run_issue (by exact hw) _ rfl
    · trivial

/-- Deadlines and releases of the Combine Units are events. -/
theorem State.slotEvents_isa (s : State) : ∀ i ∈ s.slotEvents, i.isa? = none := by
  intro i hi
  simp only [State.slotEvents, List.mem_flatMap, List.mem_cons, List.not_mem_nil, or_false] at hi
  obtain ⟨d, -, x, -, rfl | rfl⟩ := hi <;> rfl

theorem State.turnPlan_answers (s : State) (d c p : Nat) : (s.turnPlan d c p).Answers := by
  unfold State.turnPlan
  split
  · next i due =>
    split at due
    · exact Plan.answers_run_event (s.slotEvents_isa i (List.mem_of_find?_eq_some due)) _
    · cases due
  · exact s.portPlan_answers d c p

theorem State.endCycle_answers (s : State) : s.endCycle.Answers := by
  unfold State.endCycle
  split
  · trivial
  · split
    · next i due => exact State.answers_of_changes (List.find?_some due)
    · trivial

theorem State.movePlan_answers (s : State) (m : Move) : (s.movePlan m).Answers := by
  cases m with
  | event i =>
    dsimp only [State.movePlan]
    split
    · trivial
    · next h => exact Plan.answers_run_event (Option.not_isSome_iff_eq_none.mp h) s
  | port d c p =>
    dsimp only [State.movePlan]
    split
    · trivial
    · exact s.turnPlan_answers d c p
  | endCycle => exact s.endCycle_answers

/-- Whatever the machine does next answers. -/
theorem State.plan_answers (s : State) : s.plan.Answers := by
  unfold State.plan
  split
  · exact s.secondPlan_answers _
  · exact State.movePlan_answers _ _
  · split_ifs
    · exact Plan.answers_run_event rfl s
    · exact Plan.answers_run_event rfl s
    · trivial
    · split
      · exact s.turnPlan_answers _ _ _
      · exact s.endCycle_answers

/-- Settles O57: the plan of every state answers (`State.plan_answers`), and a step finishes what it answers. -/
theorem everyStepGoesOn : Obligations.EveryStepGoesOn := by
  intro s
  have h := s.plan_answers
  unfold GoesOn step
  split
  · exact ⟨_, rfl⟩
  · next i t plan =>
    rw [plan] at h
    obtain ⟨u, hu⟩ := h
    rw [hu]
    exact ⟨_, rfl⟩

end Sys2Proof.Machine

namespace Sys2Proof.Machine

/-! ## Traps of an issue that advanced -/

/-- The advance leaves every other warp. -/
theorem State.warp?_advance_other (s : State) (c : Cur) {v : Nat} (hv : v ≠ c.wid) : (s.advance c).warp? v = s.warp? v :=
  State.warp?_modWarp_other s hv _ (fun _ => by simp)

theorem State.recordless_advance (s : State) (c : Cur) : (s.advance c).warps.map Warp.recordless = s.warps.map Warp.recordless :=
  s.map_modWarp c.wid _ _ (fun w => by rw [Warp.eq_of_still (Warp.still_modLanes w _ _)]; rfl)

/-- A warp takes a trap wherever its lanes stood. -/
theorem Parks.of_placeless {s t : State} {u w : Warp} {ls : List Nat} {trap pc half faddr event : Nat}
    (h : Parks s t u ls trap pc half faddr event) (e : u.placeless = w.placeless) : Parks s t w ls trap pc half faddr event := by
  have same : u = { w with lanes := u.lanes, folds := u.folds } :=
    congrArg (fun x : Warp => { x with lanes := u.lanes, folds := u.folds }) e
  rw [same] at h
  obtain ⟨parked, frame⟩ := h
  exact ⟨parked, frame.lanes, frame.memory, frame.quiet⟩

/-- Traps taken after the advance park the lanes that had not advanced. -/
theorem Parks.of_advance {s t : State} {c : Cur} {w : Warp} {ls : List Nat} {trap pc half faddr event : Nat}
    (h : Parks (s.advance c) t w ls trap pc half faddr event) (hw : w.wid = c.wid) : Parks s t w ls trap pc half faddr event := by
  obtain ⟨parked, lanes, ⟨dram, host, shared, weight⟩, still, spad, others, warps, rest⟩ := h
  have ahead := s.ahead_advance c
  have memory := SameMemory.of_still ahead.still
  refine ⟨parked, fun v l => ?_, ⟨fun a => (dram a).trans (memory.dram a), fun a => (host a).trans (memory.host a),
    fun b a => (shared b a).trans (memory.shared b a), fun b a => (weight b a).trans (memory.weight b a)⟩,
    fun v l n => (still v l n).trans (ahead.lane v l).2.2.2, fun d a n => (spad d a n).trans (memory.spad d a),
    fun v hv => (others v hv).trans (s.warp?_advance_other c (hw ▸ hv)), warps.trans (s.recordless_advance c),
    rest.trans (congrArg (fun x : State => { x with arrivals := 0 }) (State.bare_of_still ahead.still))⟩
  obtain ⟨regs, fpx, gen⟩ := lanes v l
  obtain ⟨regs', fpx', gen', -⟩ := ahead.lane v l
  exact ⟨fun k => (regs k).trans (regs' k), fpx.trans fpx', gen.trans gen'⟩

section
variable {s : State} {i : Instr} {c : Cur} {w : Warp} (h : Issuing s i c w)
include h

theorem Issuing.wid : w.wid = c.wid := by
  obtain ⟨v, hv, rfl, -⟩ := h.found
  rw [Warp.readBy_wid, State.find_wid hv]

/-- Lanes of an issue that take one trap park at the instruction, and nothing else changes (R425). -/
theorem Issuing.parks_raiseAll (ls : List Nat) (sub : ∀ l ∈ ls, l ∈ c.lanes) (code faddr event : Nat) :
    Parks s ((s.advance c).raiseAll (s.env i c w) ls code faddr event) w ls code c.pc c.half faddr event := by
  have num := h.wid
  have lt := h.lt
  obtain ⟨v, hv, rfl, -⟩ := h.found
  obtain ⟨u, hu, e⟩ := (s.ahead_advance c).find hv
  have len : u.lanes.length = v.lanes.length := by simpa [Warp.placeless] using congrArg (fun y : Warp => y.lanes.length) e
  rw [Warp.readBy_lanes] at lt
  exact (((State.parks_park hu ls (fun l hl => len ▸ lt l (sub l hl)) code c.pc c.half (c.repcAt i) i.opcode faddr event).of_placeless
    e).readBy c).of_advance num
end

/-- Traps of one code are one group, led by the first (R425). -/
theorem groupTraps_same (f : Nat → LaneTrap) (code l : Nat) (ls : List Nat) (hc : ∀ m, (f m).code = code) :
    groupTraps ((l :: ls).map f) = [(f l, (l :: ls).map (fun m => (f m).lane))] := by
  induction ls using List.reverseRecOn with
  | nil => rfl
  | append_singleton ls m ih =>
    have split : (l :: (ls ++ [m])).map f = (l :: ls).map f ++ [f m] := by simp
    rw [split, groupTraps_append, ih]
    simp [hc]

/-- Where all lanes raise a trap of one code, they park as one set under the first one's FADDR and EVENT. -/
theorem State.raise_same (s : State) (e : Env) (f : Nat → LaneTrap) (code : Nat) {ls : List Nat} (some : ls ≠ [])
    (hc : ∀ m, (f m).code = code) (hl : ∀ m, (f m).lane = m) :
    s.raise e (ls.map f) = s.raiseAll e ls code (f (ls.headD 0)).faddr (f (ls.headD 0)).event := by
  obtain ⟨l, ls, rfl⟩ := List.exists_cons_of_ne_nil some
  rw [State.raise, groupTraps_same f code l ls hc]
  simp only [hl, List.map_id', List.foldl_cons, List.foldl_nil, hc, List.headD_cons]
  rfl

/-! ## Lanes that end -/

/-- A lane that has ended, whatever it held. -/
def Lane.endedOf (x : Lane) : Lane := { x with st := .ended }

/-- The machine without its warps and its blocks' barriers. -/
def State.barrierless (s : State) : State :=
  { s with warps := [], blocks := s.blocks.map (fun b => { b with barriers := [] }) }

/-- What keeps all but warps and barriers keeps every memory. -/
theorem SameMemory.of_barrierless {s t : State} (h : t.barrierless = s.barrierless) : SameMemory s t := by
  have blocks (u : State) (b a : Nat) : u.barrierless.sharedAt b a = u.sharedAt b a ∧ u.barrierless.weightAt b a = u.weightAt b a := by
    simp only [State.sharedAt, State.weightAt, State.barrierless, State.block?, List.find?_map, Option.map_map]
    exact ⟨rfl, rfl⟩
  exact ⟨fun a => (congrArg (fun x : State => Cells.get x.dram a) h :), fun a => (congrArg (fun x : State => Cells.get x.hostMem a) h :),
    fun d a => (congrArg (fun x : State => x.spadAt d a) h :),
    fun b a => by rw [← (blocks t b a).1, h, (blocks s b a).1], fun b a => by rw [← (blocks t b a).2, h, (blocks s b a).2]⟩

theorem State.blockless_of_barrierless {s t : State} (h : t.barrierless = s.barrierless) :
    { t.still with blocks := [] } = { s.still with blocks := [] } := congrArg (fun x : State => { x with blocks := [] }) h

theorem State.barrierless_modBlock (s : State) (b n : Nat) :
    (s.modBlock b (fun x => { x with barriers := x.barriers.map (barrierTest n) })).barrierless = s.barrierless := by
  simp only [State.barrierless, State.modBlock, List.map_map]
  congr 1
  refine List.map_congr_left (fun x _ => ?_)
  simp only [Function.comp]
  split <;> rfl

theorem State.endLane_warps (s : State) (wid l : Nat) : (s.endLane wid l).warps = (s.modLane wid l Lane.endedOf).warps := by
  unfold State.endLane
  dsimp only
  split <;> rfl

theorem State.endLane_barrierless (s : State) (wid l : Nat) : (s.endLane wid l).barrierless = s.barrierless := by
  unfold State.endLane
  dsimp only
  split
  · rfl
  · exact State.barrierless_modBlock _ _ _

/-- Lanes that end change nothing but themselves and the barriers that their ends open (R34, R179). -/
theorem State.endLanes_barrierless (s : State) (wid : Nat) (ls : List Nat) : (s.endLanes wid ls).barrierless = s.barrierless :=
  foldl_keeps _ State.barrierless (fun s l => s.endLane_barrierless wid l) ls s

theorem State.endLanes_warps (s : State) (wid : Nat) (ls : List Nat) :
    (s.endLanes wid ls).warps = (s.modLanes wid ls Lane.endedOf).warps := by
  induction ls generalizing s with
  | nil => exact (congrArg State.warps (s.modWarp_self wid)).symm
  | cons l ls ih =>
    have step : s.endLanes wid (l :: ls) = (s.endLane wid l).endLanes wid ls := rfl
    have warps : ((s.endLane wid l).modLanes wid ls Lane.endedOf).warps = ((s.modLane wid l Lane.endedOf).modLanes wid ls Lane.endedOf).warps := by
      simp only [State.modLanes, State.modWarp, s.endLane_warps wid l]
    rw [step, ih, warps]
    exact congrArg State.warps (State.modWarp_modWarp s wid (fun w => w.modLane l Lane.endedOf) (fun w => w.modLanes ls Lane.endedOf)
      (fun _ => rfl))

theorem State.warp?_endLanes (s : State) (wid : Nat) (ls : List Nat) (v : Nat) :
    (s.endLanes wid ls).warp? v = (s.warp? v).map (fun w => if v = wid then w.modLanes ls Lane.endedOf else w) := by
  rw [State.warp?, s.endLanes_warps wid ls]
  exact State.warp?_modWarp s v wid _ (fun _ => by simp)

/-- Lanes of a warp that have changed alike; changing them again changes nothing. -/
theorem State.laneAt_modLanes {s : State} {wid : Nat} {w : Warp} (hw : s.warp? wid = some w) {ls : List Nat}
    (lt : ∀ l ∈ ls, l < w.lanes.length) {f : Lane → Lane} (hf : ∀ x, f (f x) = f x) (v l : Nat) :
    (s.modLanes wid ls f).laneAt v l = if v = wid ∧ l ∈ ls then f (s.laneAt v l) else s.laneAt v l := by
  rw [State.modLanes, State.laneAt_modWarp _ _ _ _ _ (fun _ => by simp)]
  by_cases hv : v = wid
  · subst hv
    simp only [State.laneAt, hw, Option.map_some, Option.getD_some, if_true, true_and, Warp.lane_modLanes _ _ _ hf]
    by_cases hl : l ∈ ls
    · rw [if_pos ⟨hl, lt l hl⟩, if_pos hl]
    · rw [if_neg (fun x => hl x.1), if_neg hl]
  · simp [State.laneAt, hv]

theorem State.laneAt_of_warps {s t : State} (h : t.warps = s.warps) (v l : Nat) : t.laneAt v l = s.laneAt v l := by
  simp only [State.laneAt, State.warp?, h]

end Sys2Proof.Machine

namespace Sys2Proof.Machine

/-! ## An exit -/

section
variable {s : State} {i : Instr} {c : Cur} {w : Warp} (h : Issuing s i c w)
include h

/-- Lanes of the issuing warp change alike after the advance. -/
theorem Issuing.laneAt_modLanes {f : Lane → Lane} (hf : ∀ x, f (f x) = f x) (v l : Nat) :
    ((s.advance c).modLanes c.wid (activeLanes s i c w) f).laneAt v l =
      if v = c.wid ∧ l ∈ activeLanes s i c w then f ((s.advance c).laneAt v l) else (s.advance c).laneAt v l := by
  obtain ⟨u, hu, len⟩ := h.found_advance
  exact State.laneAt_modLanes hu (fun l hl => len ▸ activeLanes_lt h l hl) hf v l

/-- The state after the active lanes end. -/
theorem Issuing.laneAt_endLanes (v l : Nat) : ((s.advance c).endLanes c.wid (activeLanes s i c w)).laneAt v l =
    if v = c.wid ∧ l ∈ activeLanes s i c w then ((s.advance c).laneAt v l).endedOf else (s.advance c).laneAt v l := by
  rw [State.laneAt_of_warps (State.endLanes_warps _ _ _)]
  exact h.laneAt_modLanes (f := Lane.endedOf) (fun _ => rfl) v l

/-- What stands as after the end of the active lanes of an issue has no other change than their ends and what barriers
these open (R34, R179). -/
theorem Issuing.ends {t : State}
    (hl : ∀ v l, t.laneAt v l = ((s.advance c).endLanes c.wid (activeLanes s i c w)).laneAt v l)
    (hb : t.barrierless = s.barrierless) (ho : ∀ v, v ≠ c.wid → t.warp? v = s.warp? v) :
    (∀ l ∈ activeLanes s i c w, (t.laneAt c.wid l).st = .ended) ∧
    (∀ v l, ¬ (v = c.wid ∧ l ∈ activeLanes s i c w) → (t.laneAt v l).still = (s.laneAt v l).still) ∧
    (∀ v l k, t.regAt v l k = s.regAt v l k) ∧ SameFlags s t ∧ SameMemory s t ∧ Moved s t c ∧
    (∀ v, v ≠ c.wid → t.warp? v = s.warp? v) ∧ { t.still with blocks := [] } = { s.still with blocks := [] } := by
  have lane (v l : Nat) : t.laneAt v l =
      if v = c.wid ∧ l ∈ activeLanes s i c w then ((s.advance c).laneAt v l).endedOf else (s.advance c).laneAt v l :=
    (hl v l).trans (h.laneAt_endLanes v l)
  have ahead := (s.ahead_advance c).lane
  refine ⟨fun l hl => ?_, fun v l n => ?_, fun v l k => ?_, fun v l => ?_, SameMemory.of_barrierless hb,
    (State.moved_advance h).congr (fun v l => ?_), ho, State.blockless_of_barrierless hb⟩
  · rw [lane, if_pos ⟨rfl, hl⟩]
    rfl
  · rw [lane, if_neg n]
    exact (ahead v l).2.2.2
  · refine Eq.trans ?_ ((ahead v l).1 k)
    rw [State.regAt, lane]
    split <;> rfl
  · obtain ⟨-, fpx, gen, -⟩ := ahead v l
    rw [State.fpxAt, lane]
    split <;> exact ⟨fpx, gen⟩
  · rw [lane]
    split <;> exact ⟨rfl, rfl, rfl⟩
end

/-- The warp's unended lanes are all active: its last lanes end. -/
def endsWarp (s : State) (i : Instr) (c : Cur) (w : Warp) : Bool := w.liveLanes.all (fun l => (activeLanes s i c w).contains l)

theorem endsWarp_iff {s : State} {i : Instr} {c : Cur} {w : Warp} :
    endsWarp s i c w = true ↔ ∀ l ∈ w.liveLanes, l ∈ activeLanes s i c w := by
  simp [endsWarp]

theorem State.laneAt_noteEnd (s : State) (wid : Nat) (ls : List Nat) (pc half opc v l : Nat) :
    (s.noteEnd wid ls pc half opc).laneAt v l = s.laneAt v l :=
  s.laneAt_modWarp_of_lanes wid (fun w => { w with exitWait := some { lanes := ls, pc := pc, half := half, opc := opc } })
    (fun _ => rfl) (fun _ => rfl) v l

theorem State.warp?_noteEnd_other (s : State) {wid v : Nat} (ls : List Nat) (pc half opc : Nat) (hv : v ≠ wid) :
    (s.noteEnd wid ls pc half opc).warp? v = s.warp? v :=
  s.warp?_modWarp_other hv (fun w => { w with exitWait := some { lanes := ls, pc := pc, half := half, opc := opc } })
    (fun _ => rfl)

theorem State.warp?_noteEnd_same {s : State} {wid : Nat} {x : Warp} (hx : s.warp? wid = some x) (ls : List Nat)
    (pc half opc : Nat) : ∃ y, (s.noteEnd wid ls pc half opc).warp? wid = some y ∧
      y.exitWait = some { lanes := ls, pc := pc, half := half, opc := opc } :=
  ⟨_, State.warp?_modWarp_same hx (fun w => { w with exitWait := some { lanes := ls, pc := pc, half := half, opc := opc } })
    (fun _ => rfl), rfl⟩

/-- The state after an exit that is not a task's end. -/
def State.afterExit (s : State) (i : Instr) (c : Cur) (w : Warp) : State :=
  let t := (s.advance c).endLanes c.wid (activeLanes s i c w)
  if endsWarp s i c w then t.noteEnd c.wid (activeLanes s i c w) c.pc c.half 0x006 else t

theorem exec_exit {s : State} {o : Operands} {c : Cur} {w : Warp} (h : Issuing s (.exit o) c w)
    (some : activeLanes s (.exit o) c w ≠ []) (free : w.kind ≠ .task ∨ ∃ l ∈ w.liveLanes, l ∉ activeLanes s (.exit o) c w) :
    exec (.exit o) s = .next (s.afterExit (.exit o) c w) := by
  have busy : (activeLanes s (.exit o) c w).isEmpty = false := by simpa using some
  have whole : (endsWarp s (.exit o) c w && w.kind == .task) = false := by
    rcases free with kind | ⟨l, hl, out⟩
    · simp [kind]
    · have : endsWarp s (.exit o) c w = false := by
        rw [Bool.eq_false_iff, Ne, endsWarp_iff]
        exact fun all => out (all l hl)
      simp [this]
  change execExit o s = _
  rw [execExit, issue_next h]
  refine congrArg Host.Outcome.next ?_
  change (if (activeLanes s (.exit o) c w).isEmpty then _ else if (endsWarp s (.exit o) c w && w.kind == .task) then _ else _) = _
  rw [busy, whole]
  rfl

/-- exit ends its lanes, the last lanes of a warp noting where (R34). -/
theorem exit_ends {s : State} {o : Operands} {c : Cur} {w : Warp} (h : Issuing s (.exit o) c w) :
    let t := s.afterExit (.exit o) c w
    (∀ v l, t.laneAt v l = ((s.advance c).endLanes c.wid (activeLanes s (.exit o) c w)).laneAt v l) ∧
    t.barrierless = s.barrierless ∧ (∀ v, v ≠ c.wid → t.warp? v = s.warp? v) ∧
    (endsWarp s (.exit o) c w = true → ∃ x, t.warp? c.wid = some x ∧
      x.exitWait = some { lanes := activeLanes s (.exit o) c w, pc := c.pc, half := c.half, opc := 0x006 }) := by
  intro t
  have ended : ((s.advance c).endLanes c.wid (activeLanes s (.exit o) c w)).barrierless = s.barrierless :=
    ((s.advance c).endLanes_barrierless _ _).trans (congrArg State.barrierless (s.still_advance c) :)
  have other (v : Nat) (hv : v ≠ c.wid) :
      ((s.advance c).endLanes c.wid (activeLanes s (.exit o) c w)).warp? v = s.warp? v := by
    rw [State.warp?_endLanes, s.warp?_advance_other c hv]
    simp [hv]
  by_cases last : endsWarp s (.exit o) c w = true
  · have note : t = ((s.advance c).endLanes c.wid (activeLanes s (.exit o) c w)).noteEnd c.wid (activeLanes s (.exit o) c w)
        c.pc c.half 0x006 := by simp only [t, State.afterExit, last, if_true]
    obtain ⟨v, hv, -⟩ := h.found_advance
    rw [note]
    refine ⟨fun v l => State.laneAt_noteEnd _ _ _ _ _ _ v l, ended, fun v hv => ?_, fun _ => ?_⟩
    · exact (State.warp?_noteEnd_other _ _ _ _ _ hv).trans (other v hv)
    · exact State.warp?_noteEnd_same (x := v.modLanes (activeLanes s (.exit o) c w) Lane.endedOf)
        (by rw [State.warp?_endLanes, hv]; simp) _ _ _ _
  · have plain : t = (s.advance c).endLanes c.wid (activeLanes s (.exit o) c w) := by
      simp only [t, State.afterExit, last, Bool.false_eq_true, if_false]
    rw [plain]
    exact ⟨fun _ _ => rfl, ended, other, fun e => absurd e last⟩

/-! ## A task's end -/

/-- No warp of a number stands in a machine that has other warps alone. -/
theorem State.warp?_dropWarp (s : State) (wid : Nat) : (s.dropWarp wid).warp? wid = none := by
  simp only [State.dropWarp, State.warp?, List.find?_eq_none, List.mem_filter]
  exact fun w hw => by simpa using hw.2

theorem State.warps_spaceSet (s : State) (sp : Space) (a : Nat) (bs : List Byte) : (s.spaceSet sp a bs).warps = s.warps := by
  unfold State.spaceSet
  split
  · rfl
  · rw [State.spacePut_warps, State.warps_beforeWrite]

theorem State.warps_dqReserve (s : State) (w : Warp) (core : Nat) (f : Word → Word) : (s.dqReserve w core f).warps = s.warps := by
  unfold State.dqReserve
  split
  · rfl
  · exact State.warps_spaceSet _ _ _ _

/-- A task warp that ends leaves the machine. -/
theorem State.warp?_endTaskWarp (s : State) (w : Warp) : (s.endTaskWarp w).warp? w.wid = none := by
  have gone := State.warp?_dropWarp (s.finishTask w w.tcb.toNat w.killed) w.wid
  unfold State.endTaskWarp
  dsimp only
  split
  · exact gone
  · rw [State.warp?, State.warps_dqReserve]
    exact gone

theorem Warp.allEnded_modLanes {w : Warp} {ls : List Nat} (full : w.lanes.length = 32) (all : ∀ l ∈ w.liveLanes, l ∈ ls) :
    (w.modLanes ls Lane.endedOf).allEnded = true := by
  rw [Warp.allEnded, List.all_eq_true]
  intro x hx
  obtain ⟨l, hl, rfl⟩ := List.mem_iff_getElem.mp hx
  rw [Warp.length_modLanes] at hl
  have lane := Warp.lane_modLanes w ls Lane.endedOf (fun _ => rfl) l
  rw [Warp.lane_eq, List.getElem?_eq_getElem (by simpa using hl), Option.getD_some] at lane
  rw [lane]
  split
  · rfl
  · next out =>
    have dead : l ∉ w.liveLanes := fun live => out ⟨all l live, hl⟩
    simpa [Warp.liveLanes, full ▸ hl] using dead

theorem State.dqRoom_still {s t : State} (h : t.still = s.still) (w : Warp) (core k : Nat) :
    t.dqRoom w core k = s.dqRoom w core k :=
  (congrArg (fun x : State => x.dqRoom w core k) h :)

theorem State.tcbNsucc_still {s t : State} (h : t.still = s.still) (w : Warp) (k : Nat) : t.tcbNsucc w k = s.tcbNsucc w k :=
  (congrArg (fun x : State => x.tcbNsucc w k) h :)

end Sys2Proof.Machine

namespace Sys2Proof.Machine

/-- What the instruction of a task's end keeps of an active lane: the TCB of its own warp. -/
def ownTask (w : Warp) (l : Nat) : LaneVals := { lane := l, a := [], b := [w.tcb], c := [], d := [] }

theorem lanes_ownTask (w : Warp) (p : List Nat) : (p.map (ownTask w)).map (·.lane) = p := by
  rw [List.map_map]
  exact List.map_id _

/-- The lanes that end with their task name no other. -/
theorem filter_ownTask (w : Warp) (p : List Nat) :
    (p.map (ownTask w)).filter (fun v => v.b0 == w.tcb) = p.map (ownTask w) ∧
      (p.map (ownTask w)).filter (fun v => v.b0 != w.tcb) = [] := by
  simp [ownTask, LaneVals.b0]

theorem State.foldOps_nil (s : State) : s.foldOps [] = s := by simp [State.foldOps]

/-- Without operations of its own to wait for, a task warp whose lanes have all ended ends. -/
theorem State.endDone_whole {s : State} {w x : Warp} {p : List Nat} (d : Operand) (k pc half : Nat) (busy : p ≠ [])
    (hx : (s.endLanes w.wid p).warp? w.wid = some x) (ended : x.allEnded = true) (task : x.kind = .task)
    (idle : ∀ o ∈ (s.endLanes w.wid p).ops, o.wid ≠ w.wid) : s.endDone w d (p.map (ownTask w)) k pc half =
      (((s.endLanes w.wid p).endTaskWarp x).dqReserve w w.core (fun y => y - BitVec.ofNat 32 k), []) := by
  have ops : (s.endLanes w.wid p).ops.filter (fun o => o.wid == w.wid) = [] := by simpa using idle
  have busy : p.isEmpty = false := by simpa using busy
  simp [State.endDone, filter_ownTask, lanes_ownTask, hx, ended, busy, task, ops, State.foldOps_nil, -List.map_map]

/-- A write event keeps what the bytes of the on-die memories and the race of a copy leave. -/
theorem State.bare_spaceSet (s : State) (sp : Space) (a : Nat) (bs : List Byte) : (s.spaceSet sp a bs).bare = s.bare := by
  unfold State.spaceSet
  split
  · rfl
  · rw [State.bare_spacePut, State.bare_beforeWrite]

theorem State.bare_dqReserve (s : State) (w : Warp) (core : Nat) (f : Word → Word) : (s.dqReserve w core f).bare = s.bare := by
  unfold State.dqReserve
  split
  · rfl
  · exact State.bare_spaceSet _ _ _ _

/-- The warps that the engine operations name. -/
def State.opWarps (s : State) : List Nat := s.ops.map (·.wid)

theorem State.opWarps_of_bare {s t : State} (h : t.bare = s.bare) : t.opWarps = s.opWarps := by
  have own (u : State) : u.bare.opWarps = u.opWarps := by simp [State.opWarps, State.bare, EngineOp.bare]
  rw [← own t, h, own s]

theorem State.opWarps_endLanes (s : State) (wid : Nat) (ls : List Nat) : (s.endLanes wid ls).opWarps = s.opWarps :=
  (congrArg State.opWarps (s.endLanes_barrierless wid ls) :)

/-- A warp without engine operations of its own. -/
theorem State.idle_iff (s : State) (wid : Nat) : (∀ o ∈ s.ops, o.wid ≠ wid) ↔ wid ∉ s.opWarps := by
  simp [State.opWarps]

/-- The end of the last lanes of a task warp, at an instruction (R34, R333). -/
theorem State.warp?_doneInstr {s : State} {e : Env} {u : Warp} {p : List Nat} (hp : p ≠ []) (hu : s.warp? e.w.wid = some u)
    (full : u.lanes.length = 32) (all : ∀ l ∈ u.liveLanes, l ∈ p) (task : u.kind = .task)
    (kind : e.w.kind = u.kind) (live : e.w.liveLanes = u.liveLanes)
    (room : s.dqRoom e.w e.w.core (s.tcbNsucc e.w e.w.tcb.toNat) = true) (idle : ∀ o ∈ s.ops, o.wid ≠ e.w.wid) :
    (s.doneInstr e (.spc .zero) 31 0 (p.map (ownTask e.w))).warp? e.w.wid = none := by
  have ops : s.ops.filter (fun o => o.wid == e.w.wid) = [] := by simpa using idle
  have busy : p.isEmpty = false := by simpa using hp
  have whole : (e.w.liveLanes.all fun l => p.contains l) = true := by simpa [live] using all
  have hasTask : (p.map (ownTask e.w)).isEmpty = false := by simpa using hp
  generalize count : s.tcbNsucc e.w e.w.tcb.toNat = k at room
  let r := s.dqReserve e.w e.w.core (· + BitVec.ofNat 32 k)
  have found : (r.endLanes e.w.wid p).warp? e.w.wid = some (u.modLanes p Lane.endedOf) := by
    rw [State.warp?_endLanes, State.warp?, State.warps_dqReserve]
    exact (congrArg _ hu).trans (by simp)
  have still : ∀ o ∈ (r.endLanes e.w.wid p).ops, o.wid ≠ e.w.wid := by
    rw [State.idle_iff, State.opWarps_endLanes, State.opWarps_of_bare (s.bare_dqReserve _ _ _), ← State.idle_iff]
    exact idle
  have ended : (u.modLanes p Lane.endedOf).kind = .task := (congrArg Warp.kind (u.still_modLanes p Lane.endedOf) :).trans task
  have last := State.endDone_whole (.spc .zero) k e.c.pc e.c.half hp found (Warp.allEnded_modLanes full all) ended still
  have gone := (r.endLanes e.w.wid p).warp?_endTaskWarp (u.modLanes p Lane.endedOf)
  rw [State.find_wid found] at gone
  simp only [State.doneInstr, filter_ownTask, lanes_ownTask, ops, busy, whole, kind, task, State.foldOps_nil, hasTask,
    count, List.map_nil, List.eraseDups_nil, List.foldl_nil, List.find?_nil, List.all_nil, beq_self_eq_true, Bool.not_false,
    Bool.not_true, Bool.and_true, Bool.false_and, Bool.false_eq_true, if_false, if_true, Nat.zero_add, room]
  simp only [r] at last gone
  rw [last]
  refine (congrArg (fun x : State => x.warp? e.w.wid) (State.modWarp_self _ _)).trans ?_
  rw [State.warp?, State.warps_dqReserve]
  exact gone

theorem Warp.liveLanes_placeless (w : Warp) : w.placeless.liveLanes = w.liveLanes := by
  simp [Warp.liveLanes, Warp.lane_placeless, Lane.placeless]

/-- How a set reads a warp changes neither its kind nor its lanes. -/
theorem Warp.readBy_keeps (w : Warp) (c : Cur) : (w.readBy c).kind = w.kind ∧ (w.readBy c).liveLanes = w.liveLanes := by
  unfold Warp.readBy
  split <;> exact ⟨rfl, rfl⟩

theorem exec_exit_task {s : State} {o : Operands} {c : Cur} {w : Warp} (h : Issuing s (.exit o) c w)
    (busy : activeLanes s (.exit o) c w ≠ []) (task : w.kind = .task) (last : endsWarp s (.exit o) c w = true) :
    exec (.exit o) s = .next ((s.advance c).doneInstr (s.env (.exit o) c w) (.spc .zero) 31 0
      ((activeLanes s (.exit o) c w).map (ownTask w))) := by
  have busy : (activeLanes s (.exit o) c w).isEmpty = false := by simpa using busy
  have whole : (endsWarp s (.exit o) c w && w.kind == .task) = true := by simp [last, task]
  change execExit o s = _
  rw [execExit, issue_next h]
  refine congrArg Host.Outcome.next ?_
  change (if (activeLanes s (.exit o) c w).isEmpty then _ else if (endsWarp s (.exit o) c w && w.kind == .task) then _ else _) = _
  rw [busy, whole]
  rfl

/-- The last lanes of a task warp leave the machine with it (R34). -/
theorem exit_leaves {s : State} {o : Operands} {c : Cur} {w : Warp} (h : Issuing s (.exit o) c w) (task : w.kind = .task)
    (busy : activeLanes s (.exit o) c w ≠ []) (all : ∀ l ∈ w.liveLanes, l ∈ activeLanes s (.exit o) c w)
    (room : s.dqRoom w w.core (s.tcbNsucc w w.tcb.toNat) = true) (idle : ∀ x ∈ s.ops, x.wid ≠ c.wid) :
    ∃ t, exec (.exit o) s = .next t ∧ t.warp? c.wid = none := by
  refine ⟨_, exec_exit_task h busy task (endsWarp_iff.mpr all), ?_⟩
  have num := h.wid
  have full := h.full
  have still := s.still_advance c
  obtain ⟨v, hv, rfl, lanes⟩ := h.found
  obtain ⟨kind, live⟩ := v.readBy_keeps c
  obtain ⟨u, hu, e⟩ := (s.ahead_advance c).find hv
  have same : u.kind = v.kind ∧ u.liveLanes = v.liveLanes :=
    ⟨(congrArg Warp.kind e :), by rw [← u.liveLanes_placeless, e, v.liveLanes_placeless]⟩
  have len : u.lanes.length = v.lanes.length := by simpa [Warp.placeless] using congrArg (fun y : Warp => y.lanes.length) e
  rw [← num]
  refine State.warp?_doneInstr (u := u) busy (by rw [State.env_w, num]; exact hu) (by rw [len, lanes, full]) ?_ ?_ ?_ ?_ ?_ ?_
  · rw [same.2, ← live]
    exact all
  · rw [same.1, ← kind]
    exact task
  · exact kind.trans same.1.symm
  · exact live.trans same.2.symm
  · rw [State.env_w, State.tcbNsucc_still still, State.dqRoom_still still]
    exact room
  · rw [State.env_w, num]
    exact fun x hx => idle x ((congrArg State.ops still :) ▸ hx)

/-! ## Lanes that are held, and a warp whose age starts again -/

/-- A lane held at a join. -/
def Lane.heldAt (pc half : Nat) (x : Lane) : Lane := { x with st := .held, pc := pc, half := half }

/-- The advance moves lanes alone. -/
theorem State.map_advance (s : State) (c : Cur) (g : Warp → Warp) (hg : ∀ w, g w.still = g w) :
    (s.advance c).warps.map g = s.warps.map g :=
  s.map_modWarp c.wid _ g (fun w => by rw [← hg, Warp.still_modLanes, hg])

/-- join holds the active lanes where they stand (R173). -/
theorem join_holds {s : State} {o : Operands} {c : Cur} {w : Warp} (h : Issuing s (.join o) c w) :
    ∃ t, exec (.join o) s = .next t ∧
      (∀ l ∈ activeLanes s (.join o) c w, (t.laneAt c.wid l).st = .held ∧ (t.laneAt c.wid l).pc = c.pc) ∧
      (∀ v l, ¬ (v = c.wid ∧ l ∈ activeLanes s (.join o) c w) → (t.laneAt v l).still = (s.laneAt v l).still) ∧
      (∀ v l k, t.regAt v l k = s.regAt v l k) ∧ SameFlags s t ∧ SameMemory s t ∧
      t.warps.map Warp.still = s.warps.map Warp.still ∧ t.still = s.still := by
  have run : exec (.join o) s =
      .next ((s.advance c).modLanes c.wid (activeLanes s (.join o) c w) (Lane.heldAt c.pc c.half)) := by
    change execJoin o s = _
    rw [execJoin, issue_next h]
    rfl
  have held := h.laneAt_modLanes (f := Lane.heldAt c.pc c.half) (fun _ => rfl)
  have ahead := (s.ahead_advance c).lane
  refine ⟨_, run, fun l hl => ?_, fun v l n => ?_, fun v l k => ?_, fun v l => ?_,
    SameMemory.of_still (s.still_advance c), ?_, s.still_advance c⟩
  · rw [held, if_pos ⟨rfl, hl⟩]
    exact ⟨rfl, rfl⟩
  · rw [held, if_neg n]
    exact (ahead v l).2.2.2
  · rw [State.regAt, held, ← (ahead v l).1 k]
    split <;> rfl
  · obtain ⟨-, fpx, gen, -⟩ := ahead v l
    rw [State.fpxAt, held]
    split <;> exact ⟨fpx, gen⟩
  · exact (State.map_modWarp _ c.wid _ Warp.still (fun w => Warp.still_modLanes w _ _)).trans
      (s.map_advance c Warp.still (fun _ => rfl))

/-- yield restarts the age of the warp (R184). -/
theorem yield_restarts {s : State} {o : Operands} {c : Cur} {w : Warp} (h : Issuing s (.yield o) c w)
    (busy : activeLanes s (.yield o) c w ≠ []) : ∃ t x, exec (.yield o) s = .next t ∧
    Moved s t c ∧ Changes s t c.wid [] (fun _ => false) (fun y => { y with lanes := [], readySince := 0 }) ∧
    t.warp? c.wid = some x ∧ x.readySince = (s.die w.die).clkr + 1 := by
  let f (y : Warp) : Warp := { y with readySince := (s.die w.die).clkr + 1 }
  have run : exec (.yield o) s = .next ((s.advance c).modWarp c.wid f) := by
    change execYield o s = _
    rw [execYield, issue_next h]
    exact congrArg Host.Outcome.next (if_neg (by simpa using busy))
  have lane (v l : Nat) := (s.advance c).laneAt_modWarp_of_lanes c.wid f (fun _ => rfl) (fun _ => rfl) v l
  have ahead := (s.ahead_advance c).lane
  obtain ⟨u, hu, -⟩ := h.found_advance
  refine ⟨_, _, run, (State.moved_advance h).congr (fun v l => ?_), ⟨fun v l => ?_, SameMemory.of_still (s.still_advance c), ?_,
    fun v hv => ?_, s.still_advance c⟩, State.warp?_modWarp_same hu f (fun _ => rfl), rfl⟩
  · rw [lane]
    exact ⟨rfl, rfl, rfl⟩
  · rw [State.fpxAt, lane]
    obtain ⟨regs, fpx, gen, still⟩ := ahead v l
    exact ⟨fun k _ => (congrArg (fun x : Lane => x.reg k) (lane v l) :).trans (regs k), fpx, gen, still⟩
  · exact (State.map_modWarp _ c.wid f (fun y => { y with lanes := [], readySince := 0 }) (fun _ => rfl)).trans
      (s.map_advance c (fun y => { y with lanes := [], readySince := 0 }) (fun _ => rfl))
  · exact (State.warp?_modWarp_other _ hv f (fun _ => rfl)).trans (s.warp?_advance_other c hv)

/-- Settles O27: exit ends lanes (`Issuing.ends`, `exit_leaves`), join and yield change one field each, and trap and brk
raise one code (`Issuing.parks_raiseAll`). -/
theorem laneEndsHoldsAndTraps : Obligations.LaneEndsHoldsAndTraps := by
  refine ⟨fun s o c w h busy free => ?_, fun s o c w h task busy all room idle => exit_leaves h task busy all room idle,
    fun s o c w h => join_holds h, fun s o c w h busy => yield_restarts h busy, fun s o c w h busy => ?_, fun s o c w h busy => ?_⟩
  · obtain ⟨lanes, barriers, others, last⟩ := exit_ends h
    obtain ⟨ended, still, regs, flags, memory, moved, -, rest⟩ := h.ends lanes barriers others
    exact ⟨_, exec_exit h busy free, ended, still, regs, flags, memory, fun all => last (endsWarp_iff.mpr all), moved, others, rest⟩
  · let f (l : Nat) : LaneTrap := { lane := l, code := 0x3F, event := (s.sources o c w l).b.toNat % 2 ^ 16 }
    have run : exec (.trap o) s = .next ((s.advance c).raise (s.env (.trap o) c w) ((activeLanes s (.trap o) c w).map f)) := by
      change execTrap o s = _
      rw [execTrap, issue_next h]
      simp only [Env.b_advance]
      rfl
    rw [State.raise_same _ _ f 0x3F busy (fun _ => rfl) (fun _ => rfl)] at run
    obtain ⟨parked, frame⟩ := h.parks_raiseAll (activeLanes s (.trap o) c w) (fun l hl => List.mem_of_mem_filter hl) 0x3F 0
      (f ((activeLanes s (.trap o) c w).headD 0)).event
    exact ⟨_, run, h.wid ▸ parked, frame⟩
  · let f (l : Nat) : LaneTrap := { lane := l, code := 0x3E }
    have run : exec (.brk o) s = .next ((s.advance c).raise (s.env (.brk o) c w) ((activeLanes s (.brk o) c w).map f)) := by
      change execBrk o s = _
      rw [execBrk, issue_next h]
      rfl
    rw [State.raise_same _ _ f 0x3E busy (fun _ => rfl) (fun _ => rfl)] at run
    exact ⟨_, run, h.parks_raiseAll (activeLanes s (.brk o) c w) (fun l hl => List.mem_of_mem_filter hl) 0x3E 0 0⟩
end Sys2Proof.Machine

namespace Sys2Proof.Machine

/-! ## Two warps of one number -/

section
open Sys2Proof.Tests

/-- Two warps of one number, the second with a fold that waits its turn. -/
def twins : State := { demo with warps := [warp0, { warp0 with folds := [.value 0 0] }] }

theorem issuing_twins : Issuing twins (.digFold ab) cur0 warp0 := issuing_of (by decide +kernel) (by decide +kernel)

/-- How many folds wait in each warp of what an instruction answers. -/
def foldsWaiting : Host.Outcome State Fault Refusal → List Nat
  | .next t => t.warps.map (fun y => y.folds.length)
  | _ => []

/-- A fold of the two active lanes reaches both warps: it waits in the second behind the one there. -/
theorem foldsWaiting_twins : foldsWaiting (exec (.digFold ab) twins) = [0, 3] := by decide +kernel

/-- Refutes O28, in its clause of dig.fold: where two warps bear one number, the folds of the first, in which none
waits, are added to those that wait in the second (`foldsWaiting_twins`), and the frame keeps these. -/
theorem not_controlRegisterResults : ¬ Obligations.ControlRegisterResults := by
  rintro ⟨-, -, -, folds, -⟩
  obtain ⟨t, x, run, -, changes, -⟩ := folds twins ab cur0 warp0 issuing_twins rfl
  have kept : t.warps.map (fun y => y.folds.length) = [0, 1] := by
    have := congrArg (List.map (fun y => y.folds.length)) changes.warps
    rw [List.map_map, List.map_map] at this
    exact this
  have grown := foldsWaiting_twins
  rw [run] at grown
  exact absurd (kept.symm.trans grown) (by decide)
end

end Sys2Proof.Machine

namespace Sys2Proof.Machine

section
open Sys2Proof.Tests

/-- Two warps of one number, the second of a DET launch. -/
def detTwins : State :=
  { demoM with warps := [warpM, { warpM with launch := 4 }], launches := [launch0, { launch0 with lid := 4, lrec := { det := true } }] }

/-- A swap on the scratchpad with a register in D. -/
def swapSp : Operands := fo (v 100) (v 1) (v 3) 0x2B

theorem issuing_detTwins : Issuing detTwins (.atm swapSp) cur0 warpM := issuing_of (by decide +kernel) (by decide +kernel)

theorem hasRoom_detTwins : detTwins.hasRoom warpM swapSp.ls := by
  unfold State.hasRoom
  decide +kernel

/-- The lanes' accesses pass, and meet no owned line and no save image. -/
theorem accesses_detTwins : ∀ l ∈ activeLanes detTwins (.atm swapSp) cur0 warpM,
    detTwins.checkAccess warpM (atmShared (.atm swapSp)) (atmOffset (.atm swapSp) (detTwins.sources swapSp cur0 warpM l).b) 4 4 = 0 ∧
      detTwins.ownedLines warpM (atmShared (.atm swapSp)) (atmOffset (.atm swapSp) (detTwins.sources swapSp cur0 warpM l).b) 4 = [] ∧
      detTwins.inImage (warpM.space (atmShared (.atm swapSp)))
        (detTwins.spaceAddr warpM (atmShared (.atm swapSp)) (atmOffset (.atm swapSp) (detTwins.sources swapSp cur0 warpM l).b)) 4 = false := by
  decide +kernel

/-- Whether the digests of the warps stand as in a state. -/
def digestsStand (s : State) : Host.Outcome State Fault Refusal → Bool
  | .next t => t.warps.map (·.dig) == s.warps.map (·.dig)
  | _ => false

/-- The word swapped is folded into the digest of the second warp. -/
theorem digestsStand_detTwins : digestsStand detTwins (exec (.atm swapSp) detTwins) = false := by decide +kernel

/-- Refutes O24, in the frame of its suspending form: where two warps bear one number and the second is of a DET launch,
an atomic of the first is folded into the digest of the second (`digestsStand_detTwins`). -/
theorem not_atomicResults : ¬ Obligations.AtomicResults := by
  rintro ⟨atomics, -⟩
  obtain ⟨-, suspends⟩ := atomics .atm (by simp) detTwins swapSp cur0 warpM issuing_detTwins (by decide +kernel) accesses_detTwins
  obtain ⟨t, results, n, run, -, -, frame, -⟩ :=
    suspends (by decide) (by decide) 100 rfl (by decide +kernel) hasRoom_detTwins
  have kept : t.warps.map (·.dig) = detTwins.warps.map (·.dig) := by
    have := congrArg (List.map (·.dig)) frame.warps
    rw [List.map_map, List.map_map] at this
    exact this
  have moved := digestsStand_detTwins
  rw [run] at moved
  exact absurd (beq_iff_eq.mpr kept) (by rw [show (t.warps.map (·.dig) == detTwins.warps.map (·.dig)) = false from moved]; decide)
end

end Sys2Proof.Machine

namespace Sys2Proof.Machine

/-! ## Registers set over a context

A context under old values is the context with some settings made in order (R31). A setting made later of the same
register hides an earlier one, and settings of different registers do not meet. -/

/-- One setting that old values of registers make in a context. -/
inductive RegSetting
  | window (d : Nat) (x : WindowRegs)
  | deque (x : DequeRegs)
  | table (x : TableRegs)

/-- The register that a setting sets: windows of a die, deque of a core, the table. -/
inductive RegKey
  | window (d : Nat)
  | deque (d core : Nat)
  | table
  deriving DecidableEq

def RegSetting.key : RegSetting → RegKey
  | .window d _ => .window d
  | .deque x => .deque x.die x.core
  | .table _ => .table

/-- A context with one setting made. -/
def Context.set (c : Context) : RegSetting → Context
  | .window d x => c.modDie d (·.withWindow x)
  | .deque x => c.withDeque x
  | .table x => c.withTable x

/-- The settings of old values, in the order in which they are made. -/
def OldRegs.settings (o : OldRegs) : List RegSetting :=
  o.windows.map (fun x => .window x.1 x.2) ++ (o.deques.map .deque ++ o.table.toList.map .table)

theorem Context.under_eq (c : Context) (o : OldRegs) : c.under o = o.settings.foldl Context.set c := by
  simp only [OldRegs.settings, List.foldl_append, List.foldl_map, Context.under]
  cases o.table <;> rfl

/-- The later of two settings of one register stands. -/
theorem Context.set_set (c : Context) {a b : RegSetting} (h : a.key = b.key) : (c.set a).set b = c.set b := by
  cases a <;> cases b <;> simp only [RegSetting.key, RegKey.window.injEq, RegKey.deque.injEq, reduceCtorEq] at h
  case window.window => subst h; simp [Context.set, Context.modDie, List.modify_modify_eq, Function.comp_def, CtxDie.withWindow]
  case deque.deque => obtain ⟨hd, hc⟩ := h; simp [Context.set, Context.withDeque, Context.modDie, hd, hc, List.modify_modify_eq, Function.comp_def]
  case table.table => rfl

/-- Changes of two dies' copies are made in either order. -/
theorem Context.modDie_comm (c : Context) {d e : Nat} (h : d ≠ e) (f g : CtxDie → CtxDie) :
    (c.modDie d f).modDie e g = (c.modDie e g).modDie d f := by
  simp only [Context.modDie, List.modify_modify_ne _ _ _ h]

/-- Changes of one die's copy that commute are made in either order. -/
theorem Context.modDie_comm_same (c : Context) (d : Nat) (f g : CtxDie → CtxDie) (h : ∀ x, f (g x) = g (f x)) :
    (c.modDie d f).modDie d g = (c.modDie d g).modDie d f := by
  simp only [Context.modDie, List.modify_modify_eq, Function.comp_def, h]

/-- Settings of two registers are made in either order. -/
theorem Context.set_comm (c : Context) {a b : RegSetting} (h : a.key ≠ b.key) : (c.set a).set b = (c.set b).set a := by
  have die (c : Context) {d e : Nat} {f g : CtxDie → CtxDie} (h : ∀ x, d = e → f (g x) = g (f x)) :
      (c.modDie d f).modDie e g = (c.modDie e g).modDie d f := by
    by_cases same : d = e
    · subst same
      exact c.modDie_comm_same d f g (fun x => h x rfl)
    · exact c.modDie_comm same f g
  cases a with
  | table x =>
    cases b with
    | table y => exact absurd rfl h
    | window e y => rfl
    | deque y => rfl
  | window d x =>
    cases b with
    | table y => rfl
    | window e y => exact die c (fun _ same => absurd (congrArg RegKey.window same) h)
    | deque y => exact die c (fun _ _ => rfl)
  | deque x =>
    cases b with
    | table y => rfl
    | window e y => exact die c (fun _ _ => rfl)
    | deque y =>
      refine die c (fun z same => ?_)
      have cores : x.core ≠ y.core := fun e => h (by simp [RegSetting.key, same, e])
      exact congrArg₂ (fun b l => { z with dqb := b, dql := l }) (List.set_comm _ _ cores.symm) (List.set_comm _ _ cores.symm)

/-- A setting is hidden by later ones among which its register is. -/
theorem Context.foldl_set_of_mem (xs : List RegSetting) (c : Context) {a : RegSetting} (h : a.key ∈ xs.map RegSetting.key) :
    xs.foldl Context.set (c.set a) = xs.foldl Context.set c := by
  induction xs generalizing c with
  | nil => cases h
  | cons b bs ih =>
    rw [List.foldl_cons, List.foldl_cons]
    by_cases same : a.key = b.key
    · rw [c.set_set same]
    · rw [c.set_comm same]
      refine ih _ ?_
      rw [List.map_cons, List.mem_cons] at h
      exact h.resolve_left same

/-- Settings are hidden by later ones of the same registers. -/
theorem Context.foldl_set_foldl (ys xs : List RegSetting) (c : Context)
    (h : ∀ a ∈ ys, a.key ∈ xs.map RegSetting.key) : xs.foldl Context.set (ys.foldl Context.set c) = xs.foldl Context.set c := by
  induction ys generalizing c with
  | nil => rfl
  | cons a ys ih =>
    rw [List.foldl_cons, ih _ (fun b hb => h b (List.mem_cons_of_mem _ hb)), Context.foldl_set_of_mem xs c (h a List.mem_cons_self)]

/-- The values of registers in a context are of the same registers. -/
theorem Context.keys_like (c : Context) (o : OldRegs) :
    (c.like o).settings.map RegSetting.key = o.settings.map RegSetting.key := by
  simp only [OldRegs.settings, Context.like, List.map_append, List.map_map]
  cases o.table <;> rfl

/-- Old values of the same registers hide each other. -/
theorem Context.under_under (c : Context) {o q : OldRegs} (h : o.settings.map RegSetting.key = q.settings.map RegSetting.key) :
    (c.under o).under q = c.under q := by
  rw [Context.under_eq, Context.under_eq, Context.under_eq, Context.foldl_set_foldl]
  exact fun a ha => h ▸ List.mem_map_of_mem ha

/-- A context's own values change nothing. -/
theorem Context.under_like (c : Context) (o : OldRegs) : c.under (c.like o) = c := by
  have own (xs : List RegSetting) (h : ∀ a ∈ xs, c.set a = c) : xs.foldl Context.set c = c := by
    induction xs with
    | nil => rfl
    | cons a xs ih => rw [List.foldl_cons, h a List.mem_cons_self, ih (fun b hb => h b (List.mem_cons_of_mem _ hb))]
  rw [Context.under_eq]
  refine own _ (fun a ha => ?_)
  have die (d : Nat) (f : CtxDie → CtxDie) (h : f (c.die d) = c.die d) : c.modDie d f = c := by
    refine congrArg (fun x => { c with dies := x }) (List.ext_getElem? (fun n => ?_))
    rw [List.getElem?_modify]
    by_cases hn : d = n
    · subst hn
      cases at_ : c.dies[d]? with
      | none => rfl
      | some x =>
        have here : c.die d = x := by simp [Context.die, List.getD, at_]
        rw [← here]
        simp [h]
    · simp [hn]
  have noop (xs : List Word) (n : Nat) : xs.set n (xs.getD n 0) = xs := by
    by_cases h : n < xs.length
    · rw [← List.getElem_eq_getD (h := h), List.set_getElem_self]
    · exact List.set_eq_of_length_le (by omega)
  simp only [OldRegs.settings, Context.like, List.map_map, List.mem_append, List.mem_map, Function.comp_apply,
    Option.mem_toList, Option.map_eq_some_iff] at ha
  obtain ⟨x, -, rfl⟩ | ⟨x, -, rfl⟩ | ⟨x, ⟨y, -, rfl⟩, rfl⟩ := ha
  · exact die _ _ rfl
  · exact die _ _ (by simp only [Context.dequeRegs, noop])
  · rfl

/-- The registers of a context seen under old values, and set back, are as they were. -/
theorem Context.under_under_like (c : Context) (o : OldRegs) : (c.under o).under (c.like o) = c := by
  rw [c.under_under (c.keys_like o).symm, c.under_like]

theorem Context.id_set (c : Context) (a : RegSetting) : (c.set a).id = c.id := by
  cases a <;> rfl

theorem Context.clk_set (c : Context) (a : RegSetting) : (c.set a).clk = c.clk := by
  cases a <;> rfl

@[simp] theorem Context.id_under (c : Context) (o : OldRegs) : (c.under o).id = c.id := by
  rw [Context.under_eq]
  exact foldl_keeps _ Context.id Context.id_set _ _

@[simp] theorem Context.clk_under (c : Context) (o : OldRegs) : (c.under o).clk = c.clk := by
  rw [Context.under_eq]
  exact foldl_keeps _ Context.clk Context.clk_set _ _

/-! ## Events under old values -/

theorem State.modCtx_modCtx (s : State) (ctx : Nat) (f g : Context → Context) (hf : ∀ x, (f x).id = x.id) :
    (s.modCtx ctx f).modCtx ctx g = s.modCtx ctx (fun x => g (f x)) := by
  simp only [State.modCtx, List.map_map]
  congr 1
  refine List.map_congr_left (fun x _ => ?_)
  simp only [Function.comp]
  by_cases h : (x.id == ctx) = true <;> simp [h, hf]

theorem State.modCtx_self (s : State) (ctx : Nat) : s.modCtx ctx (fun x => x) = s := by
  simp [State.modCtx]

theorem State.seenUnder_eq (s : State) (ctx : Nat) (o : OldRegs) : s.seenUnder ctx o = s.modCtx ctx (·.under o) := by
  unfold State.seenUnder
  split
  · next h =>
    rw [beq_iff_eq.mp h]
    exact (s.modCtx_self ctx).symm
  · rfl

theorem State.under_none (s : State) (ctx : Nat) (f : State → State) : s.under ctx {} f = f s := rfl

theorem State.under_eq {s : State} {ctx : Nat} {c : Context} (hc : s.ctx? ctx = some c) (o : OldRegs) (f : State → State) :
    s.under ctx o f = (f (s.seenUnder ctx o)).modCtx ctx (·.under (c.like o)) := by
  unfold State.under
  split
  · next h =>
    rw [beq_iff_eq.mp h]
    exact (State.modCtx_self _ ctx).symm
  · rw [hc]

theorem State.ctx?_seenUnder {s : State} {ctx : Nat} {c : Context} (hc : s.ctx? ctx = some c) (o : OldRegs) :
    (s.seenUnder ctx o).ctx? ctx = some (c.under o) := by
  rw [s.seenUnder_eq, State.ctx?_modCtx _ _ _ _ (fun x => x.id_under o), hc]
  simp

theorem State.seenUnder_seenUnder (s : State) (ctx : Nat) (o : OldRegs) : (s.seenUnder ctx o).seenUnder ctx o = s.seenUnder ctx o := by
  simp only [State.seenUnder_eq, State.modCtx_modCtx _ _ _ _ (fun x => Context.id_under x o), Context.under_under _ rfl]

/-- The registers set back after an event that began under old values are those set back after the event itself. -/
theorem State.under_seenUnder {s : State} {ctx : Nat} {c : Context} (hc : s.ctx? ctx = some c) (o : OldRegs) (f : State → State) :
    s.under ctx o f = ((s.seenUnder ctx o).under ctx o f).modCtx ctx (·.under (c.like o)) := by
  rw [State.under_eq hc, State.under_eq (State.ctx?_seenUnder hc o), State.seenUnder_seenUnder,
    State.modCtx_modCtx _ _ _ _ (fun x => Context.id_under x _)]
  refine congrArg (fun g => State.modCtx _ ctx g) (funext (fun x => ?_))
  rw [x.under_under (((c.under o).keys_like o).trans (c.keys_like o).symm)]

/-- Without an event the registers are set back as they were, where one context bears the number. -/
theorem State.modCtx_seenUnder {s : State} {ctx : Nat} {c : Context} (hc : s.ctx? ctx = some c) (single : (s.ctxs.map (·.id)).Nodup)
    (o : OldRegs) : (s.seenUnder ctx o).modCtx ctx (·.under (c.like o)) = s := by
  rw [s.seenUnder_eq, State.modCtx_modCtx _ _ _ _ (fun x => Context.id_under x _)]
  have only (x : Context) (hx : x ∈ s.ctxs) (e : x.id = ctx) : x = c := by
    have hm := List.mem_of_find?_eq_some hc
    have hid : c.id = ctx := by simpa using List.find?_some hc
    exact List.inj_on_of_nodup_map single hx hm (e.trans hid.symm)
  refine congrArg (fun cs => { s with ctxs := cs }) ((List.map_congr_left (fun x hx => ?_)).trans (List.map_id _))
  split
  · next h =>
    rw [only x hx (by simpa using h)]
    exact c.under_under_like o
  · rfl

/-- An event that goes on under old values while a condition holds, which these do not change: it keeps the registers. -/
theorem State.event_under {s : State} {ctx : Nat} {c : Context} (hc : s.ctx? ctx = some c) (single : (s.ctxs.map (·.id)).Nodup)
    (o : OldRegs) (p : Bool) (f : State → State) :
    (if p then s.under ctx o f else s) =
      (if p then (s.seenUnder ctx o).under ctx o f else s.seenUnder ctx o).modCtx ctx (·.under (c.like o)) := by
  cases p
  · exact (State.modCtx_seenUnder hc single o).symm
  · exact State.under_seenUnder hc o f

theorem State.seenUnder_warps (s : State) (ctx : Nat) (o : OldRegs) : (s.seenUnder ctx o).warps = s.warps := by
  rw [s.seenUnder_eq]
  rfl

theorem State.warp?_seenUnder (s : State) (ctx : Nat) (o : OldRegs) (v : Nat) : (s.seenUnder ctx o).warp? v = s.warp? v := by
  rw [State.warp?, s.seenUnder_warps]
  rfl

theorem State.ctxClk_seenUnder (s : State) (ctx : Nat) (o : OldRegs) (k : Nat) : (s.seenUnder ctx o).ctxClk k = s.ctxClk k := by
  rw [s.seenUnder_eq, State.ctxClk, State.ctx?_modCtx _ _ _ _ (fun x => x.id_under o), State.ctxClk, Option.map_map]
  refine congrArg (fun x : Option Nat => x.getD 0) (Option.map_congr (fun x _ => ?_))
  simp only [Function.comp]
  split
  · exact x.clk_under o
  · rfl

end Sys2Proof.Machine

namespace Sys2Proof.Machine

/-! ## Events of a record -/

section
variable {s : State} {wid seq : Nat} {w : Warp} {r : Record} (hw : s.warp? wid = some w) (hr : w.record? seq = some r)
include hw hr

theorem exec_waitTimeout : exec (.waitTimeout wid seq) s =
    .next (if s.timedOut w r then s.under w.ctx r.old (fun s => s.timeOut w r) else s) := by
  change execWaitTimeout wid seq s = _
  simp only [execWaitTimeout, hw, hr]

theorem State.withRecord_eq (f : State → Warp → Record → State) : s.withRecord wid seq f =
    if s.serves w && r.state == .waiting then s.under w.ctx r.old (fun s => f s w r) else s := by
  simp only [State.withRecord, hw, hr]

/-- What an apply of a chained request does, where the record waits for one. -/
def State.applyRequest (i : Instr) (wid seq pc idx k : Nat) (w : Warp) (r : Record) (s : State) : State :=
  let ks := s.blockers w (atmShared i) 4 (r.vals.map (fun v => atmOffset i v.b0))
  if !s.serves w || r.state != .waiting || !s.requestTurn w pc idx k || !ks.isEmpty then s
  else
    (s.foldInPlace wid seq (fun s =>
      let t := atomicApply i (w.made + 1) s w r.vals
      some (t.s.ready wid seq t.ws))).getD s

theorem exec_detRequestApply {pc idx k : Nat} {i : Instr} (wait : r.wait = .det pc idx k) (instr : r.instr = some i) :
    exec (.detRequestApply wid seq) s = .next (s.under w.ctx r.old (State.applyRequest i wid seq pc idx k w r)) := by
  change execDetRequestApply wid seq s = _
  simp only [execDetRequestApply, hw, hr, wait, instr]
  rfl

theorem exec_detRequestApply_none (other : ∀ pc idx k i, ¬ (r.wait = .det pc idx k ∧ r.instr = some i)) :
    exec (.detRequestApply wid seq) s = .next s := by
  change execDetRequestApply wid seq s = _
  simp only [execDetRequestApply, hw, hr]
  split
  · next pc idx k i wait instr => exact absurd ⟨wait, instr⟩ (other pc idx k i)
  · rfl
end

/-- An event of a record that goes on under old values keeps the registers. -/
theorem record_event_under {s u : State} {wid : Nat} {w : Warp} {r : Record} {c : Context} {e : Instr}
    (hc : s.ctx? w.ctx = some c) (single : (s.ctxs.map (·.id)).Nodup) (hw : s.warp? wid = some w)
    (p : State → Bool) (same : p (s.seenUnder w.ctx r.old) = p s) (f : State → State)
    (run : ∀ t : State, t.warp? wid = some w → exec e t = .next (if p t then t.under w.ctx r.old f else t))
    (h : exec e (s.seenUnder w.ctx r.old) = .next u) : exec e s = .next (u.modCtx w.ctx (·.under (c.like r.old))) := by
  rw [run _ ((s.warp?_seenUnder _ _ _).trans hw), same] at h
  rw [run s hw, State.event_under hc single r.old (p s) f, Host.Outcome.next.inj h]

/-- Events of a record issued under old window or table registers go on as under those (R31). -/
theorem record_events_under {s u : State} {wid seq : Nat} {w : Warp} {r : Record} {c : Context} (hw : s.warp? wid = some w)
    (hr : w.record? seq = some r) (hc : s.ctx? w.ctx = some c) (single : (s.ctxs.map (·.id)).Nodup) (e : Instr)
    (he : e ∈ [Instr.waitTimeout wid seq, .detRequestApply wid seq, .traversalReadComplete wid seq,
      .textureSampleComplete wid seq, .sampleGatherComplete wid seq])
    (h : exec e (s.seenUnder w.ctx r.old) = .next u) : exec e s = .next (u.modCtx w.ctx (·.under (c.like r.old))) := by
  have withRecord (g : State → Warp → Record → State) (e : Instr) (run : ∀ t, exec e t = .next (t.withRecord wid seq g))
      (h : exec e (s.seenUnder w.ctx r.old) = .next u) : exec e s = .next (u.modCtx w.ctx (·.under (c.like r.old))) :=
    record_event_under hc single hw (fun t => t.serves w && r.state == .waiting) rfl _
      (fun t ht => (run t).trans (congrArg _ (State.withRecord_eq ht hr g))) h
  simp only [List.mem_cons, List.not_mem_nil, or_false] at he
  obtain rfl | rfl | rfl | rfl | rfl := he
  · exact record_event_under hc single hw (fun t => t.timedOut w r) (by simp only [State.timedOut, State.ctxClk_seenUnder]; rfl) _
      (fun t ht => exec_waitTimeout ht hr) h
  · by_cases other : ∃ pc idx k i, r.wait = .det pc idx k ∧ r.instr = some i
    · obtain ⟨pc, idx, k, i, wait, instr⟩ := other
      exact record_event_under hc single hw (fun _ => true) rfl _ (fun t ht => exec_detRequestApply ht hr wait instr) h
    · simp only [not_exists] at other
      exact record_event_under hc single hw (fun _ => false) rfl (fun t => t) (fun t ht => exec_detRequestApply_none ht hr other) h
  · exact withRecord _ _ (fun _ => rfl) h
  · exact withRecord _ _ (fun _ => rfl) h
  · exact withRecord _ _ (fun _ => rfl) h

end Sys2Proof.Machine

namespace Sys2Proof.Machine

/-! ## A record that becomes ready -/

/-- A record that became ready with further results. -/
def Record.readied (r : Record) (now : Nat) (ws : List RegWrite) : Record :=
  { r with state := .ready, wait := .nothing, results := r.results ++ ws, readyAt := now }

/-- A warp whose records of a number changed. -/
def Warp.modRecords (w : Warp) (seq : Nat) (f : Record → Record) : Warp :=
  { w with records := w.records.map (fun r => if r.seq == seq then f r else r) }

/-- The first record of a number after a change of the records of a number. -/
theorem Warp.record?_modRecords (w : Warp) (seq k : Nat) (f : Record → Record) (hf : ∀ r, (f r).seq = r.seq) :
    (w.modRecords seq f).record? k = (w.record? k).map (fun r => if k = seq then f r else r) :=
  find_map_if Record.seq w.records k seq f hf

theorem Warp.mem_modRecords {w : Warp} {seq : Nat} {f : Record → Record} {q : Record} (h : q ∈ (w.modRecords seq f).records) :
    ∃ r ∈ w.records, (r.seq = seq ∧ q = f r) ∨ (r.seq ≠ seq ∧ q = r) := by
  obtain ⟨r, hr, rfl⟩ := List.mem_map.mp h
  refine ⟨r, hr, ?_⟩
  by_cases e : r.seq = seq
  · exact .inl ⟨e, by simp [e]⟩
  · exact .inr ⟨e, by simp [e]⟩

theorem State.mem_modWarp {s : State} {wid : Nat} {f : Warp → Warp} {u : Warp} (h : u ∈ (s.modWarp wid f).warps) :
    ∃ w ∈ s.warps, (w.wid = wid ∧ u = f w) ∨ (w.wid ≠ wid ∧ u = w) := by
  obtain ⟨w, hw, rfl⟩ := List.mem_map.mp h
  refine ⟨w, hw, ?_⟩
  by_cases e : w.wid = wid
  · exact .inl ⟨e, by simp [e]⟩
  · exact .inr ⟨e, by simp [e]⟩

theorem State.modWarp_none {s : State} {wid : Nat} (h : s.warp? wid = none) (f : Warp → Warp) : s.modWarp wid f = s := by
  have apart : ∀ w ∈ s.warps, ¬ (w.wid == wid) = true := by simpa [State.warp?] using h
  refine congrArg (fun ws => { s with warps := ws }) ((List.map_congr_left (fun w hw => ?_)).trans (List.map_id _))
  rw [if_neg (apart w hw)]
  rfl

theorem State.updateRecord_warps (s : State) (wid seq : Nat) (f : Record → Record) :
    (s.updateRecord wid seq f).warps = (s.modRecord wid seq f).warps := by
  unfold State.updateRecord
  dsimp only
  split
  · rfl
  · split
    · rfl
    · split
      · exact State.spacePut_warps _ _ _ _
      · exact State.spacePut_warps _ _ _ _
      · rfl

/-- The clock by which a warp's record becomes ready. -/
def State.readyNow (s : State) (wid : Nat) : Nat := ((s.warp? wid).map (fun w => (s.die w.die).clkr)).getD 0

/-- All of a warp's records of a number become ready, and no other warp and record changes. -/
theorem State.ready_warps (s : State) (wid seq : Nat) (ws : List RegWrite) :
    (s.ready wid seq ws).warps = (s.modRecord wid seq (·.readied (s.readyNow wid) ws)).warps := by
  unfold State.ready State.readyNow
  cases hw : s.warp? wid with
  | none =>
    rw [State.modRecord, State.modWarp_none hw]
  | some w => exact State.updateRecord_warps s wid seq _

/-- The record of a number is ready with results. -/
def State.ReadyWith (t : State) (wid seq : Nat) (rs : List RegWrite) : Prop :=
  ∃ x y, t.warp? wid = some x ∧ x.record? seq = some y ∧ y.state = .ready ∧ y.results = rs

/-- No record of a number waits in a warp of a number. -/
def State.NoneWaits (t : State) (wid seq : Nat) : Prop := ∀ u ∈ t.warps, u.wid = wid → ∀ q ∈ u.records, q.seq = seq → q.state = .ready

theorem State.ReadyWith.of_warps {s t : State} {wid seq : Nat} {rs : List RegWrite} (h : s.ReadyWith wid seq rs)
    (e : t.warps = s.warps) : t.ReadyWith wid seq rs := by
  rwa [State.ReadyWith, State.warp?, e]

theorem State.warp?_modRecord (s : State) (wid seq v : Nat) (f : Record → Record) : (s.modRecord wid seq f).warp? v =
    (s.warp? v).map (fun w => if v = wid then w.modRecords seq f else w) :=
  State.warp?_modWarp s v wid _ (fun _ => rfl)

theorem State.readyWith_ready {s : State} {wid seq : Nat} {w : Warp} {r : Record} (hw : s.warp? wid = some w)
    (hr : w.record? seq = some r) (ws : List RegWrite) : (s.ready wid seq ws).ReadyWith wid seq (r.results ++ ws) := by
  let f (q : Record) : Record := q.readied (s.readyNow wid) ws
  refine State.ReadyWith.of_warps (s := s.modRecord wid seq f) ?_ (s.ready_warps wid seq ws)
  exact ⟨w.modRecords seq f, f r, by simp [State.warp?_modRecord, hw],
    by simp [w.record?_modRecords seq seq f (fun _ => rfl), hr], rfl, rfl⟩

theorem State.noneWaits_ready (s : State) (wid seq : Nat) (ws : List RegWrite) : (s.ready wid seq ws).NoneWaits wid seq := by
  intro u hu num q hq same
  rw [State.ready_warps] at hu
  obtain ⟨w, -, ⟨-, rfl⟩ | ⟨other, rfl⟩⟩ := State.mem_modWarp hu
  · obtain ⟨r, -, ⟨-, rfl⟩ | ⟨other, rfl⟩⟩ := Warp.mem_modRecords hq
    · rfl
    · exact absurd same other
  · exact absurd num other

theorem State.NoneWaits.ready {s : State} {wid seq : Nat} (h : s.NoneWaits wid seq) (v k : Nat) (ws : List RegWrite) :
    (s.ready v k ws).NoneWaits wid seq := by
  intro u hu num q hq same
  rw [State.ready_warps] at hu
  obtain ⟨w, hw, ⟨-, rfl⟩ | ⟨-, rfl⟩⟩ := State.mem_modWarp hu
  · obtain ⟨r, hr, ⟨-, rfl⟩ | ⟨-, rfl⟩⟩ := Warp.mem_modRecords hq
    · rfl
    · exact h _ hw num _ hr same
  · exact h _ hw num _ hq same

/-- A record stays ready when another becomes ready. -/
theorem State.ReadyWith.ready {s : State} {wid seq : Nat} {rs : List RegWrite} (h : s.ReadyWith wid seq rs) {v k : Nat}
    (other : ¬ (v = wid ∧ k = seq)) (ws : List RegWrite) : (s.ready v k ws).ReadyWith wid seq rs := by
  let f (q : Record) : Record := q.readied (s.readyNow v) ws
  refine State.ReadyWith.of_warps (s := s.modRecord v k f) ?_ (s.ready_warps v k ws)
  obtain ⟨x, y, hx, hy, state, results⟩ := h
  by_cases hv : wid = v
  · subst hv
    have apart : seq ≠ k := fun e => other ⟨rfl, e.symm⟩
    exact ⟨x.modRecords k f, y, by simp [State.warp?_modRecord, hx],
      by simp [x.record?_modRecords k seq f (fun _ => rfl), hy, apart], state, results⟩
  · exact ⟨x, y, by simp [State.warp?_modRecord, hx, hv], hy, state, results⟩

/-! ## Waits that time out -/

theorem State.beforeAcquire_warps (s : State) (o : Owner) (k : LineKey) : (s.beforeAcquire o k).warps = s.warps := by
  unfold State.beforeAcquire
  dsimp only
  split <;> rfl

theorem State.own_warps (s : State) (o : Owner) (ks : List LineKey) : (s.own o ks).warps = s.warps := by
  have acquire (t : State) : (t.acquire o ks).warps = t.warps := by
    refine foldl_keeps _ State.warps (fun t k => ?_) ks t
    split <;> rfl
  rw [State.own, acquire]
  exact foldl_keeps _ State.warps (fun t k => t.beforeAcquire_warps o k) ks s

theorem State.grantSlot_warps (s : State) (w : Warp) (k : Nat) (d : List Byte) : (s.grantSlot w k d).2.warps = s.warps :=
  State.own_warps _ _ _

/-- What keeps the warps keeps them under old values too. -/
theorem State.under_warps (s : State) (ctx : Nat) (o : OldRegs) (f : State → State) (hf : ∀ t, (f t).warps = t.warps) :
    (s.under ctx o f).warps = s.warps := by
  unfold State.under
  split
  · exact hf s
  · split
    · exact hf s
    · exact (hf _).trans (s.seenUnder_warps ctx o)

theorem State.mem_slotWaiters {s : State} {die : Nat} {x : Warp × Record} (h : x ∈ s.slotWaiters die) :
    x.1 ∈ s.warps ∧ x.2 ∈ x.1.records ∧ x.2.state = .waiting := by
  simp only [State.slotWaiters, State.waiters, mem_sortBy, List.mem_flatMap, List.mem_map, List.mem_filter] at h
  obtain ⟨w, hw, r, ⟨hr, state⟩, rfl⟩ := h
  exact ⟨hw, hr, by simpa using (Bool.and_eq_true_iff.mp state).1⟩

/-- Grants reach waiting records alone (R399). -/
theorem State.ReadyWith.grantWaiters {s : State} {wid seq : Nat} {rs : List RegWrite} (h : s.ReadyWith wid seq rs)
    (none_ : s.NoneWaits wid seq) (die n : Nat) : (s.grantWaiters die n).ReadyWith wid seq rs := by
  induction n generalizing s with
  | zero => exact h
  | succ n ih =>
    unfold State.grantWaiters
    split
    · next k x xs free waiters =>
      split
      · exact h
      · split
        · next d wait =>
          obtain ⟨hw, hr, waits⟩ := State.mem_slotWaiters (waiters ▸ List.mem_cons_self)
          have other : ¬ (x.1.wid = wid ∧ x.2.seq = seq) := fun ⟨hv, hk⟩ => by
            have := none_ x.1 hw hv x.2 hr hk
            rw [waits] at this
            cases this
          have keep := s.under_warps x.1.ctx x.2.old (fun s => (s.grantSlot x.1 k d).2) (fun t => t.grantSlot_warps x.1 k d)
          refine ih ((h.of_warps keep).ready other _) (State.NoneWaits.ready ?_ _ _ _)
          rwa [State.NoneWaits, keep]
        · exact h
    · exact h

end Sys2Proof.Machine

namespace Sys2Proof.Machine

theorem mem_dstWrites {l b k : Nat} {vs : List Word} (hk : k < vs.length) :
    ({ lane := l, reg := b + k, val := vs.getD k 0 } : RegWrite) ∈ dstWrites l (.reg b) vs :=
  List.mem_map.mpr ⟨k, List.mem_range.mpr hk, rfl⟩

/-- The status that a record's lanes receive. -/
def Record.statusWrites (r : Record) (st : Nat) : List RegWrite :=
  if r.sdst < 640 then r.lanes.map (fun l => ⟨l, r.sdst, BitVec.ofNat 32 st⟩) else []

theorem Record.mem_statusWrites {r : Record} {st l : Nat} (names : r.sdst < 640) (hl : l ∈ r.lanes) :
    ({ lane := l, reg := r.sdst, val := BitVec.ofNat 32 st } : RegWrite) ∈ r.statusWrites st := by
  rw [Record.statusWrites, if_pos names]
  exact List.mem_map.mpr ⟨l, hl, rfl⟩

theorem State.timedOut_of {s : State} {w : Warp} {r : Record} (served : s.serves w = true) (waits : r.state = .waiting) (finite : r.tmo ≠ 31)
    (timed : r.wait.timed = true) (late : (BitVec.ofNat 32 (s.ctxClk w.ctx) - r.deadline).toNat < 2 ^ 31) :
    s.timedOut w r = true := by
  have sign : (BitVec.ofNat 32 (s.ctxClk w.ctx) - r.deadline).msb = false := by
    rw [BitVec.msb_eq_false_iff_two_mul_lt]
    omega
  simp [State.timedOut, served, waits, finite, timed, sign]

section
variable {s : State} {wid seq : Nat} {w : Warp} {r : Record} (hw : s.warp? wid = some w) (hr : w.record? seq = some r)
include hw hr

/-- A record that times out receives status 1, whatever it waited for but a word. -/
theorem State.timeOut_status (other : ∀ sh a c v x, r.wait ≠ .word sh a c v x) :
    (s.timeOut w r).ReadyWith wid seq (r.results ++ r.statusWrites 1) := by
  have num : w.wid = wid := State.find_wid hw
  have seqIs : r.seq = seq := by simpa using List.find?_some hr
  have plain (t : State) (e : t.warps = s.warps) : (t.readyStatus w.wid r 1).ReadyWith wid seq (r.results ++ r.statusWrites 1) := by
    rw [num, State.readyStatus, seqIs]
    exact State.readyWith_ready (by rwa [State.warp?, e]) hr _
  unfold State.timeOut
  split
  · next h _ => exact absurd h (other _ _ _ _ _)
  · exact plain _ (s.warps_dqReserve _ _ _)
  · refine (plain s rfl).grantWaiters ?_ _ _
    rw [num, State.readyStatus, seqIs]
    exact s.noneWaits_ready wid seq _
  · exact plain s rfl

/-- A wait for a word that times out receives status 1 and the word as it stands (R271). -/
theorem State.timeOut_word {sh : Bool} {a c : Nat} {v : Word} {x : Option Latch} {i : Instr} (wait : r.wait = .word sh a c v x)
    (instr : r.instr = some i) : (s.timeOut w r).ReadyWith wid seq (r.results ++ waitWrites i.operands r.vals 1
      ((x.map (·.before)).getD (BitVec.ofNat 32 (s.numberAt (w.space sh) a 4)))) := by
  have num : w.wid = wid := State.find_wid hw
  have seqIs : r.seq = seq := by simpa using List.find?_some hr
  simp only [State.timeOut, wait, instr, num, seqIs, State.spaceWord, State.bytesToNat_spaceBytes]
  exact State.readyWith_ready hw hr _

end

end Sys2Proof.Machine

namespace Sys2Proof.Machine

/-! ## Resumption of a record -/

/-- An element is the first of its key where keys do not repeat. -/
theorem find_key_of_nodup {α : Type} (key : α → Nat) {xs : List α} (single : (xs.map key).Nodup) {x : α} (hx : x ∈ xs) :
    xs.find? (fun y => key y == key x) = some x := by
  induction xs with
  | nil => cases hx
  | cons y ys ih =>
    rw [List.map_cons, List.nodup_cons] at single
    rcases List.mem_cons.mp hx with rfl | hx
    · simp
    · have apart : key y ≠ key x := fun e => single.1 (e ▸ List.mem_map_of_mem hx)
      rw [List.find?_cons_of_neg (by simpa using apart), ih single.2 hx]

/-- Changing lanes by the items of a list, each lane by the item of its number. -/
theorem Warp.lane_foldl_key {α : Type} (key : α → Nat) (g : α → Lane → Lane) (xs : List α) (single : (xs.map key).Nodup)
    (w : Warp) {l : Nat} (hl : l < w.lanes.length) :
    (xs.foldl (fun w x => w.modLane (key x) (g x)) w).lane l =
      match xs.find? (fun x => key x == l) with
      | some x => g x (w.lane l)
      | none => w.lane l := by
  induction xs generalizing w with
  | nil => rfl
  | cons x xs ih =>
    rw [List.map_cons, List.nodup_cons] at single
    rw [List.foldl_cons, ih single.2 _ (by simpa using hl), Warp.lane_modLane]
    by_cases e : key x = l
    · have none_ : xs.find? (fun y => key y == l) = none := by
        rw [List.find?_eq_none]
        intro y hy
        rw [beq_iff_eq]
        exact fun same => single.1 (List.mem_map.mpr ⟨y, hy, same.trans e.symm⟩)
      rw [none_, List.find?_cons_of_pos (by simpa using e)]
      simp [e, hl]
    · rw [List.find?_cons_of_neg (by simpa using e), if_neg (fun h => e h.1.symm)]

/-- Changing lanes keeps all else of a warp. -/
theorem Warp.still_foldl_key {α : Type} (key : α → Nat) (g : α → Lane → Lane) (xs : List α) (w : Warp) :
    (xs.foldl (fun w x => w.modLane (key x) (g x)) w).still = w.still ∧
      (xs.foldl (fun w x => w.modLane (key x) (g x)) w).lanes.length = w.lanes.length := by
  induction xs generalizing w with
  | nil => exact ⟨rfl, rfl⟩
  | cons x xs ih =>
    obtain ⟨still, len⟩ := ih (w.modLane (key x) (g x))
    exact ⟨still.trans rfl, len.trans (Warp.length_modLane _ _ _)⟩

/-- The warp part of a restore (R219). -/
def Warp.restored (w : Warp) (r : Record) : Warp :=
  if r.inPlace then w.modLanes r.lanes (fun x => { x with st := .runnable, pc := r.pc, half := r.half, repc := r.repc })
  else r.saved.foldl (fun w v => w.modLane v.lane (restoreLane r · v)) w

/-- The warp part of a resumption (R219, R227). -/
def Warp.resumed (w : Warp) (r : Record) : Warp :=
  let v := (w.restored r).writeRegs (r.results.filter (fun x => !r.exempt.contains x.reg))
  { v with records := v.records.filter (fun x => x.seq != r.seq) }

theorem Warp.still_restored (w : Warp) (r : Record) : (w.restored r).still = w.still ∧
    (w.restored r).lanes.length = w.lanes.length := by
  unfold Warp.restored
  split
  · exact ⟨Warp.still_modLanes _ _ _, Warp.length_foldl _ _ _⟩
  · exact Warp.still_foldl_key LaneSave.lane _ _ _

theorem Warp.wid_restored (w : Warp) (r : Record) : (w.restored r).wid = w.wid := (congrArg Warp.wid (w.still_restored r).1 :)

theorem Warp.wid_writeRegs (w : Warp) (ws : List RegWrite) : (w.writeRegs ws).wid = w.wid :=
  (congrArg Warp.wid (w.writeRegs_rest ws).1 :)

theorem State.resumeRecord_eq {s : State} {wid : Nat} {w : Warp} {r : Record} (hw : s.warp? wid = some w)
    (hr : w.record? r.seq = some r) : s.resumeRecord wid r.seq = s.modWarp wid (·.resumed r) := by
  have restore : s.restoreLanes wid r = s.modWarp wid (·.restored r) := by
    unfold State.restoreLanes Warp.restored
    split <;> rfl
  simp only [State.resumeRecord, hw, Option.bind_some, hr, restore, State.writeRegs_eq, State.freeRecord]
  rw [State.modWarp_modWarp _ _ _ _ (fun u => u.wid_restored r),
    State.modWarp_modWarp _ _ _ _ (fun u => (Warp.wid_writeRegs _ _).trans (u.wid_restored r))]
  rfl

/-- Exempt registers stay, the others are those saved (R310). -/
theorem Cells.get_exempted (ns : List Nat) (x y : Cells 32) (n : Nat) :
    (ns.foldl (fun m n => m.set n (x.get n)) y).get n = if n ∈ ns then x.get n else y.get n := by
  induction ns generalizing y with
  | nil => simp
  | cons k ns ih =>
    rw [List.foldl_cons, ih, Cells.get_set]
    by_cases e : n = k
    · subst e
      simp
    · simp [e]

theorem Warp.writeRegs_cons (w : Warp) (y : RegWrite) (ys : List RegWrite) :
    w.writeRegs (y :: ys) = (w.modLane y.lane (fun x => x.setReg y.reg y.val)).writeRegs ys := rfl

/-- Register writes change registers alone. -/
theorem Warp.lane_writeRegs (w : Warp) (ws : List RegWrite) (l : Nat) :
    ∃ m, (w.writeRegs ws).lane l = { w.lane l with regs := m } := by
  induction ws generalizing w with
  | nil => exact ⟨_, rfl⟩
  | cons y ys ih =>
    obtain ⟨m, hm⟩ := ih (w.modLane y.lane (fun x => x.setReg y.reg y.val))
    rw [Warp.writeRegs_cons, hm, Warp.lane_modLane]
    split
    · exact ⟨m, rfl⟩
    · exact ⟨m, rfl⟩

/-- A register that no write names keeps. -/
theorem Warp.reg_writeRegs_other (w : Warp) (ws : List RegWrite) (l n : Nat) (h : ∀ y ∈ ws, ¬ (y.lane = l ∧ y.reg = n)) :
    ((w.writeRegs ws).lane l).reg n = (w.lane l).reg n := by
  induction ws generalizing w with
  | nil => rfl
  | cons y ys ih =>
    rw [List.forall_mem_cons] at h
    rw [Warp.writeRegs_cons, ih _ h.2, Warp.lane_modLane]
    split
    · next hl =>
      exact (Cells.get_set _ _ _ _).trans (if_neg (fun e => h.1 ⟨hl.1.symm, e.symm⟩))
    · rfl

/-- A register that one write names takes its word. -/
theorem Warp.reg_writeRegs (w : Warp) (ws : List RegWrite) (single : ws.Pairwise (fun a b => ¬ (a.lane = b.lane ∧ a.reg = b.reg)))
    {y : RegWrite} (hy : y ∈ ws) (hl : y.lane < w.lanes.length) : ((w.writeRegs ws).lane y.lane).reg y.reg = y.val := by
  induction ws generalizing w with
  | nil => cases hy
  | cons x xs ih =>
    rw [List.pairwise_cons] at single
    rw [Warp.writeRegs_cons]
    rcases List.mem_cons.mp hy with rfl | hy
    · rw [Warp.reg_writeRegs_other _ _ _ _ (fun z hz e => single.1 z hz ⟨e.1.symm, e.2.symm⟩), Warp.lane_modLane, if_pos ⟨rfl, hl⟩]
      exact (Cells.get_set _ _ _ _).trans (if_pos rfl)
    · exact ih _ single.2 hy (by simpa using hl)

section
variable {w : Warp} {r : Record} (lanes : r.lanes.Nodup) (saves : r.inPlace = false → r.saved.map (·.lane) = r.lanes)
include lanes saves

/-- A restored lane, with the save of its number where there is one. -/
theorem Warp.lane_restored {l : Nat} (hl : l < w.lanes.length) : (w.restored r).lane l =
    if r.inPlace then if l ∈ r.lanes then { w.lane l with st := .runnable, pc := r.pc, half := r.half, repc := r.repc } else w.lane l
    else match r.saved.find? (fun v => v.lane == l) with
      | some v => restoreLane r (w.lane l) v
      | none => w.lane l := by
  unfold Warp.restored
  split
  · rw [Warp.modLanes_def, Warp.lane_foldl _ _ _ _ lanes]
    simp [hl]
  · next out =>
    refine (Warp.lane_foldl_key LaneSave.lane (fun v x => restoreLane r x v) _ (by rwa [saves (by simpa using out)]) _ hl).trans ?_
    cases r.saved.find? (fun v => v.lane == l) <;> rfl

theorem Warp.restored_at {l : Nat} (hl : l < w.lanes.length) (member : l ∈ r.lanes) :
    ((w.restored r).lane l).st = .runnable ∧ ((w.restored r).lane l).pc = r.pc ∧
      ((w.restored r).lane l).half = r.half ∧ ((w.restored r).lane l).repc = r.repc := by
  rw [Warp.lane_restored lanes saves hl]
  by_cases place : r.inPlace = true
  · simp [place, member]
  · rw [if_neg place]
    rw [← saves (by simpa using place)] at member
    obtain ⟨v, hv, rfl⟩ := List.mem_map.mp member
    obtain ⟨u, hu⟩ := Option.isSome_iff_exists.mp (List.find?_isSome.mpr ⟨v, hv, beq_self_eq_true v.lane⟩ :
      (r.saved.find? (fun u => u.lane == v.lane)).isSome)
    rw [hu]
    exact ⟨rfl, rfl, rfl, rfl⟩

theorem Warp.reg_restored {l : Nat} (hl : l < w.lanes.length) (n : Nat) : ((w.restored r).lane l).reg n =
    match if r.inPlace then none else r.saved.find? (fun v => v.lane == l) with
    | some v => if n ∈ r.exempt then (w.lane l).reg n else v.regs.get n
    | none => (w.lane l).reg n := by
  rw [Warp.lane_restored lanes saves hl]
  by_cases place : r.inPlace = true
  · simp only [place, if_true]
    split <;> rfl
  · simp only [place]
    cases r.saved.find? (fun v => v.lane == l) with
    | none => rfl
    | some v => exact Cells.get_exempted _ _ _ _

theorem Warp.saved_restored (out : r.inPlace = false) {v : LaneSave} (hv : v ∈ r.saved) (hl : v.lane < w.lanes.length) :
    ((w.restored r).lane v.lane).fpx = v.fpx ∧ ((w.restored r).lane v.lane).gen = v.gen := by
  have first : r.saved.find? (fun u => u.lane == v.lane) = some v :=
    find_key_of_nodup LaneSave.lane (by rwa [saves out]) hv
  rw [Warp.lane_restored lanes saves hl, if_neg (by simp [out]), first]
  exact ⟨rfl, rfl⟩

end

/-- What a resumption does with the lanes' positions, and with all else than registers. -/
theorem Warp.lane_resumed (w : Warp) (r : Record) (l : Nat) :
    ∃ m, (w.resumed r).lane l = { (w.restored r).lane l with regs := m } := Warp.lane_writeRegs _ _ l

/-- A register that no result writes, or that is exempt, stands as restored. -/
theorem Warp.reg_resumed_other (w : Warp) (r : Record) {l n : Nat}
    (h : (∀ y ∈ r.results, ¬ (y.lane = l ∧ y.reg = n)) ∨ n ∈ r.exempt) :
    ((w.resumed r).lane l).reg n = ((w.restored r).lane l).reg n := by
  refine Warp.reg_writeRegs_other _ _ l n (fun y hy named => ?_)
  obtain ⟨hy, outside⟩ := List.mem_filter.mp hy
  rcases h with free | exempt
  · exact free y hy named
  · simp [named.2, exempt] at outside

/-- A result stands in its register. -/
theorem Warp.reg_resumed (w : Warp) (r : Record) (single : r.results.Pairwise (fun a b => ¬ (a.lane = b.lane ∧ a.reg = b.reg)))
    {y : RegWrite} (hy : y ∈ r.results) (free : y.reg ∉ r.exempt) (hl : y.lane < w.lanes.length) :
    ((w.resumed r).lane y.lane).reg y.reg = y.val :=
  Warp.reg_writeRegs _ _ (single.filter _) (List.mem_filter.mpr ⟨hy, by simpa using free⟩) ((w.still_restored r).2 ▸ hl)

theorem exec_recordResume {s : State} {wid : Nat} {w : Warp} {r : Record} (hw : s.warp? wid = some w) (run : s.mayRun w = true)
    (way : s.givesWay w = false) (once : s.resumed.contains wid = false) (first : w.nextReady = some r)
    (hr : w.record? r.seq = some r) : exec (.recordResume wid r.seq) s = .next (s.modWarp wid (·.resumed r)) := by
  change execRecordResume wid r.seq s = _
  simp only [execRecordResume, hw, once, run, way, first, Option.map_some, beq_self_eq_true, Bool.not_false, Bool.and_self, if_true,
    State.resumeRecord_eq hw hr]

/-- The ready record that comes first resumes (R219, R227). -/
theorem recordResume_resumes {s : State} {wid : Nat} {w : Warp} {r : Record} (hw : s.warp? wid = some w) (full : w.lanes.length = 32)
    (run : s.mayRun w = true) (way : s.givesWay w = false) (once : s.resumed.contains wid = false) (first : w.nextReady = some r)
    (hr : w.record? r.seq = some r) (names : ∀ l ∈ r.lanes, l < 32) (lanes : r.lanes.Nodup)
    (single : r.results.Pairwise (fun a b => ¬ (a.lane = b.lane ∧ a.reg = b.reg)))
    (saves : r.inPlace = false → r.saved.map (·.lane) = r.lanes) :
    ∃ t x, exec (.recordResume wid r.seq) s = .next t ∧ t.warp? wid = some x ∧ x.record? r.seq = none ∧
      (∀ l ∈ r.lanes, (x.lane l).st = .runnable ∧ (x.lane l).pc = r.pc ∧ (x.lane l).half = r.half ∧ (x.lane l).repc = r.repc) ∧
      (∀ y ∈ r.results, y.reg ∉ r.exempt → y.lane < 32 → (x.lane y.lane).reg y.reg = y.val) ∧
      (∀ l < 32, ∀ n, (∀ y ∈ r.results, ¬ (y.lane = l ∧ y.reg = n)) ∨ n ∈ r.exempt → (x.lane l).reg n =
        match if r.inPlace then none else r.saved.find? (fun v => v.lane == l) with
        | some v => if n ∈ r.exempt then (w.lane l).reg n else v.regs.get n
        | none => (w.lane l).reg n) ∧
      (r.inPlace = false → ∀ v ∈ r.saved, (x.lane v.lane).fpx = v.fpx ∧ (x.lane v.lane).gen = v.gen) ∧
      (∀ v, v ≠ wid → t.warp? v = s.warp? v) ∧ { t with warps := [] } = { s with warps := [] } := by
  have wids (u : Warp) : (u.resumed r).wid = u.wid := (Warp.wid_writeRegs _ _).trans (u.wid_restored r)
  refine ⟨_, w.resumed r, exec_recordResume hw run way once first hr, by simp [State.warp?_modWarp _ _ _ _ wids, hw], ?_,
    fun l hl => ?_, fun y hy free hl => w.reg_resumed r single hy free (full ▸ hl), fun l hl n other => ?_, fun out v hv => ?_,
    fun v hv => ?_, rfl⟩
  · simp [Warp.resumed, Warp.record?]
  · obtain ⟨m, hm⟩ := w.lane_resumed r l
    rw [hm]
    exact Warp.restored_at lanes saves (full ▸ names l hl) hl
  · exact (Warp.reg_resumed_other w r other).trans (Warp.reg_restored lanes saves (full ▸ hl) n)
  · obtain ⟨m, hm⟩ := w.lane_resumed r v.lane
    rw [hm]
    exact Warp.saved_restored lanes saves out hv (full ▸ names _ (saves out ▸ List.mem_map_of_mem hv))
  · simp [State.warp?_modWarp _ _ _ _ wids, hv]

end Sys2Proof.Machine

namespace Sys2Proof.Machine

/-! ## Accesses of a record that goes on -/

theorem Record.bare_eq (r : Record) : ∃ x, r.bare = { r with wait := x } := by
  unfold Record.bare
  split
  · exact ⟨_, rfl⟩
  · exact ⟨_, rfl⟩

theorem Record.seq_bare (r : Record) : r.bare.seq = r.seq := by
  obtain ⟨x, hx⟩ := r.bare_eq
  rw [hx]

theorem Record.state_bare (r : Record) : r.bare.state = r.state := by
  obtain ⟨x, hx⟩ := r.bare_eq
  rw [hx]

theorem Record.results_bare (r : Record) : r.bare.results = r.results := by
  obtain ⟨x, hx⟩ := r.bare_eq
  rw [hx]

theorem Record.bytesAt_bare (r : Record) (w : Warp) (a : Nat) : r.bare.bytesAt w a = r.bytesAt w a := by
  obtain ⟨x, hx⟩ := r.bare_eq
  rw [hx]
  rfl

/-- A record of a warp, but for a latch, is one of the bare warp. -/
theorem Warp.record?_bare (w : Warp) (seq : Nat) : w.bare.record? seq = (w.record? seq).map Record.bare := by
  simp only [Warp.record?, Warp.bare, List.find?_map, Function.comp_def, Record.seq_bare]

/-- Accesses have changed bytes of on-die memories that A picks, with what they latch, count and fold and what engines read
before them, and nothing else that a record or an address depends on (R239, R251, R271). -/
structure Accessed (s t : State) (A : Space → Nat → Prop) : Prop where
  warps : t.warps.map Warp.bare = s.warps.map Warp.bare
  bytes : ∀ sp a, ¬ A sp a → t.byteAt sp a = s.byteAt sp a
  rest : t.bare = s.bare

theorem Accessed.refl (s : State) (A : Space → Nat → Prop) : Accessed s s A := ⟨rfl, fun _ _ _ => rfl, rfl⟩

theorem Accessed.trans {s t u : State} {A : Space → Nat → Prop} (h : Accessed s t A) (g : Accessed t u A) : Accessed s u A :=
  ⟨g.warps.trans h.warps, fun sp a n => (g.bytes sp a n).trans (h.bytes sp a n), g.rest.trans h.rest⟩

theorem Accessed.mono {s t : State} {A B : Space → Nat → Prop} (h : Accessed s t A) (sub : ∀ sp a, A sp a → B sp a) : Accessed s t B :=
  ⟨h.warps, fun sp a n => h.bytes sp a (fun m => n (sub sp a m)), h.rest⟩

theorem Warp.bare_unlatched (w : Warp) : w.unlatched.bare = w.bare := by
  simp only [Warp.bare, Warp.unlatched, List.map_map, Function.comp_def, Record.bare_bare]

theorem Written.accessed {s t : State} {A : Space → Nat → Prop} (h : Written s t A) : Accessed s t A := by
  refine ⟨?_, h.bytes.onDie, h.rest⟩
  have e (x : State) : x.warps.map Warp.bare = (x.warps.map Warp.unlatched).map Warp.bare := by
    rw [List.map_map]
    exact List.map_congr_left (fun w _ => w.bare_unlatched.symm)
  rw [e, h.warps, ← e]

/-- A change of what is not bare of a warp. -/
theorem State.accessed_modWarp (s : State) (wid : Nat) (f : Warp → Warp) (h : ∀ w, (f w).bare = w.bare) (A : Space → Nat → Prop) :
    Accessed s (s.modWarp wid f) A := ⟨s.map_modWarp wid f Warp.bare h, fun sp _ _ => by cases sp <;> rfl, rfl⟩

/-- A warp's record is there after accesses. -/
theorem Accessed.record {s t : State} {A : Space → Nat → Prop} (h : Accessed s t A) {wid seq : Nat} {w : Warp} {r : Record}
    (hw : s.warp? wid = some w) (hr : w.record? seq = some r) :
    ∃ x y, t.warp? wid = some x ∧ x.bare = w.bare ∧ x.record? seq = some y ∧ y.bare = r.bare := by
  have found := State.warp?_map_of_warps Warp.bare (fun _ => rfl) h.warps wid
  rw [hw, Option.map_some, Option.map_eq_some_iff] at found
  obtain ⟨x, hx, same⟩ := found
  have recs := x.record?_bare seq
  rw [same, Warp.record?_bare, hr, Option.map_some] at recs
  obtain ⟨y, hy, e⟩ := Option.map_eq_some_iff.mp recs.symm
  exact ⟨x, y, hx, same, hy, e⟩

theorem State.ReadyWith.accessed {s t : State} {A : Space → Nat → Prop} {wid seq : Nat} {rs : List RegWrite}
    (g : s.ReadyWith wid seq rs) (h : Accessed s t A) : t.ReadyWith wid seq rs := by
  obtain ⟨w, r, hw, hr, state, results⟩ := g
  obtain ⟨x, y, hx, -, hy, e⟩ := h.record hw hr
  refine ⟨x, y, hx, hy, ?_, ?_⟩
  · rw [← y.state_bare, e, r.state_bare, state]
  · rw [← y.results_bare, e, r.results_bare, results]

/-- A record that becomes ready changes no byte but its own. -/
theorem State.byteAt_ready {s : State} {wid seq : Nat} {w : Warp} {r : Record} (hw : s.warp? wid = some w)
    (hr : w.record? seq = some r) (ws : List RegWrite) (sp : Space) (a : Nat) (out : ¬ (sp = .spad w.die ∧ r.bytesAt w a)) :
    (s.ready wid seq ws).byteAt sp a = s.byteAt sp a := by
  let f (q : Record) : Record := q.readied (s.die w.die).clkr ws
  have found : (s.modRecord wid seq f).warp? wid = some (w.modRecords seq f) := by simp [State.warp?_modRecord, hw]
  have here : (w.modRecords seq f).record? seq = some (f r) := by simp [w.record?_modRecords seq seq f (fun _ => rfl), hr]
  have keep (x : State) (e : x.dies = s.dies) (b : x.blocks = s.blocks) : x.byteAt sp a = s.byteAt sp a := by
    cases sp <;> simp [State.byteAt, State.spadAt, State.sharedAt, State.weightAt, State.die, State.block?, e, b]
  have run : s.ready wid seq ws = s.updateRecord wid seq f := by
    simp only [State.ready, hw]
    rfl
  simp only [run, State.updateRecord, found, here]
  have apart (b : Nat) (own : b ≤ a → a < b + 64 → r.bytesAt w a) :
      ((s.modRecord wid seq f).spacePut (.spad w.die) b (f r).header).byteAt sp a = s.byteAt sp a := by
    refine (State.byteAt_spacePut_other _ _ _ _ _ _ (fun ⟨g, lo, hi⟩ => out ⟨g, own lo ?_⟩)).trans (keep _ rfl rfl)
    simpa using hi
  split
  · next b n place => exact apart b (fun lo hi => .inl ⟨b, n, place, lo, by omega⟩)
  · next k place => exact apart (w.slotAddr k) (fun lo hi => .inr ⟨k, place, lo, hi⟩)
  · exact keep _ rfl rfl

theorem Warp.bare_fold (w : Warp) (hi lo : Nat) : (w.fold hi lo).bare = w.bare := by
  obtain ⟨dig, folds, e⟩ := w.fold_eq hi lo
  rw [e]
  rfl

theorem Warp.bare_drain (w : Warp) : w.drain.bare = w.bare := by
  unfold Warp.drain
  refine (foldl_keeps _ Warp.bare (fun x f => ?_) w.folds _).trans rfl
  split
  · exact x.bare_fold _ _
  · split <;> rfl

/-- Making an access in its place among a warp's folds touches only what the warp folds, before it and after it (R251). -/
theorem State.foldInPlace_some (s : State) (wid seq : Nat) (g : State → State) :
    ∃ F G : Warp → Warp, (∀ w, (F w).bare = w.bare) ∧ (∀ w, (G w).bare = w.bare) ∧
      s.foldInPlace wid seq (fun s => some (g s)) = some ((g (s.modWarp wid F)).modWarp wid G) := by
  unfold State.foldInPlace
  split
  · next before mark after _ =>
    exact ⟨fun w => { w with folds := before }, fun w => ({ w with folds := w.folds ++ mark :: after } : Warp).drain, fun _ => rfl,
      fun w => Warp.bare_drain _, rfl⟩
  · exact ⟨fun w => w, fun w => w, fun _ => rfl, fun _ => rfl, by rw [State.modWarp_self, State.modWarp_self]⟩

end Sys2Proof.Machine

namespace Sys2Proof.Machine

/-! ## Lanes in groups (R267) -/

section
variable (f : LaneVals → Nat)

/-- One lane more among groups. -/
def grouped (acc : List (Nat × List LaneVals)) (v : LaneVals) : List (Nat × List LaneVals) :=
  if acc.any (fun g => g.1 == f v) then acc.map (fun g => if g.1 == f v then (g.1, g.2 ++ [v]) else g)
  else acc ++ [(f v, [v])]

theorem groupBy_eq (vs : List LaneVals) : groupBy f vs = vs.foldl (grouped f) [] := rfl

/-- Groups of lanes: one for each key that some lane has, with the lanes of that key in order. -/
structure Groups (vs : List LaneVals) (gs : List (Nat × List LaneVals)) : Prop where
  keys : (gs.map (·.1)).Nodup
  lanes : ∀ g ∈ gs, g.2 = vs.filter (fun u => f u == g.1)
  all : ∀ v ∈ vs, ∃ g ∈ gs, g.1 = f v
  some : ∀ g ∈ gs, ∃ v ∈ vs, f v = g.1

theorem Groups.snoc {vs : List LaneVals} {gs : List (Nat × List LaneVals)} (h : Groups f vs gs) (v : LaneVals) :
    Groups f (vs ++ [v]) (grouped f gs v) := by
  unfold grouped
  split
  · next old =>
    obtain ⟨g₀, hg₀, same⟩ := List.any_eq_true.mp old
    rw [beq_iff_eq] at same
    refine ⟨?_, fun g hg => ?_, fun u hu => ?_, fun g hg => ?_⟩
    · have keep : (gs.map (fun g => if g.1 == f v then (g.1, g.2 ++ [v]) else g)).map (·.1) = gs.map (·.1) := by
        rw [List.map_map]
        refine List.map_congr_left (fun g _ => ?_)
        simp only [Function.comp]
        split <;> rfl
      rw [keep]
      exact h.keys
    · obtain ⟨k, hk, rfl⟩ := List.mem_map.mp hg
      by_cases e : k.1 = f v
      · simp [e, h.lanes k hk]
      · simp [e, h.lanes k hk, Ne.symm e]
    · have there : ∃ k ∈ gs, k.1 = f u := by
        rcases List.mem_append.mp hu with hu | hu
        · exact h.all u hu
        · obtain rfl := List.mem_singleton.mp hu
          exact ⟨g₀, hg₀, same⟩
      obtain ⟨k, hk, e⟩ := there
      refine ⟨_, List.mem_map_of_mem hk, ?_⟩
      split <;> exact e
    · obtain ⟨k, hk, rfl⟩ := List.mem_map.mp hg
      obtain ⟨u, hu, e⟩ := h.some k hk
      refine ⟨u, List.mem_append_left _ hu, ?_⟩
      split <;> exact e
  · next new =>
    have fresh : ∀ g ∈ gs, g.1 ≠ f v := fun g hg e => new (List.any_eq_true.mpr ⟨g, hg, by simpa using e⟩)
    have alone : vs.filter (fun u => f u == f v) = [] := by
      rw [List.filter_eq_nil_iff]
      intro u hu e
      obtain ⟨g, hg, k⟩ := h.all u hu
      exact fresh g hg (k.trans (beq_iff_eq.mp e))
    refine ⟨?_, fun g hg => ?_, fun u hu => ?_, fun g hg => ?_⟩
    · rw [List.map_append, List.nodup_append]
      refine ⟨h.keys, by simp, ?_⟩
      simpa using fun a b hab => fresh _ hab
    · rcases List.mem_append.mp hg with hg | hg
      · simp [h.lanes g hg, (fresh g hg).symm]
      · obtain rfl := List.mem_singleton.mp hg
        simp [alone]
    · rcases List.mem_append.mp hu with hu | hu
      · obtain ⟨g, hg, e⟩ := h.all u hu
        exact ⟨g, List.mem_append_left _ hg, e⟩
      · obtain rfl := List.mem_singleton.mp hu
        exact ⟨_, List.mem_append_right _ (List.mem_singleton_self _), rfl⟩
    · rcases List.mem_append.mp hg with hg | hg
      · obtain ⟨u, hu, e⟩ := h.some g hg
        exact ⟨u, List.mem_append_left _ hu, e⟩
      · obtain rfl := List.mem_singleton.mp hg
        exact ⟨v, List.mem_append_right _ (List.mem_singleton_self v), rfl⟩

theorem groups_groupBy (vs : List LaneVals) : Groups f vs (groupBy f vs) := by
  rw [groupBy_eq]
  induction vs using List.reverseRecOn with
  | nil => exact ⟨List.nodup_nil, by simp, by simp, by simp⟩
  | append_singleton vs v ih =>
    rw [List.foldl_append]
    exact ih.snoc f v

end

/-! ## Atomics on groups of lanes (R267) -/

/-- What an atomic does for one group. -/
def atomicStep (i : Instr) (n : Nat) (w : Warp) (t : Try) (g : Nat × List LaneVals) : Try :=
  let shared := atmShared i
  let addr := t.s.spaceAddr w shared g.1
  let r := atomicGroup i (t.s.spaceWord (w.space shared) addr) g.2
  let s1 := t.s.spaceWriteNat (w.space shared) addr 4 r.2.1.toNat (some (w.wid, n))
  let s2 := if !shared && r.2.2 then s1.foldDet w.wid g.1 r.2.1.toNat else s1
  { s := s2
    ws := t.ws ++ (List.range g.2.length).flatMap (fun k =>
      dstWrites ((g.2.map (·.lane)).getD k 0) i.operands.d [r.1.getD k 0]) }

theorem atomicApply_eq (i : Instr) (n : Nat) (s : State) (w : Warp) (vs : List LaneVals) : atomicApply i n s w vs =
    (groupBy (fun v => atmOffset i v.b0) vs).foldl (atomicStep i n w) { s := s } := rfl

/-- The outcome of a group: the old values of its lanes, and the new word. -/
def groupOutcome (i : Instr) (m : Word) (vs : List LaneVals) : List Word × Word :=
  let op := i.operands.mods 0 4
  let oneByOne (g : Word → LaneVals → Word) : List Word × Word := vs.foldl (fun acc u => (acc.1 ++ [acc.2], g acc.2 u)) ([], m)
  if i.opcode = 0x249 then oneByOne (fun y u => if y = u.a0 then u.c0 else y)
  else if op ≤ 10 then combineLanes op m (vs.map (·.a0))
  else oneByOne (fun y u => atmNew op y u.a0)

theorem sequentialLanes_eq (m : Word) (vs : List LaneVals) (f : LaneVals → Word → Word × Bool) (g : Word → LaneVals → Word)
    (h : ∀ v y, (f v y).1 = g y v) : ((sequentialLanes m (vs.map f)).1, (sequentialLanes m (vs.map f)).2.1) =
      vs.foldl (fun acc u => (acc.1 ++ [acc.2], g acc.2 u)) (([] : List Word), m) := by
  have steps (olds : List Word) (m : Word) (b : Bool) : ∃ c, (vs.map f).foldl (fun (acc : List Word × Word × Bool) g =>
      let r := g acc.2.1
      (acc.1 ++ [acc.2.1], r.1, acc.2.2 || r.2)) (olds, m, b) =
        ((vs.foldl (fun acc u => (acc.1 ++ [acc.2], g acc.2 u)) (olds, m)).1,
          (vs.foldl (fun acc u => (acc.1 ++ [acc.2], g acc.2 u)) (olds, m)).2, c) := by
    induction vs generalizing olds m b with
    | nil => exact ⟨b, rfl⟩
    | cons v vs ih =>
      rw [List.map_cons, List.foldl_cons, List.foldl_cons, ← h v m]
      exact ih _ _ _
  obtain ⟨c, e⟩ := steps [] m false
  rw [sequentialLanes, e]

theorem atomicGroup_outcome (i : Instr) (m : Word) (vs : List LaneVals) :
    ((atomicGroup i m vs).1, (atomicGroup i m vs).2.1) = groupOutcome i m vs := by
  unfold atomicGroup groupOutcome
  by_cases cas : i.opcode = 0x249
  · simp only [cas, beq_self_eq_true, if_true]
    refine sequentialLanes_eq m vs _ (fun y u => if y = u.a0 then u.c0 else y) (fun v y => ?_)
    by_cases e : y = v.a0 <;> simp [e]
  · simp only [cas, beq_iff_eq, if_false]
    split
    · rfl
    · exact sequentialLanes_eq m vs _ (fun y u => atmNew (i.operands.mods 0 4) y u.a0) (fun _ _ => rfl)

theorem State.numberAt_congr {s t : State} {sp : Space} {a n : Nat} (h : ∀ x, a ≤ x → x < a + n → t.byteAt sp x = s.byteAt sp x) :
    t.numberAt sp a n = s.numberAt sp a n := by
  refine congrArg bytesToNat (List.map_congr_left (fun j hj => h _ (Nat.le_add_right _ _) ?_))
  have := List.mem_range.mp hj
  omega

/-- A number written is read back, where no save image lies (R437). -/
theorem State.numberAt_spaceWriteNat (s : State) {sp : Space} {a n v : Nat} (k : Option (Nat × Nat)) (hs : s.hasSpace sp)
    (free : s.inImage sp a n = false) (small : v < 256 ^ n) : (s.spaceWriteNat sp a n v k).numberAt sp a n = v := by
  have bytes : (List.range n).map (fun j => (s.spaceWriteNat sp a n v k).byteAt sp (a + j)) = natToBytes n v := by
    refine List.ext_getElem (by simp) (fun j hj hk => ?_)
    have len : j < (natToBytes n v).length := hk
    rw [List.getElem_map, List.getElem_range, State.spaceWriteNat, State.byteAt_spaceWrite s k hs (by rwa [natToBytes_length]) len]
    rw [List.getD_eq_getElem?_getD, List.getElem?_eq_getElem len, Option.getD_some]
  rw [State.numberAt, bytes, bytesToNat_natToBytes, Nat.mod_eq_of_lt small]

section
variable {i : Instr} {n : Nat} {w : Warp} {t : Try} {g : Nat × List LaneVals} (hs : t.s.hasSpace (w.space (atmShared i)))
  (free : t.s.inImage (w.space (atmShared i)) (t.s.spaceAddr w (atmShared i) g.1) 4 = false)

theorem State.accessed_foldDet (s : State) (wid hi lo : Nat) (A : Space → Nat → Prop) : Accessed s (s.foldDet wid hi lo) A := by
  refine s.accessed_modWarp wid _ (fun w => ?_) A
  split
  · exact w.bare_fold hi lo
  · rfl

/-- One group of an atomic accesses its word alone. -/
theorem accessed_atomicStep (i : Instr) (n : Nat) (w : Warp) (t : Try) (g : Nat × List LaneVals) : Accessed t.s (atomicStep i n w t g).s
    (bytesFrom (w.space (atmShared i)) (t.s.spaceAddr w (atmShared i) g.1) 4) := by
  refine (t.s.written_spaceWrite (w.space (atmShared i)) (t.s.spaceAddr w (atmShared i) g.1)
    (natToBytes 4 (atomicGroup i (t.s.spaceWord (w.space (atmShared i)) (t.s.spaceAddr w (atmShared i) g.1)) g.2).2.1.toNat)
    (some (w.wid, n))).accessed.mono (fun sp a h => by rwa [natToBytes_length] at h) |>.trans ?_
  unfold atomicStep
  dsimp only
  split
  · exact State.accessed_foldDet _ _ _ _ _
  · exact Accessed.refl _ _

include hs free in
/-- The word of a group becomes what R267 says. -/
theorem numberAt_atomicStep : (atomicStep i n w t g).s.numberAt (w.space (atmShared i)) (t.s.spaceAddr w (atmShared i) g.1) 4 =
    (groupOutcome i (BitVec.ofNat 32 (t.s.numberAt (w.space (atmShared i)) (t.s.spaceAddr w (atmShared i) g.1) 4)) g.2).2.toNat := by
  rw [← atomicGroup_outcome, ← State.bytesToNat_spaceBytes t.s]
  refine Eq.trans ?_ (t.s.numberAt_spaceWriteNat (some (w.wid, n)) hs free (BitVec.isLt _))
  refine State.numberAt_congr (fun x _ _ => ?_)
  unfold atomicStep
  dsimp only
  split
  · exact (State.accessed_foldDet _ _ _ _ (fun _ _ => False)).bytes _ _ id
  · rfl

/-- A lane of a group takes its old value. -/
theorem mem_atomicStep {v : LaneVals} (hv : v ∈ g.2) {b : Nat} (dst : i.operands.d = .reg b) :
    ({ lane := v.lane, reg := b, val :=
        (groupOutcome i (BitVec.ofNat 32 (t.s.numberAt (w.space (atmShared i)) (t.s.spaceAddr w (atmShared i) g.1) 4)) g.2).1.getD
          (g.2.idxOf v) 0 } : RegWrite) ∈ (atomicStep i n w t g).ws := by
  rw [← atomicGroup_outcome, ← State.bytesToNat_spaceBytes]
  refine List.mem_append_right _ (List.mem_flatMap.mpr ⟨g.2.idxOf v, List.mem_range.mpr (List.idxOf_lt_length_of_mem hv), ?_⟩)
  have lane : (g.2.map (·.lane)).getD (g.2.idxOf v) 0 = v.lane := by
    simp [List.getD_eq_getElem?_getD, List.getElem?_idxOf hv]
  rw [lane, dst]
  exact mem_dstWrites (k := 0) (by simp)

end

end Sys2Proof.Machine

namespace Sys2Proof.Machine

/-! ## Chained requests (R248, R249) -/

/-- The word of a group before an atomic. -/
def State.groupWord (s : State) (i : Instr) (w : Warp) (o : Nat) : Word :=
  BitVec.ofNat 32 (s.numberAt (w.space (atmShared i)) (s.spaceAddr w (atmShared i) o) 4)

theorem Accessed.spaceAddr {s t : State} {A : Space → Nat → Prop} (h : Accessed s t A) (w : Warp) (sh : Bool) (o : Nat) :
    t.spaceAddr w sh o = s.spaceAddr w sh o := (congrArg (fun x => x.spaceAddr w sh o) h.rest :)

/-- Words at different aligned offsets share no byte. -/
theorem State.words_apart (s : State) (w : Warp) (sh : Bool) {o k x : Nat} (ho : o % 4 = 0) (hk : k % 4 = 0) (other : o ≠ k)
    (lo : s.spaceAddr w sh o ≤ x) (hi : x < s.spaceAddr w sh o + 4) : ¬ (s.spaceAddr w sh k ≤ x ∧ x < s.spaceAddr w sh k + 4) := by
  unfold State.spaceAddr at *
  cases sh <;> simp only [Bool.false_eq_true, if_false, if_true] at * <;> omega

/-- Groups of an atomic have been made: their words hold what R267 says, and the lanes have their old values. -/
structure AtomicMade (i : Instr) (w : Warp) (s : State) (u : Try) (gs : List (Nat × List LaneVals)) : Prop where
  accessed : Accessed s u.s (fun q a => ∃ g ∈ gs, bytesFrom (w.space (atmShared i)) (s.spaceAddr w (atmShared i) g.1) 4 q a)
  word : ∀ g ∈ gs, u.s.numberAt (w.space (atmShared i)) (s.spaceAddr w (atmShared i) g.1) 4 =
    (groupOutcome i (s.groupWord i w g.1) g.2).2.toNat
  olds : ∀ g ∈ gs, ∀ v ∈ g.2, ∀ b, i.operands.d = .reg b →
    ({ lane := v.lane, reg := b, val := (groupOutcome i (s.groupWord i w g.1) g.2).1.getD (g.2.idxOf v) 0 } : RegWrite) ∈ u.ws

theorem atomicStep_ws (i : Instr) (n : Nat) (w : Warp) (t : Try) (g : Nat × List LaneVals) :
    ∀ x ∈ t.ws, x ∈ (atomicStep i n w t g).ws := fun _ hx => List.mem_append_left _ hx

theorem atomicFold_ws (i : Instr) (n : Nat) (w : Warp) (gs : List (Nat × List LaneVals)) (t : Try) :
    ∀ x ∈ t.ws, x ∈ (gs.foldl (atomicStep i n w) t).ws := by
  induction gs generalizing t with
  | nil => exact fun _ hx => hx
  | cons g gs ih => exact fun x hx => ih _ x (atomicStep_ws i n w t g x hx)

theorem atomicMade_fold (i : Instr) (n : Nat) (w : Warp) (gs : List (Nat × List LaneVals)) (t : Try)
    (hs : t.s.hasSpace (w.space (atmShared i))) (keys : (gs.map (·.1)).Nodup) (aligned : ∀ g ∈ gs, g.1 % 4 = 0)
    (free : ∀ g ∈ gs, t.s.inImage (w.space (atmShared i)) (t.s.spaceAddr w (atmShared i) g.1) 4 = false) :
    AtomicMade i w t.s (gs.foldl (atomicStep i n w) t) gs := by
  induction gs generalizing t with
  | nil => exact ⟨Accessed.refl _ _, by simp, by simp⟩
  | cons g gs ih =>
    rw [List.map_cons, List.nodup_cons] at keys
    obtain ⟨new, keys⟩ := keys
    rw [List.forall_mem_cons] at aligned free
    have first := accessed_atomicStep i n w t g
    have addr (o : Nat) := first.spaceAddr w (atmShared i) o
    have rest := ih (atomicStep i n w t g) (State.hasSpace_of_bare first.rest hs) keys aligned.2
      (fun k hk => by rw [addr, State.inImage_of_bare first.rest]; exact free.2 k hk)
    have other (k : Nat × List LaneVals) (hk : k ∈ gs) : g.1 ≠ k.1 := fun e => new (e ▸ List.mem_map_of_mem hk)
    have before (k : Nat × List LaneVals) (hk : k ∈ gs) :
        (atomicStep i n w t g).s.groupWord i w k.1 = t.s.groupWord i w k.1 := by
      refine congrArg (BitVec.ofNat 32) ?_
      rw [addr]
      exact State.numberAt_congr (fun x lo hi => first.bytes _ x (fun ⟨_, h⟩ =>
        t.s.words_apart w _ (aligned.2 k hk) aligned.1 (other k hk).symm lo hi h))
    refine ⟨?_, fun k hk => ?_, fun k hk => ?_⟩
    · refine (first.mono fun q a h => ⟨g, List.mem_cons_self, h⟩).trans (rest.accessed.mono fun q a ⟨k, hk, h⟩ => ?_)
      exact ⟨k, List.mem_cons_of_mem _ hk, by rwa [addr] at h⟩
    · rcases List.mem_cons.mp hk with rfl | hk
      · refine Eq.trans (State.numberAt_congr (fun x lo hi => rest.accessed.bytes _ x (fun ⟨j, hj, _, h⟩ => ?_)))
          (numberAt_atomicStep hs free.1)
        rw [addr] at h
        exact t.s.words_apart w _ aligned.1 (aligned.2 j hj) (other j hj) lo hi h
      · rw [← before k hk, ← rest.word k hk, addr]
        rfl
    · rcases List.mem_cons.mp hk with rfl | hk
      · exact fun v hv b dst => atomicFold_ws i n w gs _ _ (mem_atomicStep hv dst)
      · rw [← before k hk]
        exact rest.olds k hk

/-- The lanes whose request reaches the same word. -/
def sameWord (i : Instr) (vs : List LaneVals) (v : LaneVals) : List LaneVals :=
  vs.filter (fun u => atmOffset i u.b0 == atmOffset i v.b0)

section
variable {s : State} {w : Warp} {i : Instr} {vs : List LaneVals} (hs : s.hasSpace (w.space (atmShared i)))
  (aligned : ∀ v ∈ vs, atmOffset i v.b0 % 4 = 0)
  (free : ∀ v ∈ vs, s.inImage (w.space (atmShared i)) (s.spaceAddr w (atmShared i) (atmOffset i v.b0)) 4 = false)
include hs aligned free

/-- What an atomic does for each of its lanes (R267). -/
theorem atomicApply_made (n : Nat) :
    Accessed s (atomicApply i n s w vs).s
      (fun q a => ∃ v ∈ vs, bytesFrom (w.space (atmShared i)) (s.spaceAddr w (atmShared i) (atmOffset i v.b0)) 4 q a) ∧
    ∀ v ∈ vs, (atomicApply i n s w vs).s.numberAt (w.space (atmShared i)) (s.spaceAddr w (atmShared i) (atmOffset i v.b0)) 4 =
        (groupOutcome i (s.groupWord i w (atmOffset i v.b0)) (sameWord i vs v)).2.toNat ∧
      ∀ b, i.operands.d = .reg b → ({ lane := v.lane, reg := b, val :=
        (groupOutcome i (s.groupWord i w (atmOffset i v.b0)) (sameWord i vs v)).1.getD ((sameWord i vs v).idxOf v) 0 } : RegWrite) ∈
          (atomicApply i n s w vs).ws := by
  have groups := groups_groupBy (fun v => atmOffset i v.b0) vs
  have made := atomicMade_fold i n w _ { s := s } hs groups.keys
    (fun g hg => by obtain ⟨v, hv, e⟩ := groups.some g hg; exact e ▸ aligned v hv)
    (fun g hg => by obtain ⟨v, hv, e⟩ := groups.some g hg; exact e ▸ free v hv)
  rw [← atomicApply_eq] at made
  refine ⟨made.accessed.mono fun q a ⟨g, hg, h⟩ => ?_, fun v hv => ?_⟩
  · obtain ⟨v, hv, e⟩ := groups.some g hg
    exact ⟨v, hv, e ▸ h⟩
  · obtain ⟨g, hg, e⟩ := groups.all v hv
    have lanes : g.2 = sameWord i vs v := by rw [groups.lanes g hg, e]; rfl
    have word := made.word g hg
    have olds := made.olds g hg v (by rw [lanes]; exact List.mem_filter.mpr ⟨hv, beq_self_eq_true _⟩)
    rw [lanes, e] at word olds
    exact ⟨word, olds⟩

end

end Sys2Proof.Machine

namespace Sys2Proof.Machine

theorem Record.bytesAt_of_bare {q r : Record} {x w : Warp} (hr : q.bare = r.bare) (hw : x.bare = w.bare) (a : Nat) :
    q.bytesAt x a = r.bytesAt w a := by
  have place : r.bytesAt x a = r.bytesAt w a := (congrArg (fun u => r.bytesAt u a) hw :)
  rw [← q.bytesAt_bare, hr, r.bytesAt_bare, place]

/-- The words that a record's atomic reaches are aligned, in no save image and not the record's own. -/
def Record.WordsFree (r : Record) (s : State) (w : Warp) (i : Instr) : Prop :=
  ∀ v ∈ r.vals, atmOffset i v.b0 % 4 = 0 ∧
    s.inImage (w.space (atmShared i)) (s.spaceAddr w (atmShared i) (atmOffset i v.b0)) 4 = false ∧
    ∀ x, s.spaceAddr w (atmShared i) (atmOffset i v.b0) ≤ x → x < s.spaceAddr w (atmShared i) (atmOffset i v.b0) + 4 →
      w.space (atmShared i) = .spad w.die → ¬ r.bytesAt w x

/-- The words and the record's results after its atomic on words as a state has them (R267). -/
def Record.AtomicDone (r : Record) (s : State) (wid seq : Nat) (w : Warp) (i : Instr) (t : State) : Prop :=
  (∀ v ∈ r.vals, t.numberAt (w.space (atmShared i)) (s.spaceAddr w (atmShared i) (atmOffset i v.b0)) 4 =
    (groupOutcome i (s.groupWord i w (atmOffset i v.b0)) (sameWord i r.vals v)).2.toNat) ∧
  ∃ rs, t.ReadyWith wid seq rs ∧ ∀ v ∈ r.vals, ∀ b, i.operands.d = .reg b →
    ({ lane := v.lane, reg := b, val :=
      (groupOutcome i (s.groupWord i w (atmOffset i v.b0)) (sameWord i r.vals v)).1.getD ((sameWord i r.vals v).idxOf v) 0 } : RegWrite) ∈ rs

theorem Record.AtomicDone.accessed {r : Record} {s : State} {wid seq : Nat} {w : Warp} {i : Instr} {t u : State}
    (h : r.AtomicDone s wid seq w i t) (e : Accessed t u (fun _ _ => False)) : r.AtomicDone s wid seq w i u := by
  obtain ⟨word, rs, ready, olds⟩ := h
  exact ⟨fun v hv => (State.numberAt_congr (fun x _ _ => e.bytes _ x id)).trans (word v hv), rs, ready.accessed e, olds⟩

section
variable {s : State} {wid seq : Nat} {w : Warp} {r : Record} {i : Instr}

/-- A chained atomic is made and its record is ready with the old words (R249). -/
theorem atomicApply_ready {u : Warp} {q : Record} (hu : s.warp? wid = some u) (hq : u.record? seq = some q)
    (sameWarp : u.bare = w.bare) (sameRecord : q.bare = r.bare) (hs : s.hasSpace (w.space (atmShared i))) (words : r.WordsFree s w i)
    (n : Nat) : r.AtomicDone s wid seq w i
      ((atomicApply i n s w r.vals).s.ready wid seq (atomicApply i n s w r.vals).ws) := by
  obtain ⟨kept, made⟩ := atomicApply_made hs (fun v hv => (words v hv).1) (fun v hv => (words v hv).2.1) n
  obtain ⟨x, y, hx, hxu, hy, hyq⟩ := kept.record hu hq
  refine ⟨fun v hv => (State.numberAt_congr (fun a lo hi => State.byteAt_ready hx hy _ _ a ?_)).trans (made v hv).1,
    _, State.readyWith_ready hx hy _, fun v hv b dst => List.mem_append_right _ ((made v hv).2 b dst)⟩
  rintro ⟨sp, own⟩
  rw [Record.bytesAt_of_bare (hyq.trans sameRecord) (hxu.trans sameWarp)] at own
  have die : x.die = w.die := (congrArg Warp.die (hxu.trans sameWarp) :)
  exact (words v hv).2.2 a lo hi (die ▸ sp) own

/-- A chained request whose turn has come is applied (R248, R249, R267). -/
theorem detRequest_applied (hw : s.warp? wid = some w) (hr : w.record? seq = some r) (hs : s.hasSpace (w.space (atmShared i)))
    (words : r.WordsFree s w i) {pc idx k : Nat} (served : s.serves w = true) (waits : r.state = .waiting) (old : r.old = {})
    (wait : r.wait = .det pc idx k) (instr : r.instr = some i) (turn : s.requestTurn w pc idx k = true)
    (unowned : s.blockers w (atmShared i) 4 (r.vals.map (fun v => atmOffset i v.b0)) = []) :
    ∃ t, exec (.detRequestApply wid seq) s = .next t ∧ r.AtomicDone s wid seq w i t := by
  let g (s : State) : State := (atomicApply i (w.made + 1) s w r.vals).s.ready wid seq (atomicApply i (w.made + 1) s w r.vals).ws
  obtain ⟨F, G, hF, hG, run⟩ := s.foldInPlace_some wid seq g
  have applied : s.applyRequest i wid seq pc idx k w r = (g (s.modWarp wid F)).modWarp wid G := by
    simp only [State.applyRequest, served, waits, turn, unowned]
    exact congrArg (Option.getD · s) run
  obtain ⟨u, q, hu, sameWarp, hq, sameRecord⟩ := (s.accessed_modWarp wid F hF (fun _ _ => False)).record hw hr
  have done : r.AtomicDone (s.modWarp wid F) wid seq w i (g (s.modWarp wid F)) :=
    atomicApply_ready hu hq sameWarp sameRecord hs words _
  have word (o : Nat) : (s.modWarp wid F).groupWord i w o = s.groupWord i w o :=
    congrArg (BitVec.ofNat 32) (State.numberAt_congr (fun x _ _ => (s.accessed_modWarp wid F hF (fun _ _ => False)).bytes _ x id))
  refine ⟨_, exec_detRequestApply hw hr wait instr, ?_⟩
  rw [old, State.under_none, applied]
  have here : r.AtomicDone s wid seq w i (g (s.modWarp wid F)) := by
    simp only [Record.AtomicDone, word] at done
    exact done
  exact here.accessed (State.accessed_modWarp _ wid G hG _)

end

end Sys2Proof.Machine

namespace Sys2Proof.Machine

/-! ## Reads of the graphics units that complete -/

theorem State.holdEntry_warps (s : State) (ctx va : Nat) : (s.holdEntry ctx va).warps = s.warps := by
  unfold State.holdEntry
  split
  · rfl
  · split
    · rfl
    · split <;> rfl

theorem State.holdLines_warps (s : State) (w : Warp) (ls : List Nat) : (s.holdLines w ls).warps = s.warps := by
  have held := foldl_keeps (fun s p => s.holdEntry w.ctx (p * 2 ^ 16)) State.warps (fun t p => t.holdEntry_warps _ _)
    ((ls.map (· / 512)).eraseDups) s
  unfold State.holdLines
  dsimp only
  split
  · exact held
  · exact held

/-- A lane's sample on its captured operands. -/
def State.sampleOf (s : State) (w : Warp) (c : Context) (v : LaneVals) : Sampled :=
  s.sampleTexture w c (s.texDesc w v.b0.toNat) (s.peerBase + 64 * v.lane) (v.a.getD 0 0).toNat (v.a.getD 1 0).toNat (v.a.getD 2 0).toNat

/-- What a sample writes in its lane. -/
def sampledWrites (l : Nat) (d : Operand) (x : Sampled) : List RegWrite :=
  match x with
  | .ok ws _ => dstWrites l d (ws.map (BitVec.ofNat 32))
  | _ => []

section
variable {s : State} {wid seq : Nat} {w : Warp} {r : Record} (hw : s.warp? wid = some w) (hr : w.record? seq = some r)
include hw hr

/-- A record whose lanes have all answered without a fault is ready. -/
theorem State.finishLanes_ready (some : r.lanes ≠ []) {rs : List LaneRead} (fine : ∀ x ∈ rs, x.trap = none) (n : Nat) :
    ((s.takeFresh n).2.finishLanes w r rs).ReadyWith wid seq (r.results ++ rs.flatMap (·.ws)) := by
  have num : w.wid = wid := State.find_wid hw
  have seqIs : r.seq = seq := by simpa using List.find?_some hr
  have traps : rs.filterMap (·.trap) = [] := List.filterMap_eq_nil_iff.mpr fine
  have lanes : r.lanes.all (fun _ => false) = false := by
    cases h : r.lanes with
    | nil => exact absurd h some
    | cons => rfl
  simp only [State.finishLanes, traps, List.isEmpty_nil, Bool.not_true, Bool.false_and, Bool.false_eq_true, if_false, if_true, List.any_nil,
    lanes, num, seqIs]
  exact State.readyWith_ready (by rwa [State.warp?, State.holdLines_warps]) hr _

theorem State.withRecord_waiting (served : s.serves w = true) (waits : r.state = .waiting) (old : r.old = {})
    (f : State → Warp → Record → State) : s.withRecord wid seq f = f s w r := by
  rw [State.withRecord_eq hw hr, served, waits, old, State.under_none]
  rfl

/-- A traversal step that meets no fault and no owned line (R383, R385). -/
theorem State.traversalComplete_ready {i : Instr} (instr : r.instr = some i) (wait : r.wait = .traversal) (some : r.lanes ≠ [])
    (fine : ∀ v ∈ r.vals, (s.travLane w i (s.peerBase + 2 ^ 16 * v.lane) v).trap = none ∧
      (s.travLane w i (s.peerBase + 2 ^ 16 * v.lane) v).waits = false) :
    (s.traversalComplete w r).ReadyWith wid seq
      (r.results ++ r.vals.flatMap (fun v => (s.travLane w i (s.peerBase + 2 ^ 16 * v.lane) v).ws)) := by
  let rs := r.vals.map (fun v => s.travLane w i (s.peerBase + 2 ^ 16 * v.lane) v)
  have ready := State.finishLanes_ready hw hr some (rs := rs) (by simpa [rs] using fun v hv => (fine v hv).1) (2 ^ 21)
  rw [List.flatMap_map] at ready
  have free : (r.vals.map (fun v => s.travLane w i (s.peerBase + 2 ^ 16 * v.lane) v)).any (·.waits) = false := by
    rw [List.any_map, List.any_eq_false]
    intro v hv
    rw [Function.comp, (fine v hv).2]
    exact Bool.false_ne_true
  simp only [State.traversalComplete, wait, instr, free, Bool.false_eq_true, if_false]
  have back (t : State) (ws : List RegWrite) : Accessed t (t.writeRegs w.wid ws) (fun _ _ => False) :=
    t.accessed_modWarp w.wid (·.writeRegs ws) (fun u => (congrArg Warp.bare (u.writeRegs_rest ws).1 :)) _
  split
  · exact ready
  · exact ready.accessed (back _ _)

/-- Texture samples that meet no fault and no owned line (R390). -/
theorem State.textureComplete_ready {i : Instr} {c : Context} (hc : s.ctx? w.ctx = some c) (instr : r.instr = some i)
    (wait : r.wait = .texture) (some : r.lanes ≠ []) (fine : ∀ v ∈ r.vals, s.ownedLines w false v.b0.toNat 32 = [] ∧
      ∃ ws ps, s.sampleOf w c v = .ok ws ps) :
    (s.textureComplete w r).ReadyWith wid seq
      (r.results ++ r.vals.flatMap (fun v => sampledWrites v.lane i.operands.d (s.sampleOf w c v))) := by
  have lane (v : LaneVals) (hv : v ∈ r.vals) : ∃ ps, s.texLane w i (s.peerBase + 64 * v.lane) v =
      { ws := sampledWrites v.lane i.operands.d (s.sampleOf w c v), lines := ps } := by
    obtain ⟨unowned, ws, ps, e⟩ := fine v hv
    refine ⟨ps, ?_⟩
    rw [e]
    rw [State.sampleOf] at e
    simp only [State.texLane, hc, unowned, e]
    rfl
  have free : (r.vals.map (fun v => s.texLane w i (s.peerBase + 64 * v.lane) v)).any (·.waits) = false := by
    rw [List.any_map, List.any_eq_false]
    intro v hv
    obtain ⟨ps, e⟩ := lane v hv
    simp [e]
  have ready := State.finishLanes_ready hw hr some (rs := r.vals.map (fun v => s.texLane w i (s.peerBase + 64 * v.lane) v))
    (fun x hx => by
      obtain ⟨v, hv, rfl⟩ := List.mem_map.mp hx
      obtain ⟨ps, e⟩ := lane v hv
      rw [e]) (2 ^ 11)
  have words : (r.vals.map (fun v => s.texLane w i (s.peerBase + 64 * v.lane) v)).flatMap (·.ws) =
      r.vals.flatMap (fun v => sampledWrites v.lane i.operands.d (s.sampleOf w c v)) := by
    rw [List.flatMap_map]
    refine congrArg List.flatten (List.map_congr_left fun v hv => ?_)
    obtain ⟨ps, e⟩ := lane v hv
    rw [e]
  rw [words] at ready
  simp only [State.textureComplete, wait, instr, free]
  exact ready

/-- A gather whose ring no engine owns a line of (R366). -/
theorem State.gatherComplete_ready {i : Instr} {v : LaneVals} {vs : List LaneVals} (instr : r.instr = some i) (wait : r.wait = .gather)
    (vals : r.vals = v :: vs) (free : s.gatherWaits w.die v.b0.toNat w.supervisor = false) :
    (s.gatherComplete w r).ReadyWith wid seq
      (r.results ++ gatherWrites i.operands r.lanes (s.gatherRecords w.die v.b0.toNat v.a0.toNat w.supervisor)) := by
  have num : w.wid = wid := State.find_wid hw
  have seqIs : r.seq = seq := by simpa using List.find?_some hr
  simp only [State.gatherComplete, wait, instr, vals, free, num, seqIs]
  exact State.readyWith_ready hw hr _

end

/-- Word j of part k of blocks of 4 words each. -/
theorem getD_blocks {α : Type} (f : Nat → List α) (d : α) {n k j : Nat} (len : ∀ k, (f k).length = 4) (hk : k < n) (hj : j < 4) :
    ((List.range n).flatMap f).getD (4 * k + j) d = (f k).getD j d := by
  induction n with
  | zero => omega
  | succ n ih =>
    have size : ((List.range n).flatMap f).length = 4 * n := by
      rw [length_flatMap_const _ _ 4 (fun _ _ => len _), List.length_range, Nat.mul_comm]
    rw [List.range_succ, List.flatMap_append]
    by_cases e : k < n
    · rw [List.getD_append _ _ _ _ (by omega), ih e]
    · obtain rfl : k = n := by omega
      rw [List.getD_append_right _ _ _ _ (by omega), size, Nat.add_sub_cancel_left]
      simp

/-- What a gather writes in a lane (R366). -/
theorem mem_gatherWrites {o : Operands} {ls : List Nat} {recs : List (List Byte)} {l b : Nat} (hl : l ∈ ls) (dst : o.d = .reg b) :
    let n := if o.modBit 0 then 64 else 32
    ({ lane := l, reg := b + n / 8, val := BitVec.ofNat 32 (recs.take n).length } : RegWrite) ∈ gatherWrites o ls recs ∧
    ∀ k < n / 32, ∀ j < 4, ({ lane := l, reg := b + 4 * k + j
                              val := BitVec.ofNat 32 (fieldOf ((recs.take n).getD (32 * k + l) []) (4 * j) 4) } : RegWrite) ∈
      gatherWrites o ls recs := by
  intro n
  let block (k : Nat) : List Word := (List.range 4).map (fun w => BitVec.ofNat 32 (fieldOf ((recs.take n).getD (32 * k + l) []) (4 * w) 4))
  let words := (List.range (n / 32)).flatMap block ++ [BitVec.ofNat 32 (recs.take n).length]
  have size : ((List.range (n / 32)).flatMap block).length = 4 * (n / 32) := by
    rw [length_flatMap_const _ _ 4 (fun _ _ => by simp [block]), List.length_range, Nat.mul_comm]
  have total : 4 * (n / 32) = n / 8 := by
    simp only [n]
    split <;> rfl
  have written (k : Nat) (hk : k < words.length) {x : Word} (hx : words.getD k 0 = x) :
      ({ lane := l, reg := b + k, val := x } : RegWrite) ∈ gatherWrites o ls recs := by
    refine List.mem_flatMap.mpr ⟨l, hl, ?_⟩
    rw [dst, ← hx]
    exact mem_dstWrites hk
  refine ⟨?_, fun k hk j hj => ?_⟩
  · rw [← total]
    refine written _ (by simp [words, size]) ?_
    rw [List.getD_append_right _ _ _ _ size.le, size, Nat.sub_self]
    rfl
  · rw [Nat.add_assoc]
    have inside : 4 * k + j < ((List.range (n / 32)).flatMap block).length := by omega
    refine written _ (by rw [List.length_append]; omega) ?_
    rw [List.getD_append _ _ _ _ inside, getD_blocks block 0 (fun _ => by simp [block]) hk hj]
    simp [block, List.getD_eq_getElem?_getD, hj]

end Sys2Proof.Machine

namespace Sys2Proof.Machine

/-! ## The events of a record -/

/-- The status and the word of a wait stand among its writes (R271). -/
theorem mem_waitWrites {o : Operands} {vs : List LaneVals} {y : LaneVals} (hy : y ∈ vs) {b : Nat} (dst : o.d = .reg b) (st : Nat) (x : Word) :
    ({ lane := y.lane, reg := b, val := BitVec.ofNat 32 st } : RegWrite) ∈ waitWrites o vs st x ∧
      ({ lane := y.lane, reg := b + 1, val := x } : RegWrite) ∈ waitWrites o vs st x := by
  have mem {z : RegWrite} (hz : z ∈ dstWrites y.lane (.reg b) [BitVec.ofNat 32 st, x]) : z ∈ waitWrites o vs st x :=
    List.mem_flatMap.mpr ⟨y, hy, by rwa [dst]⟩
  exact ⟨mem (mem_dstWrites (k := 0) (by simp)), mem (mem_dstWrites (k := 1) (by simp))⟩

/-- Settles O43: `State.timeOut_status` and `State.timeOut_word` for the timeout, `recordResume_resumes` for the resumption,
`detRequest_applied` for chained requests, the `_ready` lemmas for the graphics units, and `record_events_under` for records
issued under old registers. -/
theorem recordEventResults : Obligations.RecordEventResults := by
  unfold Obligations.RecordEventResults
  intro ready status
  have became {t : State} {wid seq : Nat} {rs : List RegWrite} {p : List RegWrite → Prop} (h : t.ReadyWith wid seq rs) (hp : p rs) :
      ready t wid seq p := by
    obtain ⟨x, y, hx, hy, state, rfl⟩ := h
    exact ⟨x, y, hx, hy, state, hp⟩
  clear_value ready
  refine ⟨fun s wid seq w r hw served hr waits old finite timed late => ?_, fun s wid w r hw full run way once first hr names lanes single saves =>
    recordResume_resumes hw full run way once first hr names lanes single saves, fun s wid seq once => ?_,
    fun s wid seq w r i pc idx k hw served hr waits old wait instr turn _ unowned => ?_,
    fun s wid seq w r i hw served hr waits old instr => ?_,
    fun s wid seq w r i c hw served hr waits old instr hc => ?_,
    fun s wid seq w r i v vs b hw served hr waits old instr wait vals dst free => ?_,
    fun s wid seq w r c u hw hr hc single e he h => record_events_under hw hr hc single e he h⟩
  · have run : exec (.waitTimeout wid seq) s = .next (s.timeOut w r) := by
      rw [exec_waitTimeout hw hr, State.timedOut_of served waits finite timed late, old, State.under_none]
      rfl
    refine ⟨fun other => ⟨_, run, became (State.timeOut_status hw hr other) fun names l hl => ?_⟩,
      fun sh a c v x i b wait instr dst => ⟨_, run, became (State.timeOut_word hw hr wait instr) fun y hy => ?_⟩⟩
    · exact List.mem_append_right _ (r.mem_statusWrites names hl)
    · obtain ⟨one, word⟩ := mem_waitWrites hy dst 1 ((x.map (·.before)).getD (BitVec.ofNat 32 (s.numberAt (w.space sh) a 4)))
      exact ⟨List.mem_append_right _ one, List.mem_append_right _ word⟩
  · change execRecordResume wid seq s = _
    simp only [execRecordResume, once]
    split <;> rfl
  · intro sp addr same outcome words hs
    obtain ⟨t, run, word, rs, done, olds⟩ := detRequest_applied hw hr hs words served waits old wait instr turn unowned
    exact ⟨t, run, word, became done olds⟩
  · intro lane wait some fine
    exact ⟨_, congrArg Host.Outcome.next (State.withRecord_waiting hw hr served waits old _),
      became (State.traversalComplete_ready hw hr instr wait some fine) rfl⟩
  · intro out wait some fine
    exact ⟨_, congrArg Host.Outcome.next (State.withRecord_waiting hw hr served waits old _),
      became (State.textureComplete_ready hw hr hc instr wait some fine) rfl⟩
  · refine ⟨_, congrArg Host.Outcome.next (State.withRecord_waiting hw hr served waits old _),
      became (State.gatherComplete_ready hw hr instr wait vals free) fun l hl => ?_⟩
    obtain ⟨count, recs⟩ := mem_gatherWrites (recs := s.gatherRecords w.die v.b0.toNat v.a0.toNat w.supervisor) hl dst
    exact ⟨List.mem_append_right _ count, fun k hk j hj => List.mem_append_right _ (recs k hk j hj)⟩

end Sys2Proof.Machine

namespace Sys2Proof.Machine

/-! ## Engine operations and the lines that they own -/

theorem State.op?_modOp (s : State) (k v : Nat) (f : EngineOp → EngineOp) (hf : ∀ o, (f o).oid = o.oid) :
    (s.modOp k f).op? v = (s.op? v).map (fun o => if v = k then f o else o) :=
  find_map_if EngineOp.oid s.ops v k f hf

/-- An operation found where a projection of the operations is known. -/
theorem State.op?_of_map {β : Type} {s t : State} (g : EngineOp → β) (key : β → Nat) (hg : ∀ o, key (g o) = o.oid)
    (h : t.ops.map g = s.ops.map g) (v : Nat) : (t.op? v).map g = (s.op? v).map g := by
  have e (u : State) : (u.op? v).map g = (u.ops.map g).find? (fun x => key x == v) := by
    rw [List.find?_map, State.op?]
    refine congrArg (Option.map g) (congrArg (List.find? · u.ops) (funext fun o => ?_))
    simp [hg]
  rw [e, e, h]

theorem State.op_oid {s : State} {oid : Nat} {o : EngineOp} (h : s.op? oid = some o) : o.oid = oid := by
  simpa using List.find?_some h

theorem State.liveCopy_eq_some {s : State} {oid : Nat} {o : EngineOp} {c : CopyOp} : s.liveCopy oid = some (o, c) ↔
    s.op? oid = some o ∧ o.kind = .copy c ∧ o.complete = false ∧ o.fault = none := by
  unfold State.liveCopy
  constructor
  · intro h
    split at h
    · next p hp =>
      split at h
      · next d kind =>
        split at h
        · cases h
        · next going =>
          cases h
          rw [Bool.or_eq_true, not_or, Bool.not_eq_true, Option.isSome_iff_ne_none, not_not] at going
          exact ⟨hp, kind, going⟩
      · cases h
    · cases h
  · rintro ⟨ho, kind, live, fine⟩
    simp [ho, kind, live, fine]

/-- An operation that keeps no old registers keeps no entries. -/
theorem State.keepEntries_none {s : State} {o : EngineOp} (old : o.old = {}) : s.keepEntries o = s := by
  simp only [State.keepEntries, old]

theorem State.opEvent_now {s : State} {oid : Nat} {o : EngineOp} (ho : s.op? oid = some o) (old : o.old = {})
    (f : State → EngineOp → State) : s.opEvent oid f = f s o := by
  simp only [State.opEvent, ho, old, State.under_none, State.keepEntries_none old]

theorem State.copyEvent_now {s : State} {oid : Nat} {o : EngineOp} {c : CopyOp} (live : s.liveCopy oid = some (o, c)) (old : o.old = {})
    (f : State → EngineOp → CopyOp → State) : s.copyEvent oid f = f s o c := by
  rw [State.copyEvent, State.opEvent_now (State.liveCopy_eq_some.mp live).1 old, live]

end Sys2Proof.Machine

namespace Sys2Proof.Machine

/-! ## Lines given up and asked for (R236) -/

theorem State.mem_of_owns {s : State} {o : Owner} {k : LineKey} (h : s.owns o k = true) :
    ∃ x ∈ s.owned, x.line = k ∧ o ∈ x.owners := by
  rw [State.owns, beq_iff_eq, State.ownerOf] at h
  split at h
  · next x found =>
    exact ⟨x, List.mem_of_find?_eq_some found, by simpa using List.find?_some found, List.mem_of_mem_head? h⟩
  · cases h

/-- A request that stands after a release stood before it, and is for a line not given up. -/
theorem State.mem_releaseLines {s : State} {o : Owner} {ks : List LineKey} {x : LineOwner} (hx : x ∈ (s.releaseLines o ks).owned)
    (ho : o ∈ x.owners) : x.line ∉ ks ∧ x ∈ s.owned := by
  obtain ⟨hx, -⟩ := List.mem_filter.mp hx
  obtain ⟨y, hy, rfl⟩ := List.mem_map.mp hx
  split at ho
  · simp at ho
  · next out =>
    rw [if_neg out]
    exact ⟨by simpa using out, hy⟩

theorem State.owns_releaseLines (s : State) (o : Owner) {ks : List LineKey} {k : LineKey} (hk : k ∈ ks) :
    (s.releaseLines o ks).owns o k = false := by
  rw [← Bool.not_eq_true]
  intro h
  obtain ⟨x, hx, rfl, ho⟩ := State.mem_of_owns h
  exact (State.mem_releaseLines hx ho).1 hk

theorem State.mem_linesOfOwner {s : State} {o : Owner} {k : LineKey} :
    k ∈ s.linesOfOwner o ↔ ∃ x ∈ s.owned, o ∈ x.owners ∧ x.line = k := by
  simp [State.linesOfOwner, and_assoc]

/-- An owner that gives up every line it owns or waits for owns none. -/
theorem State.owns_releaseAll (s : State) (o : Owner) (k : LineKey) : (s.releaseLines o (s.linesOfOwner o)).owns o k = false := by
  rw [← Bool.not_eq_true]
  intro h
  obtain ⟨x, hx, rfl, ho⟩ := State.mem_of_owns h
  obtain ⟨out, hx⟩ := State.mem_releaseLines hx ho
  exact out (State.mem_linesOfOwner.mpr ⟨x, hx, ho, rfl⟩)

/-- An owner that gives up the one line that it owns or waits for is left with none. -/
theorem State.linesOfOwner_releaseLine {s : State} {o : Owner} {key : LineKey} (only : ∀ k ∈ s.linesOfOwner o, k = key) :
    (s.releaseLines o [key]).linesOfOwner o = [] := by
  refine List.eq_nil_iff_forall_not_mem.mpr (fun k hk => ?_)
  obtain ⟨x, hx, ho, rfl⟩ := State.mem_linesOfOwner.mp hk
  obtain ⟨out, hx⟩ := State.mem_releaseLines hx ho
  exact out (List.mem_singleton.mpr (only _ (State.mem_linesOfOwner.mpr ⟨x, hx, ho, rfl⟩)))

theorem State.acquire_cons (s : State) (o : Owner) (k : LineKey) (ks : List LineKey) :
    s.acquire o (k :: ks) = (s.acquire o [k]).acquire o ks := rfl

/-- The requests for lines with one more. -/
def asked (o : Owner) (k : LineKey) (xs : List LineOwner) : List LineOwner :=
  if xs.any (fun x => x.line == k) then xs.map (fun x => if x.line == k then { x with owners := x.owners ++ [o] } else x)
  else xs ++ [⟨k, [o]⟩]

theorem State.acquire_one (s : State) (o : Owner) (k : LineKey) : s.acquire o [k] = { s with owned := asked o k s.owned } := by
  simp only [State.acquire, List.foldl_cons, List.foldl_nil, asked]
  split <;> rfl

/-- The first owner that requests for lines give a line. -/
def firstOwner (xs : List LineOwner) (k : LineKey) : Option Owner := (xs.find? (fun x => x.line == k)).bind (·.owners.head?)

theorem State.ownerOf_eq (s : State) (k : LineKey) : s.ownerOf k = firstOwner s.owned k := by
  unfold State.ownerOf firstOwner
  cases s.owned.find? (fun x => x.line == k) <;> rfl

/-- A request leaves every owner in its place. -/
theorem firstOwner_asked {o p : Owner} {k q : LineKey} {xs : List LineOwner} (h : firstOwner xs q = some p) :
    firstOwner (asked o k xs) q = some p := by
  obtain ⟨x, found, hp⟩ := Option.bind_eq_some_iff.mp h
  unfold asked firstOwner
  split
  · have same : ((fun x : LineOwner => x.line == q) ∘ fun x => if x.line == k then { x with owners := x.owners ++ [o] } else x) =
        fun x => x.line == q := by
      funext x
      simp only [Function.comp]
      split <;> rfl
    rw [List.find?_map, same, found]
    simp only [Option.map_some, Option.bind_some]
    split
    · simp [List.head?_append, hp]
    · exact hp
  · rw [List.find?_append, found]
    exact hp

theorem State.ownerOf_acquire {s : State} {o : Owner} (ks : List LineKey) {q : LineKey} (owned : s.isOwned q = true) :
    (s.acquire o ks).ownerOf q = s.ownerOf q := by
  induction ks generalizing s with
  | nil => rfl
  | cons k ks ih =>
    obtain ⟨p, hp⟩ := Option.isSome_iff_exists.mp owned
    have one : (s.acquire o [k]).ownerOf q = some p := by
      rw [State.acquire_one, State.ownerOf_eq]
      exact firstOwner_asked (s.ownerOf_eq q ▸ hp)
    rw [State.acquire_cons, ih (by rw [State.isOwned, one]; rfl), one, hp]

/-- A request stands in the line that it is for, and behind those there. -/
theorem State.mem_linesOfOwner_acquire_one (s : State) (o : Owner) (k : LineKey) :
    k ∈ (s.acquire o [k]).linesOfOwner o ∧ ∀ q ∈ s.linesOfOwner o, q ∈ (s.acquire o [k]).linesOfOwner o := by
  simp only [State.mem_linesOfOwner, State.acquire_one, asked]
  by_cases old : s.owned.any (fun x => x.line == k) = true
  · rw [if_pos old]
    refine ⟨?_, ?_⟩
    · obtain ⟨x, hx, e⟩ := List.any_eq_true.mp old
      exact ⟨_, List.mem_map_of_mem hx, by simp [e], by rw [if_pos e]; simpa using e⟩
    · rintro q ⟨x, hx, ho, rfl⟩
      refine ⟨_, List.mem_map_of_mem hx, ?_⟩
      split
      · exact ⟨List.mem_append_left _ ho, rfl⟩
      · exact ⟨ho, rfl⟩
  · rw [if_neg old]
    refine ⟨⟨_, List.mem_append_right _ (List.mem_singleton_self _), List.mem_singleton_self _, rfl⟩, ?_⟩
    rintro q ⟨x, hx, ho, rfl⟩
    exact ⟨x, List.mem_append_left _ hx, ho, rfl⟩

theorem State.mem_linesOfOwner_acquire (s : State) (o : Owner) (ks : List LineKey) :
    (∀ k ∈ ks, k ∈ (s.acquire o ks).linesOfOwner o) ∧ ∀ q ∈ s.linesOfOwner o, q ∈ (s.acquire o ks).linesOfOwner o := by
  induction ks generalizing s with
  | nil => exact ⟨by simp, fun _ hq => hq⟩
  | cons k ks ih =>
    obtain ⟨here, before⟩ := s.mem_linesOfOwner_acquire_one o k
    obtain ⟨later, keep⟩ := ih (s.acquire o [k])
    exact ⟨List.forall_mem_cons.mpr ⟨keep k here, later⟩, fun q hq => keep q (before q hq)⟩

/-- A request changes the owners of lines alone. -/
theorem State.acquire_rest (s : State) (o : Owner) (ks : List LineKey) : { s.acquire o ks with owned := [] } = { s with owned := [] } := by
  induction ks generalizing s with
  | nil => rfl
  | cons k ks ih => rw [State.acquire_cons, ih, State.acquire_one]

theorem State.beforeAcquire_owned (s : State) (o : Owner) (k : LineKey) : (s.beforeAcquire o k).owned = s.owned := by
  unfold State.beforeAcquire
  dsimp only
  split <;> rfl

/-- What operations read ahead of an acquisition is all that it changes before (R239). -/
theorem State.beforeAcquire_rest (s : State) (o : Owner) (k : LineKey) :
    { s.beforeAcquire o k with ops := [], fresh := 0 } = { s with ops := [], fresh := 0 } := by
  unfold State.beforeAcquire
  dsimp only
  split <;> rfl

/-- What operations read ahead of acquisitions. -/
def State.readyToOwn (s : State) (o : Owner) (ks : List LineKey) : State := ks.foldl (fun s k => s.beforeAcquire o k) s

theorem State.readyToOwn_owned (s : State) (o : Owner) (ks : List LineKey) : (s.readyToOwn o ks).owned = s.owned :=
  foldl_keeps _ State.owned (fun t k => t.beforeAcquire_owned o k) ks s

theorem State.own_rest (s : State) (o : Owner) (ks : List LineKey) :
    { s.own o ks with owned := [], ops := [], fresh := 0 } = { s with owned := [], ops := [], fresh := 0 } := by
  have ahead : { s.readyToOwn o ks with ops := [], fresh := 0 } = { s with ops := [], fresh := 0 } :=
    foldl_keeps _ (fun t : State => { t with ops := [], fresh := 0 }) (fun t k => t.beforeAcquire_rest o k) ks s
  have asked := (s.readyToOwn o ks).acquire_rest o ks
  exact (congrArg (fun t : State => { t with ops := [], fresh := 0 }) asked).trans (congrArg (fun t : State => { t with owned := [] }) ahead)

/-- A copy to the other die asks for its lines there (R237, R246). -/
theorem remoteLines_asked {s : State} {oid : Nat} {o : EngineOp} {c : CopyOp} (live : s.liveCopy oid = some (o, c)) (old : o.old = {})
    (dst : (dirSides (cpDir c.desc)).2 = .other) (new : c.remote = false) :
    ∃ t, exec (.remoteLineAcquisition oid) s = .next t ∧ (∀ k ∈ c.lines o, k ∈ t.linesOfOwner (.op oid)) ∧
      (∀ k, s.isOwned k = true → t.ownerOf k = s.ownerOf k) ∧
      { t with owned := [], ops := [], fresh := 0 } = { s with owned := [], ops := [], fresh := 0 } := by
  have owned := s.readyToOwn_owned (.op oid) (c.lines o)
  refine ⟨(s.own (.op oid) (c.lines o)).modCopy oid (fun c => { c with remote := true }), ?_,
    (State.mem_linesOfOwner_acquire (s.readyToOwn (.op oid) (c.lines o)) _ _).1, fun k hk => ?_, s.own_rest _ _⟩
  · change execRemoteLineAcquisition oid s = _
    simp only [execRemoteLineAcquisition, State.copyEvent_now live old, dst, new]
    rfl
  · have same : (s.readyToOwn (.op oid) (c.lines o)).ownerOf k = s.ownerOf k := by rw [State.ownerOf, owned]; rfl
    exact (State.ownerOf_acquire (s := s.readyToOwn (.op oid) (c.lines o)) (c.lines o) (by rwa [State.isOwned, same])).trans same

end Sys2Proof.Machine

namespace Sys2Proof.Machine

/-! ## What leaves the memories alone -/

/-- Main and on-die memories are as before. -/
structure Quiet (s t : State) : Prop where
  dram : t.dram = s.dram
  host : t.hostMem = s.hostMem
  blocks : t.blocks = s.blocks
  spads : t.dies.map (·.spad) = s.dies.map (·.spad)

theorem Quiet.refl (s : State) : Quiet s s := ⟨rfl, rfl, rfl, rfl⟩

theorem Quiet.trans {s t u : State} (h : Quiet s t) (g : Quiet t u) : Quiet s u :=
  ⟨g.dram.trans h.dram, g.host.trans h.host, g.blocks.trans h.blocks, g.spads.trans h.spads⟩

theorem State.spad_die (s : State) (d : Nat) : (s.die d).spad = (s.dies.map (·.spad)).getD d [] := by
  simp only [State.die, List.getD_eq_getElem?_getD, List.getElem?_map]
  cases s.dies[d]? <;> rfl

theorem Quiet.same {s t : State} (h : Quiet s t) : SameMemory s t where
  dram a := by rw [h.dram]
  host a := by rw [h.host]
  spad d a := by rw [State.spadAt, State.spadAt, State.spad_die, State.spad_die, h.spads]
  shared b a := by rw [State.sharedAt, State.sharedAt, State.block?, State.block?, h.blocks]
  weight b a := by rw [State.weightAt, State.weightAt, State.block?, State.block?, h.blocks]

theorem Quiet.hasSpace {s t : State} (h : Quiet s t) {sp : Space} (g : s.hasSpace sp) : t.hasSpace sp := by
  have dies : t.dies.length = s.dies.length := by simpa using congrArg List.length h.spads
  cases sp <;> simpa [State.hasSpace, State.block?, h.blocks, dies] using g

theorem Quiet.noImages {s t : State} (h : Quiet s t) (g : s.noImages) : t.noImages := by
  rwa [State.noImages, h.blocks]

theorem State.inImage_noImages {s : State} (h : s.noImages) (sp : Space) (a n : Nat) : s.inImage sp a n = false := by
  cases sp with
  | spad d =>
    rw [State.inImage, List.any_eq_false]
    intro b hb
    simp [h b hb]
  | _ => rfl

/-- Bytes written are read back where no save image lies. -/
theorem State.bytesAt_spaceWrite (s : State) {sp : Space} (a : Nat) (bs : List Byte) (k : Option (Nat × Nat)) (hs : s.hasSpace sp)
    (free : s.noImages) : (s.spaceWrite sp a bs k).bytesAt sp a bs.length = bs := by
  refine List.ext_getElem (by simp [State.bytesAt]) (fun j hj hk => ?_)
  simp only [State.bytesAt, List.getElem_map, List.getElem_range]
  rw [State.byteAt_spaceWrite s k hs (State.inImage_noImages free _ _ _) hk, List.getD_eq_getElem?_getD, List.getElem?_eq_getElem hk,
    Option.getD_some]

theorem State.quiet_modDie (s : State) (d : Nat) (f : Die → Die) (h : ∀ x, (f x).spad = x.spad) : Quiet s (s.modDie d f) :=
  ⟨rfl, rfl, rfl, map_modify_of_eq _ _ _ _ h⟩

theorem State.quiet_modOp (s : State) (k : Nat) (f : EngineOp → EngineOp) : Quiet s (s.modOp k f) := ⟨rfl, rfl, rfl, rfl⟩

/-! ## Operations that are over -/

/-- An operation leaves the machine, or stays for its fold (R251). -/
theorem State.retire_cases (s : State) (o : EngineOp) :
    s.retire o = s.modOp o.oid (fun o => { o with complete := true }) ∨ s.retire o = { s with ops := s.ops.filter (fun x => x.oid != o.oid) } := by
  unfold State.retire
  extract_lets det
  by_cases h : (det && o.fault.isNone) = true
  · exact .inl (if_pos h)
  · exact .inr (if_neg h)

/-- An operation that retires changes the operations alone. -/
theorem State.retire_rest (s : State) (o : EngineOp) : { s.retire o with ops := [] } = { s with ops := [] } := by
  rcases s.retire_cases o with e | e
  · rw [e]
    rfl
  · rw [e]

theorem State.quiet_retire (s : State) (o : EngineOp) : Quiet s (s.retire o) := by
  rcases s.retire_cases o with e | e
  · rw [e]
    exact s.quiet_modOp _ _
  · rw [e]
    exact ⟨rfl, rfl, rfl, rfl⟩

theorem State.opOver_retire (s : State) (o : EngineOp) : (s.retire o).opOver o.oid := by
  intro x hx num
  rcases s.retire_cases o with e | e
  · rw [e] at hx
    obtain ⟨y, hy, rfl⟩ := List.mem_map.mp hx
    split
    · rfl
    · next other =>
      rw [if_neg other] at num
      exact absurd (beq_iff_eq.mpr num) other
  · rw [e] at hx
    exact absurd num (by simpa using (List.mem_filter.mp hx).2)

/-! ## Copies that end (R290 to R292) -/

/-- Steps that each change nothing change nothing. -/
theorem foldl_eq_self {σ α : Type} (f : σ → α → σ) (xs : List α) (s : σ) (h : ∀ x ∈ xs, f s x = s) : xs.foldl f s = s := by
  induction xs with
  | nil => rfl
  | cons x xs ih => rw [List.foldl_cons, h x List.mem_cons_self, ih (fun y hy => h y (List.mem_cons_of_mem _ hy))]

theorem State.quiet_dropTexLines (s : State) (d : Nat) (f : TexLine → Bool) : Quiet s (s.dropTexLines d f) :=
  s.quiet_modDie d _ (fun _ => rfl)

theorem State.dropWritten_eq (s : State) (o : EngineOp) (c : CopyOp) : ∃ xs, s.dropWritten o c = { s with dies := xs } ∧
    Quiet s (s.dropWritten o c) := by
  unfold State.dropWritten
  split
  · exact ⟨_, rfl, s.quiet_dropTexLines _ _⟩
  · exact ⟨_, rfl, Quiet.refl s⟩

/-- What a completion word does (R238, R242). -/
structure WordSent (s t : State) (die addr val : Nat) : Prop where
  free : (∀ k ∈ spaceLines (.spad die) addr 4, s.isOwned k = false) →
    t.numberAt (.spad die) addr 4 = val ∧ t.words = s.words ∧ BytesKept s t (bytesFrom (.spad die) addr 4)
  held : (∃ k ∈ spaceLines (.spad die) addr 4, s.isOwned k = true) → t.words = s.words ++ [⟨die, addr, val⟩] ∧ SameMemory s t

theorem State.wordSent_engineWord {s : State} {die addr val : Nat} (hd : die < s.dies.length) (images : s.noImages)
    (small : val < 256 ^ 4) : WordSent s (s.engineWord die addr val) die addr val := by
  refine ⟨fun free => ?_, fun held => ?_⟩
  · have none_ : (spaceLines (.spad die) addr 4).any s.isOwned = false := by
      rw [List.any_eq_false]
      exact fun k hk => by rw [free k hk]; exact Bool.false_ne_true
    have wrote := s.written_spaceWrite (.spad die) addr (natToBytes 4 val) none
    rw [natToBytes_length] at wrote
    rw [State.engineWord, if_neg (by rw [none_]; exact Bool.false_ne_true)]
    exact ⟨s.numberAt_spaceWriteNat none hd (State.inImage_noImages images _ _ _) small, (congrArg State.words wrote.rest :), wrote.bytes⟩
  · rw [State.engineWord, if_pos (List.any_eq_true.mpr held)]
    exact ⟨rfl, Quiet.same ⟨rfl, rfl, rfl, rfl⟩⟩

/-- A word sent between changes that leave memories, words and owners alone. -/
theorem WordSent.around {s u v t : State} {die addr val : Nat} (h : WordSent u v die addr val) (before : Quiet s u)
    (words : u.words = s.words) (owned : u.owned = s.owned) (after : Quiet v t) (sent : t.words = v.words) :
    WordSent s t die addr val := by
  have owners : u.isOwned = s.isOwned := by
    funext k
    rw [State.isOwned, State.isOwned, State.ownerOf_eq, State.ownerOf_eq, owned]
  refine ⟨fun free => ?_, fun held => ?_⟩
  · obtain ⟨num, same, bytes⟩ := h.free (by rwa [owners])
    exact ⟨(State.numberAt_congr (fun x _ _ => after.same.byteAt _ x)).trans num, sent.trans (same.trans words),
      (before.same.bytesKept _).trans (bytes.trans (after.same.bytesKept _))⟩
  · obtain ⟨more, same⟩ := h.held (by rwa [owners])
    exact ⟨by rw [sent, more, words], before.same.trans (same.trans after.same)⟩

theorem bytesToNat_lt (bs : List Byte) : bytesToNat bs < 256 ^ bs.length := by
  induction bs with
  | nil => exact Nat.one_pos
  | cons b bs ih =>
    have := b.isLt
    rw [bytesToNat, List.length_cons, Nat.pow_succ]
    omega

theorem fieldOf_lt (bs : List Byte) (lo n : Nat) : fieldOf bs lo n < 256 ^ n :=
  (bytesToNat_lt _).trans_le (Nat.pow_le_pow_right (by decide) (by simp))

/-- A copy faults: it gives up its lines and keeps its trap (R291). -/
theorem State.faultCopy_spec {s : State} {oid : Nat} {o : EngineOp} (ho : s.op? oid = some o) (c : CopyOp) (code faddr : Nat)
    (plain : cpBb c.desc = false) : (s.faultCopy o c code faddr).op? oid = some { o with fault := some (code, faddr) } ∧
      (∀ k, (s.faultCopy o c code faddr).owns (.op oid) k = false) ∧ Quiet s (s.faultCopy o c code faddr) := by
  obtain rfl := State.op_oid ho
  have run : s.faultCopy o c code faddr = (s.releaseLines (.op o.oid) (s.linesOfOwner (.op o.oid))).modOp o.oid
      (fun x => { x with fault := some (code, faddr) }) := by simp [State.faultCopy, plain]
  rw [run]
  refine ⟨?_, s.owns_releaseAll (.op o.oid), ⟨rfl, rfl, rfl, rfl⟩⟩
  refine (State.op?_modOp _ _ _ (fun x => { x with fault := some (code, faddr) }) (fun _ => rfl)).trans ?_
  refine (congrArg (Option.map _) (ho : (s.releaseLines _ _).op? o.oid = some o)).trans ?_
  simp

section
variable {s : State} {oid : Nat} {o : EngineOp} {c : CopyOp} (live : s.liveCopy oid = some (o, c)) (old : o.old = {})
include live old

/-- A copy whose bytes are all written ends (R240, R290). -/
theorem exec_copyComplete (fine : s.firstFault o c = none) (wrote : c.wrote o (cpTotal c.desc) = true) :
    exec (.copyComplete oid) s = .next (s.finishCopy o c) := by
  change execCopyComplete oid s = _
  simp only [execCopyComplete, State.copyEvent_now live old, fine, wrote]
  rfl

omit old in
/-- A completion word of a copy, before the copy retires. -/
theorem State.wordSent_finish {die addr : Nat} (hd : die < s.dies.length) (images : s.noImages) :
    (((s.dropWritten o c).engineWord die addr (cpCwVal c.desc)).retire o).opOver oid ∧
      WordSent s (((s.dropWritten o c).engineWord die addr (cpCwVal c.desc)).retire o) die addr (cpCwVal c.desc) := by
  obtain rfl := State.op_oid (State.liveCopy_eq_some.mp live).1
  obtain ⟨xs, e, quiet⟩ := s.dropWritten_eq o c
  refine ⟨State.opOver_retire _ o, (State.wordSent_engineWord (quiet.hasSpace (sp := .spad die) hd) (quiet.noImages images)
    (fieldOf_lt _ _ _)).around quiet ?_ ?_ (State.quiet_retire _ o) ?_⟩
  · rw [e]
  · rw [e]
  · exact (congrArg State.words (State.retire_rest _ o) :)

/-- A copy faults once its earlier bytes are written (R291). -/
theorem copyFault_faults {i code faddr : Nat} (first : s.firstFault o c = some (i, code, faddr)) (wrote : c.wrote o i = true) : exec (.copyFault oid) s = .next (s.faultCopy o c code faddr) := by
  have earlier : s.writeEarlier s o c i = s := by
    unfold State.writeEarlier CopyOp.blocks
    rw [CopyOp.wrote] at wrote
    by_cases main : ((dirSides (cpDir c.desc)).2 == Side.main) = true
    · rw [if_pos main, CopyOp.blocks, if_pos main, List.all_eq_true] at wrote
      simp only [main, if_true, List.foldl_nil]
      exact foldl_eq_self _ _ _ (fun b hb => if_pos (wrote b hb))
    · rw [if_neg main, List.all_eq_true] at wrote
      simp only [main]
      exact foldl_eq_self _ _ _ (fun k hk => if_pos (wrote k hk))
  change execCopyFault oid s = _
  simp only [execCopyFault, State.copyEvent_now live old, first, earlier, live, wrote]
  rfl

end

end Sys2Proof.Machine

namespace Sys2Proof.Machine

/-- The completion word of a copy lies on the other die (R290). -/
def CopyOp.sendsFar (c : CopyOp) : Bool := cpCwd c.desc && (cpDir c.desc == 6 || cpDir c.desc == 7)

theorem CopyOp.sendsFar_iff (c : CopyOp) : c.sendsFar = true ↔ cpCwd c.desc = true ∧ (cpDir c.desc = 6 ∨ cpDir c.desc = 7) := by
  simp [CopyOp.sendsFar]

section
variable (s : State) (o : EngineOp) (c : CopyOp)

theorem State.finishCopy_plain (h : cpCw c.desc = false) : s.finishCopy o c = (s.dropWritten o c).retire o := by
  simp [State.finishCopy, h]

theorem State.finishCopy_near (h : cpCw c.desc = true) (near : c.sendsFar = false) : s.finishCopy o c =
    ((s.dropWritten o c).engineWord o.die (c.base + cpCwOff c.desc) (cpCwVal c.desc)).retire o := by
  rw [CopyOp.sendsFar] at near
  simp [State.finishCopy, h, near]

theorem State.finishCopy_far (h : cpCw c.desc = true) (far : c.sendsFar = true) {x : Context}
    (hx : (s.dropWritten o c).ctx? o.ctx = some x) : s.finishCopy o c =
      if x.windowOk (1 - o.die) (cpCwOff c.desc) 4 ((s.dropWritten o c).opLevel o) then
        if cpCwOff c.desc % 4 = 0 then
          ((s.dropWritten o c).engineWord (1 - o.die) (c.otherBase + cpCwOff c.desc) (cpCwVal c.desc)).retire o
        else (s.dropWritten o c).faultCopy o c 0x12 (cpCwOff c.desc)
      else (s.dropWritten o c).faultCopy o c 0x10 (cpCwOff c.desc) := by
  rw [CopyOp.sendsFar] at far
  simp only [State.finishCopy, h, far, hx, if_true]
  cases x.windowOk (1 - o.die) (cpCwOff c.desc) 4 ((s.dropWritten o c).opLevel o) with
  | false => rfl
  | true =>
    by_cases aligned : cpCwOff c.desc % 4 = 0
    · simp [aligned]
    · simp [aligned]

end

/-- What the end of a copy does, by where its completion word goes (R240, R290, R291). -/
theorem finishCopy_ends {s : State} {oid : Nat} {o : EngineOp} {c : CopyOp} (live : s.liveCopy oid = some (o, c)) (old : o.old = {})
    (fine : s.firstFault o c = none) (wrote : c.wrote o (cpTotal c.desc) = true) :
    let far := cpCwd c.desc = true ∧ (cpDir c.desc = 6 ∨ cpDir c.desc = 7)
    let off := cpCwOff c.desc
    let word (die base : Nat) : Prop := die < s.dies.length → s.noImages → ∃ t, exec (.copyComplete oid) s = .next t ∧ t.opOver oid ∧
      ((∀ k ∈ spaceLines (.spad die) (base + off) 4, s.isOwned k = false) →
        t.numberAt (.spad die) (base + off) 4 = cpCwVal c.desc ∧ t.words = s.words ∧ BytesKept s t (bytesFrom (.spad die) (base + off) 4)) ∧
      ((∃ k ∈ spaceLines (.spad die) (base + off) 4, s.isOwned k = true) →
        t.words = s.words ++ [⟨die, base + off, cpCwVal c.desc⟩] ∧ SameMemory s t)
    (cpCw c.desc = false → ∃ t, exec (.copyComplete oid) s = .next t ∧ t.opOver oid ∧ SameMemory s t) ∧
    (cpCw c.desc = true → ¬ far → word o.die c.base) ∧
    (cpCw c.desc = true → far → ∀ x, s.ctx? o.ctx = some x →
      let ok := x.windowOk (1 - o.die) off 4 (((s.warp? o.wid).map (·.supervisor)).getD false) = true
      (ok → off % 4 = 0 → word (1 - o.die) c.otherBase) ∧
      (¬ ok ∨ off % 4 ≠ 0 → cpBb c.desc = false → ∃ t, exec (.copyComplete oid) s = .next t ∧ SameMemory s t ∧
        t.op? oid = some { o with fault := some (if ok then 0x12 else 0x10, off) })) := by
  intro far off word
  obtain ⟨ho, -, -, -⟩ := State.liveCopy_eq_some.mp live
  have num := State.op_oid ho
  have run := exec_copyComplete live old fine wrote
  obtain ⟨xs, e, quiet⟩ := s.dropWritten_eq o c
  have sent (die base : Nat) (h : s.finishCopy o c = ((s.dropWritten o c).engineWord die (base + off) (cpCwVal c.desc)).retire o) :
      word die base := by
    intro hd images
    obtain ⟨gone, word⟩ := State.wordSent_finish live (die := die) (addr := base + off) hd images
    exact ⟨_, run, h ▸ gone, h ▸ word.free, h ▸ word.held⟩
  refine ⟨fun plain => ⟨_, run, ?_⟩, fun has near => sent _ _ (s.finishCopy_near o c has ?_), fun has hfar x hx => ?_⟩
  · rw [s.finishCopy_plain o c plain]
    exact ⟨num ▸ State.opOver_retire _ o, (quiet.trans (State.quiet_retire _ o)).same⟩
  · rwa [← Bool.not_eq_true, c.sendsFar_iff]
  · intro ok
    have ends := s.finishCopy_far o c has (c.sendsFar_iff.mpr hfar) (x := x) (by rw [e]; exact hx)
    rw [show (s.dropWritten o c).opLevel o = ((s.warp? o.wid).map (·.supervisor)).getD false by rw [e]; rfl] at ends
    have faults (code : Nat) (plain : cpBb c.desc = false) (h : s.finishCopy o c = (s.dropWritten o c).faultCopy o c code off) : ∃ t,
        exec (.copyComplete oid) s = .next t ∧ SameMemory s t ∧ t.op? oid = some { o with fault := some (code, off) } := by
      have dropped : (s.dropWritten o c).op? oid = some o := by rw [e]; exact ho
      obtain ⟨stays, -, kept⟩ := State.faultCopy_spec dropped c code off plain
      exact ⟨_, run, h ▸ (quiet.trans kept).same, h ▸ stays⟩
    refine ⟨fun good aligned => sent _ _ (ends.trans ((if_pos good).trans (if_pos aligned))), fun bad plain => ?_⟩
    by_cases good : ok
    · rw [if_pos good]
      exact faults _ plain (ends.trans ((if_pos good).trans (if_neg (bad.resolve_left (not_not_intro good)))))
    · rw [if_neg good]
      exact faults _ plain (ends.trans (if_neg good))

end Sys2Proof.Machine

namespace Sys2Proof.Machine

/-! ## Lines cleared (R320) -/

theorem Written.quiet {s t u : State} {A : Space → Nat → Prop} (h : Written s t A) (g : Quiet t u) : BytesKept s u A :=
  h.bytes.trans (g.same.bytesKept A)

theorem clearRelease_clears {s : State} {oid : Nat} {key : LineKey} {o : EngineOp} {off len : Nat} {released : List LineKey}
    (ho : s.op? oid = some o) (old : o.old = {}) (kind : o.kind = .clear off len released) (going : o.complete = false)
    (owns : s.owns (.op oid) key = true) (hs : s.hasSpace (keyPlace key).1) (images : s.noImages) :
    ∃ t, exec (.engineLineRelease oid key) s = .next t ∧
      (∀ j < 128, t.byteAt (keyPlace key).1 (128 * (keyPlace key).2 + j) = 0) ∧
      BytesKept s t (bytesFrom (keyPlace key).1 (128 * (keyPlace key).2) 128) ∧ t.owns (.op oid) key = false ∧
      ((∀ k ∈ s.linesOfOwner (.op oid), k = key) → t.opOver oid) := by
  obtain rfl := State.op_oid ho
  let s1 := s.spaceWrite (keyPlace key).1 (128 * (keyPlace key).2) (List.replicate 128 0) none
  let s2 := (s1.releaseLines (.op o.oid) [key]).modOp o.oid (fun x => { x with kind := .clear off len (key :: released) })
  let t := if (s2.linesOfOwner (.op o.oid)).isEmpty then s2.retire o else s2
  have run : exec (.engineLineRelease o.oid key) s = .next t := by
    change execEngineLineRelease o.oid key s = _
    simp only [execEngineLineRelease, State.opEvent_now ho old, kind, going, State.clearRelease, owns]
    rfl
  have wrote := s.written_spaceWrite (keyPlace key).1 (128 * (keyPlace key).2) (List.replicate 128 0) none
  rw [List.length_replicate] at wrote
  have owned1 : s1.owned = s.owned := (congrArg State.owned wrote.rest :)
  have rest : Quiet s2 t := by
    simp only [t]
    split
    · exact s2.quiet_retire o
    · exact Quiet.refl s2
  have owned : t.owned = s2.owned := by
    simp only [t]
    split
    · exact (congrArg State.owned (s2.retire_rest o) :)
    · rfl
  have kept : Quiet s1 t := Quiet.trans (t := s2) ⟨rfl, rfl, rfl, rfl⟩ rest
  refine ⟨t, run, fun j hj => ?_, wrote.quiet kept, ?_, fun only => ?_⟩
  · have zero := s.byteAt_spaceWrite (a := 128 * (keyPlace key).2) (bs := List.replicate 128 0) none hs
      (State.inImage_noImages images _ _ _) (hj.trans_eq List.length_replicate.symm)
    rw [kept.same.byteAt]
    rw [zero, List.getD_eq_getElem?_getD, List.getElem?_replicate, if_pos hj]
    rfl
  · have given := s1.owns_releaseLines (.op o.oid) (List.mem_singleton_self key)
    rw [State.owns, State.ownerOf_eq] at given ⊢
    rwa [owned]
  · have none_ : s2.linesOfOwner (.op o.oid) = [] :=
      State.linesOfOwner_releaseLine (s := s1) (fun k hk => only k (by rwa [State.linesOfOwner, owned1] at hk))
    simp only [t, none_, List.isEmpty_nil, if_true]
    exact s2.opOver_retire o

/-! ## Forwarded records (R365) -/

/-- An operation is a forwarded record that has not arrived. -/
def EngineOp.forwarding (o : EngineOp) : Bool :=
  match o.kind with
  | .forward _ _ => !o.complete
  | _ => false

theorem EngineOp.forwarding_eq_false {o : EngineOp} (h : o.complete = true ∨ ∀ m b, o.kind ≠ .forward m b) : o.forwarding = false := by
  unfold EngineOp.forwarding
  split
  · next m b kind =>
    rcases h with done | other
    · simp [done]
    · exact absurd kind (other m b)
  · rfl

/-- The forwarded record of a warp that arrives next. -/
def State.nextForward (s : State) (wid : Nat) : Option EngineOp := (s.ops.filter (fun x => x.wid == wid && x.forwarding)).head?

/-- A forward is the first of its warp that has not arrived where those before it have. -/
theorem State.nextForward_of {s : State} {oid : Nat} {o : EngineOp} {n : Nat} {bs : List Byte} (ho : s.op? oid = some o)
    (kind : o.kind = .forward n bs) (going : o.complete = false)
    (turn : ∀ x ∈ s.ops.takeWhile (fun x => x.oid != oid), x.wid = o.wid → x.complete = true ∨ ∀ m b, x.kind ≠ .forward m b) :
    s.nextForward o.wid = some o := by
  obtain ⟨-, before, after, ops, early⟩ := List.find?_eq_some_iff_append.mp ho
  have taken : s.ops.takeWhile (fun x => x.oid != oid) = before := by
    rw [ops, List.takeWhile_append_of_pos (by simpa using early), List.takeWhile_cons_of_neg (by simp [State.op_oid ho]),
      List.append_nil]
  rw [taken] at turn
  have gone : before.filter (fun x => x.wid == o.wid && x.forwarding) = [] := by
    rw [List.filter_eq_nil_iff]
    intro x hx h
    rw [Bool.and_eq_true, beq_iff_eq] at h
    rw [EngineOp.forwarding_eq_false (turn x hx h.1)] at h
    exact Bool.false_ne_true h.2
  have here : o.forwarding = true := by simp [EngineOp.forwarding, kind, going]
  rw [State.nextForward, ops, List.filter_append, gone, List.nil_append, List.filter_cons_of_pos (by simp [here])]
  rfl

theorem State.render_bare (s : State) (d : Nat) : (s.bare.die d).render = (s.die d).render := by
  simp only [State.bare, State.die, List.getD_eq_getElem?_getD, List.getElem?_map]
  cases s.dies[d]? <;> rfl

/-- A slot of a ring takes a record (R360). -/
def Render.pushed (r : Render) (n : Nat) : Render :=
  { r with widx := r.widx.set n (BitVec.ofNat 6 ((r.widx.get n).toNat + 1))
           fill := r.fill.set n (BitVec.ofNat 7 (min ((r.fill.get n).toNat + 1) 64)) }

section
variable {s : State} {oid : Nat} {o : EngineOp} {n : Nat} {bs : List Byte} (ho : s.op? oid = some o) (old : o.old = {})
  (kind : o.kind = .forward n bs) (going : o.complete = false)
  (turn : ∀ x ∈ s.ops.takeWhile (fun x => x.oid != oid), x.wid = o.wid → x.complete = true ∨ ∀ m b, x.kind ≠ .forward m b)
include ho old kind going turn

/-- A forwarded record arrives in its turn (R365). -/
theorem exec_forwardedRecordArrival : exec (.forwardedRecordArrival oid) s = .next
    (match (s.die (1 - o.die)).render.inGrid n, s.ringPlace (1 - o.die) n (s.opLevel o) with
    | true, some a =>
      if s.slotOwned (1 - o.die) a ((s.die (1 - o.die)).render.widx.get n).toNat then s
      else ((s.writeSample (1 - o.die) n a bs).keepForward o bs).retire o
    | _, _ => (s.modRender (1 - o.die) (fun r => { r with fdrop := r.fdrop + 1 })).retire o) := by
  have first : ((s.nextForward o.wid).map (·.oid) == some o.oid) = true := by
    rw [State.nextForward_of ho kind going turn]
    exact beq_self_eq_true _
  have turnIs : s.forwardArrive o n bs = if !((s.nextForward o.wid).map (·.oid) == some o.oid) then s else _ := rfl
  change execForwardedRecordArrival oid s = _
  simp only [execForwardedRecordArrival, State.opEvent_now ho old, kind, going, turnIs, first]
  rfl

theorem forwardedRecord_waits {a : Nat} (grid : (s.die (1 - o.die)).render.inGrid n = true)
    (place : s.ringPlace (1 - o.die) n (s.opLevel o) = some a)
    (owned : s.slotOwned (1 - o.die) a ((s.die (1 - o.die)).render.widx.get n).toNat = true) :
    exec (.forwardedRecordArrival oid) s = .next s := by
  rw [exec_forwardedRecordArrival ho old kind going turn]
  simp only [grid, place, owned, if_true]

theorem forwardedRecord_dropped (hd : 1 - o.die < s.dies.length)
    (bad : (s.die (1 - o.die)).render.inGrid n = false ∨ s.ringPlace (1 - o.die) n (s.opLevel o) = none) :
    ∃ t, exec (.forwardedRecordArrival oid) s = .next t ∧ t.opOver oid ∧
      (t.die (1 - o.die)).render = { (s.die (1 - o.die)).render with fdrop := (s.die (1 - o.die)).render.fdrop + 1 } ∧
      SameMemory s t := by
  obtain rfl := State.op_oid ho
  let u := s.modRender (1 - o.die) (fun r => { r with fdrop := r.fdrop + 1 })
  have quiet : Quiet s u := s.quiet_modDie _ _ (fun _ => rfl)
  refine ⟨u.retire o, ?_, u.opOver_retire o, ?_, (quiet.trans (u.quiet_retire o)).same⟩
  · rw [exec_forwardedRecordArrival ho old kind going turn]
    rcases bad with out | nowhere
    · simp only [out]
      rfl
    · simp only [nowhere]
      cases (s.die (1 - o.die)).render.inGrid n <;> rfl
  · have same : (u.retire o).die (1 - o.die) = u.die (1 - o.die) :=
      (congrArg (fun x : State => x.die (1 - o.die)) (u.retire_rest o) :)
    rw [same]
    refine (congrArg Die.render (State.die_modDie _ _ _ _)).trans ?_
    rw [if_pos ⟨rfl, hd⟩]

theorem forwardedRecord_arrives {a : Nat} (hd : 1 - o.die < s.dies.length) (images : s.noImages)
    (grid : (s.die (1 - o.die)).render.inGrid n = true) (place : s.ringPlace (1 - o.die) n (s.opLevel o) = some a)
    (free : s.slotOwned (1 - o.die) a ((s.die (1 - o.die)).render.widx.get n).toNat = false) :
    ∃ t, exec (.forwardedRecordArrival oid) s = .next t ∧ t.opOver oid ∧
      t.bytesAt (.spad (1 - o.die)) (a + 16 * ((s.die (1 - o.die)).render.widx.get n).toNat) bs.length = bs ∧
      BytesKept s t (bytesFrom (.spad (1 - o.die)) (a + 16 * ((s.die (1 - o.die)).render.widx.get n).toNat) bs.length) ∧
      (t.die (1 - o.die)).render = (s.die (1 - o.die)).render.pushed n := by
  obtain rfl := State.op_oid ho
  let i := ((s.die (1 - o.die)).render.widx.get n).toNat
  let v := s.spaceWrite (.spad (1 - o.die)) (a + 16 * i) bs none
  let u := s.writeSample (1 - o.die) n a bs
  have wrote := s.written_spaceWrite (.spad (1 - o.die)) (a + 16 * i) bs none
  have after : Quiet v ((u.keepForward o bs).retire o) :=
    (Quiet.trans (t := u) (v.quiet_modDie _ _ (fun _ => rfl)) (u.quiet_modOp _ _)).trans (State.quiet_retire _ o)
  refine ⟨_, ?_, State.opOver_retire _ o, ?_, wrote.quiet after, ?_⟩
  · rw [exec_forwardedRecordArrival ho old kind going turn]
    simp only [grid, place, free, Bool.false_eq_true, if_false]
    rfl
  · have read := s.bytesAt_spaceWrite (sp := .spad (1 - o.die)) (a + 16 * i) bs none hd images
    refine Eq.trans ?_ read
    exact List.map_congr_left (fun j _ => after.same.byteAt _ _)
  · have same : ((u.keepForward o bs).retire o).die (1 - o.die) = u.die (1 - o.die) :=
      (congrArg (fun x : State => x.die (1 - o.die)) ((u.keepForward o bs).retire_rest o) :)
    have render : (v.die (1 - o.die)).render = (s.die (1 - o.die)).render := by
      rw [← State.render_bare, wrote.rest, State.render_bare]
    rw [same]
    refine (congrArg Die.render (State.die_modDie v _ _ _)).trans ?_
    rw [if_pos ⟨rfl, State.hasSpace_of_bare (sp := .spad (1 - o.die)) wrote.rest hd⟩, Render.pushed, ← render]

end

end Sys2Proof.Machine

namespace Sys2Proof.Machine

/-! ## Steps in order, of which the last of its kind counts -/

section
variable {σ β : Type} (step : σ → Nat → σ) (read : σ → β) (P : σ → Prop) (hP : ∀ s j, P s → P (step s j))
include hP

/-- What no step changes keeps. -/
theorem read_foldl_other {L : List Nat} {s : σ} (hs : P s) (keeps : ∀ j ∈ L, ∀ s, P s → read (step s j) = read s) :
    read (L.foldl step s) = read s := by
  induction L generalizing s with
  | nil => rfl
  | cons j L ih =>
    rw [List.foldl_cons, ih (hP s j hs) (fun k hk => keeps k (List.mem_cons_of_mem _ hk)), keeps j List.mem_cons_self s hs]

/-- What a step gives stays where no later one changes it. -/
theorem read_foldl_last {L : List Nat} (sorted : L.Pairwise (· < ·)) {i : Nat} (hi : i ∈ L) {v : β} (gives : ∀ s, P s → read (step s i) = v)
    (keeps : ∀ j ∈ L, i < j → ∀ s, P s → read (step s j) = read s) {s : σ} (hs : P s) : read (L.foldl step s) = v := by
  induction L generalizing s with
  | nil => cases hi
  | cons k L ih =>
    rw [List.pairwise_cons] at sorted
    rw [List.foldl_cons]
    rcases List.mem_cons.mp hi with rfl | hi
    · rw [read_foldl_other step read P hP (hP s i hs) (fun j hj => keeps j (List.mem_cons_of_mem _ hj) (sorted.1 j hj)), gives s hs]
    · exact ih sorted.2 hi (fun j hj => keeps j (List.mem_cons_of_mem _ hj)) (hP s k hs)

end

/-! ## Lines of a copy that are released (R237, R289) -/

/-- One byte lies in one line. -/
theorem linesOf_one (a : Nat) : linesOf a 1 = [a / 128] := by
  simp [linesOf]

theorem mem_spaceLines_one {key : LineKey} {sp : Space} {a : Nat} : key ∈ spaceLines sp a 1 ↔ keyPlace key = (sp, a / 128) := by
  rw [spaceLines, linesOf_one]
  cases sp <;> cases key <;> simp [keyPlace, eq_comm]

theorem State.holdEntry_rest (s : State) (ctx va : Nat) : { s.holdEntry ctx va with ctxs := [] } = { s with ctxs := [] } := by
  unfold State.holdEntry
  split
  · rfl
  · split
    · rfl
    · split <;> rfl

/-- Holding entries changes what contexts hold alone (R429). -/
theorem State.holdCopy_rest (s : State) (o : EngineOp) (d : List Byte) (n : Nat) :
    { s.holdCopy o d n with ctxs := [] } = { s with ctxs := [] } :=
  foldl_keeps _ (fun t : State => { t with ctxs := [] }) (fun t p => t.holdEntry_rest o.ctx (p * 2 ^ 16)) _ s

theorem Quiet.of_ctxs {s t : State} (h : { t with ctxs := [] } = { s with ctxs := [] }) : Quiet s t :=
  ⟨(congrArg State.dram h :), (congrArg State.hostMem h :), (congrArg State.blocks h :), (congrArg (fun x => x.dies.map (·.spad)) h :)⟩

/-- Keeping what was written for a fold changes the operations' payloads alone (R251). -/
theorem State.keepPayload_eq (s : State) (o : EngineOp) (xs : List (Nat × Byte)) :
    ∃ f : EngineOp → EngineOp, (∀ x, ∃ ys, f x = { x with payload := ys }) ∧ s.keepPayload o xs = s.modOp o.oid f := by
  have idle : s.modOp o.oid (fun x => x) = s := by simp [State.modOp]
  unfold State.keepPayload
  split
  · exact ⟨fun x => x, fun x => ⟨_, rfl⟩, idle.symm⟩
  · split
    · exact ⟨_, fun x => ⟨_, rfl⟩, rfl⟩
    · exact ⟨fun x => x, fun x => ⟨_, rfl⟩, idle.symm⟩

theorem State.quiet_released (s : State) (o : EngineOp) (xs : List (Nat × Byte)) (w : Owner) (ks : List LineKey) (f : CopyOp → CopyOp) :
    Quiet s (((s.keepPayload o xs).releaseLines w ks).modCopy o.oid f) := by
  obtain ⟨g, -, keep⟩ := s.keepPayload_eq o xs
  rw [keep]
  exact ⟨rfl, rfl, rfl, rfl⟩

/-- The bytes of a line after writes to it. -/
def lineAfter (base : Nat) (adr : Nat → Nat) (val : Nat → Byte) (L : List Nat) (old : List Byte) : List Byte :=
  L.foldl (fun bs i => bs.set (adr i - base) (val i)) old

theorem length_lineAfter (base : Nat) (adr : Nat → Nat) (val : Nat → Byte) (L : List Nat) (old : List Byte) :
    (lineAfter base adr val L old).length = old.length :=
  foldl_keeps _ List.length (fun _ _ => List.length_set) L old

theorem getD_set_other {α : Type} (bs : List α) (d x : α) {j k : Nat} (h : k ≠ j) : (bs.set k x).getD j d = bs.getD j d := by
  simp [List.getD_eq_getElem?_getD, List.getElem?_set_ne h]

theorem getD_lineAfter_other {base : Nat} {adr : Nat → Nat} {val : Nat → Byte} {L : List Nat} {old : List Byte} {j : Nat}
    (h : ∀ i ∈ L, adr i - base ≠ j) : (lineAfter base adr val L old).getD j 0 = old.getD j 0 :=
  read_foldl_other (fun (bs : List Byte) i => bs.set (adr i - base) (val i)) (fun bs => bs.getD j 0) (fun _ => True) (fun _ _ _ => trivial)
    trivial (fun i hi bs _ => getD_set_other bs 0 _ (h i hi))

theorem getD_lineAfter_last {base : Nat} {adr : Nat → Nat} {val : Nat → Byte} {L : List Nat} {old : List Byte} (sorted : L.Pairwise (· < ·))
    {i : Nat} (hi : i ∈ L) (inside : adr i - base < old.length) (last : ∀ j ∈ L, i < j → adr j - base ≠ adr i - base) :
    (lineAfter base adr val L old).getD (adr i - base) 0 = val i := by
  refine read_foldl_last (fun (bs : List Byte) i => bs.set (adr i - base) (val i)) (fun bs => bs.getD (adr i - base) 0)
    (fun bs => bs.length = old.length) (fun bs j h => List.length_set.trans h) sorted hi (fun bs h => ?_)
    (fun j hj lt bs _ => getD_set_other bs 0 _ (last j hj lt)) rfl
  simp [List.getD_eq_getElem?_getD, h, inside]

/-- Bytes of a copy in a line of its destination. -/
def CopyOp.inLine (c : CopyOp) (o : EngineOp) (key : LineKey) : List Nat :=
  (List.range (cpTotal c.desc)).filter (fun i =>
    (spaceLines (c.place o (dirSides (cpDir c.desc)).2).1 ((c.place o (dirSides (cpDir c.desc)).2).2 + cpTo c.desc i) 1).contains key)

theorem CopyOp.mem_inLine {c : CopyOp} {o : EngineOp} {key : LineKey} {i : Nat} : i ∈ c.inLine o key ↔ i < cpTotal c.desc ∧
    key ∈ spaceLines (c.place o (dirSides (cpDir c.desc)).2).1 ((c.place o (dirSides (cpDir c.desc)).2).2 + cpTo c.desc i) 1 := by
  simp [CopyOp.inLine]

theorem CopyOp.inLine_sorted (c : CopyOp) (o : EngineOp) (key : LineKey) : (c.inLine o key).Pairwise (· < ·) :=
  List.pairwise_lt_range.filter _

section
variable {s : State} {oid : Nat} {o : EngineOp} {c : CopyOp} {key : LineKey}

/-- Where byte i of a copy goes in its on-die destination. -/
def CopyOp.lands (c : CopyOp) (o : EngineOp) (i : Nat) : Nat := (c.place o (dirSides (cpDir c.desc)).2).2 + cpTo c.desc i

/-- A line of a copy's destination with the copy's bytes in it. -/
def State.newLine (s : State) (o : EngineOp) (c : CopyOp) (key : LineKey) : List Byte :=
  lineAfter (128 * (keyPlace key).2) (c.lands o) (s.copyByte o c) (c.inLine o key)
    ((s.holdCopy o c.desc (cpTotal c.desc)).spaceBytes (c.place o (dirSides (cpDir c.desc)).2).1 (128 * (keyPlace key).2) 128)

/-- The state in which a copy has written its bytes of a line (R288). -/
def State.lineWritten (s : State) (o : EngineOp) (c : CopyOp) (key : LineKey) : State :=
  (s.holdCopy o c.desc (cpTotal c.desc)).spaceWrite (c.place o (dirSides (cpDir c.desc)).2).1 (128 * (keyPlace key).2) (s.newLine o c key) none

theorem State.length_newLine (s : State) (o : EngineOp) (c : CopyOp) (key : LineKey) : (s.newLine o c key).length = 128 := by
  rw [State.newLine, length_lineAfter, State.spaceBytes_eq, List.length_map, List.length_range]

/-- A byte of a copy lies in the line that it is in. -/
theorem CopyOp.lands_inLine {c : CopyOp} {o : EngineOp} {key : LineKey} {i : Nat} (hi : i ∈ c.inLine o key) :
    128 * (keyPlace key).2 ≤ c.lands o i ∧ c.lands o i < 128 * (keyPlace key).2 + 128 := by
  have line := congrArg Prod.snd (mem_spaceLines_one.mp (CopyOp.mem_inLine.mp hi).2)
  rw [line, CopyOp.lands]
  dsimp only
  omega

theorem State.getD_newLine_last (s : State) {o : EngineOp} {c : CopyOp} {key : LineKey} {i : Nat} (hi : i ∈ c.inLine o key)
    (last : ∀ j, i < j → j < cpTotal c.desc → cpTo c.desc j ≠ cpTo c.desc i) :
    (s.newLine o c key).getD (c.lands o i - 128 * (keyPlace key).2) 0 = s.copyByte o c i := by
  obtain ⟨lo, up⟩ := CopyOp.lands_inLine hi
  have size := s.length_newLine o c key
  refine getD_lineAfter_last (c.inLine_sorted o key) hi ?_ (fun j hj lt e => last j lt (CopyOp.mem_inLine.mp hj).1 ?_)
  · rw [State.newLine, length_lineAfter] at size
    omega
  · obtain ⟨lo', -⟩ := CopyOp.lands_inLine hj
    have same : c.lands o j = c.lands o i := by omega
    exact Nat.add_left_cancel same

/-- A byte of a line that the copy does not write stays in it. -/
theorem State.getD_newLine_other (s : State) {o : EngineOp} {c : CopyOp} {key : LineKey} {a : Nat} (lo : 128 * (keyPlace key).2 ≤ a)
    (up : a < 128 * (keyPlace key).2 + 128) (other : ∀ i ∈ c.inLine o key, a ≠ c.lands o i) :
    (s.newLine o c key).getD (a - 128 * (keyPlace key).2) 0 = s.byteAt (c.place o (dirSides (cpDir c.desc)).2).1 a := by
  have stays : (s.newLine o c key).getD (a - 128 * (keyPlace key).2) 0 = _ := getD_lineAfter_other (fun i hi e => other i hi ?_)
  · have there : a - 128 * (keyPlace key).2 < 128 := by omega
    rw [stays, State.spaceBytes_eq, List.getD_eq_getElem?_getD, List.getElem?_map, List.getElem?_range there, Option.map_some,
      Option.getD_some, Nat.add_sub_cancel' lo]
    exact (Quiet.of_ctxs (s.holdCopy_rest _ _ _)).same.byteAt _ _
  · obtain ⟨lo', -⟩ := CopyOp.lands_inLine hi
    omega

/-- A line that a copy has written reads as its new bytes. -/
theorem State.byteAt_lineWritten {s : State} {o : EngineOp} {c : CopyOp} {key : LineKey} {a : Nat}
    (hs : s.hasSpace (c.place o (dirSides (cpDir c.desc)).2).1) (images : s.noImages) (lo : 128 * (keyPlace key).2 ≤ a)
    (up : a < 128 * (keyPlace key).2 + 128) : (s.lineWritten o c key).byteAt (c.place o (dirSides (cpDir c.desc)).2).1 a =
      (s.newLine o c key).getD (a - 128 * (keyPlace key).2) 0 := by
  have held : Quiet s (s.holdCopy o c.desc (cpTotal c.desc)) := Quiet.of_ctxs (s.holdCopy_rest _ _ _)
  have there : a - 128 * (keyPlace key).2 < (s.newLine o c key).length := by
    rw [s.length_newLine]
    omega
  have read := State.byteAt_spaceWrite (s.holdCopy o c.desc (cpTotal c.desc)) (a := 128 * (keyPlace key).2) none (held.hasSpace hs)
    (State.inImage_noImages (held.noImages images) _ _ _) there
  rwa [Nat.add_sub_cancel' lo] at read

/-- Writing a line changes the line alone. -/
theorem State.bytesKept_lineWritten (s : State) (o : EngineOp) (c : CopyOp) (key : LineKey) : BytesKept s (s.lineWritten o c key)
    (bytesFrom (c.place o (dirSides (cpDir c.desc)).2).1 (128 * (keyPlace key).2) 128) := by
  have wrote := (s.holdCopy o c.desc (cpTotal c.desc)).written_spaceWrite (c.place o (dirSides (cpDir c.desc)).2).1
    (128 * (keyPlace key).2) (s.newLine o c key) none
  rw [s.length_newLine] at wrote
  exact ((Quiet.of_ctxs (s.holdCopy_rest _ _ _)).same.bytesKept _).trans wrote.bytes

theorem State.sourceFree_sub {is : List Nat} (h : s.sourceFree o c (List.range (cpTotal c.desc)) = true) (sub : ∀ i ∈ is, i < cpTotal c.desc) :
    s.sourceFree o c is = true := by
  unfold State.sourceFree at *
  rw [Bool.or_eq_true, List.all_eq_true] at *
  exact h.imp_right (fun all i hi => all i (List.mem_range.mpr (sub i hi)))

theorem State.copyRelease_eq (owns : s.owns (.op o.oid) key = true) (free : s.sourceFree o c (List.range (cpTotal c.desc)) = true)
    (fine : s.firstFault o c = none) (plain : cpBb c.desc = false) (has : c.inLine o key ≠ []) :
    ∃ xs, s.copyRelease o c key = (((s.lineWritten o c key).keepPayload o xs).releaseLines (.op o.oid) [key]).modCopy o.oid
      (fun y => { y with released := key :: y.released }) := by
  have all : (c.inLine o key).filter (fun i => decide (i < cpTotal c.desc)) = c.inLine o key := by
    rw [List.filter_eq_self]
    exact fun i hi => decide_eq_true (CopyOp.mem_inLine.mp hi).1
  have limit : s.copyLimit o c = cpTotal c.desc := by rw [State.copyLimit, fine]; rfl
  have line : (c.inLine o key).isEmpty = false := by rwa [← Bool.not_eq_true, List.isEmpty_iff]
  have ready := State.sourceFree_sub free (is := c.inLine o key) (fun i hi => (CopyOp.mem_inLine.mp hi).1)
  have bind (y : CopyOp) (L : List Nat) : y.bind none L = y := rfl
  refine ⟨(c.inLine o key).map (fun i => (i, s.copyByte o c i)), ?_⟩
  unfold State.copyRelease
  rw [CopyOp.inLine] at *
  simp only [limit, all, line, ready, owns, fine, bind, State.copyArrive, plain]
  simp only [State.writeLine, List.foldl_map, List.map_map, Function.comp]
  rfl

/-- A line that a copy owns takes its bytes and is given up (R237, R288). -/
theorem lineRelease_writes (live : s.liveCopy oid = some (o, c)) (old : o.old = {}) (owns : s.owns (.op oid) key = true)
    (free : s.sourceFree o c (List.range (cpTotal c.desc)) = true) (fine : s.firstFault o c = none) (plain : cpBb c.desc = false)
    (hs : s.hasSpace (c.place o (dirSides (cpDir c.desc)).2).1) (images : s.noImages) (has : ∃ i, i ∈ c.inLine o key) :
    let sp := (c.place o (dirSides (cpDir c.desc)).2).1
    let adr (i : Nat) : Nat := (c.place o (dirSides (cpDir c.desc)).2).2 + cpTo c.desc i
    ∃ t, exec (.engineLineRelease oid key) s = .next t ∧
      (∀ i ∈ c.inLine o key, (∀ j, i < j → j < cpTotal c.desc → cpTo c.desc j ≠ cpTo c.desc i) → t.byteAt sp (adr i) = s.copyByte o c i) ∧
      BytesKept s t (fun x a => x = sp ∧ ∃ i ∈ c.inLine o key, a = adr i) ∧ t.owns (.op oid) key = false := by
  intro sp adr
  obtain ⟨ho, kind, going, fault⟩ := State.liveCopy_eq_some.mp live
  obtain rfl := State.op_oid ho
  obtain ⟨xs, release⟩ := State.copyRelease_eq owns free fine plain (List.ne_nil_of_mem has.choose_spec)
  have run : exec (.engineLineRelease o.oid key) s = .next (s.copyRelease o c key) := by
    change execEngineLineRelease o.oid key s = _
    simp only [execEngineLineRelease, State.opEvent_now ho old, kind, going, fault]
    rfl
  have after : Quiet (s.lineWritten o c key) (s.copyRelease o c key) := release ▸ State.quiet_released _ _ _ _ _ _
  refine ⟨_, run, fun i hi last => ?_, ?_, ?_⟩
  · obtain ⟨lo, up⟩ := CopyOp.lands_inLine hi
    exact (after.same.byteAt _ _).trans ((State.byteAt_lineWritten hs images lo up).trans (s.getD_newLine_last hi last))
  · have outside := (s.bytesKept_lineWritten o c key).trans (after.same.bytesKept _)
    refine ⟨outside.dram, outside.host, fun x a other => ?_⟩
    by_cases inside : bytesFrom sp (128 * (keyPlace key).2) 128 x a
    · obtain ⟨rfl, lo, up⟩ := inside
      exact (after.same.byteAt _ _).trans ((State.byteAt_lineWritten hs images lo up).trans
        (s.getD_newLine_other lo up (fun i hi e => other ⟨rfl, i, hi, e⟩)))
    · exact outside.onDie x a inside
  · rw [release]
    exact State.owns_releaseLines _ (.op o.oid) (List.mem_singleton_self key)

end

end Sys2Proof.Machine

namespace Sys2Proof.Machine

/-! ## Blocks of main memory that a copy writes (R289) -/

/-- A held entry translates whatever the tables are (R429). -/
theorem State.translate_eq (s : State) {x : Context} {va : Nat} {e : TlbEntry} (he : x.tlb.find? (fun e => e.page == va / 2 ^ 16) = some e)
    (k : Access) : s.translate x va k = if x.ttb2.getLsbD 0 then
      if k.allowed e.entry.toNat then
        .ok (e.entry.toNat / 2 ^ 6 % 4) (entryPa e.entry.toNat + va % (if e.big then 2 ^ 29 else 2 ^ 16))
      else .trap 0x19
    else .trap 0x18 := by
  rw [State.translate, State.pageEntry, he]
  cases x.ttb2.getLsbD 0 <;> rfl

theorem State.translate_held {s t : State} {x y : Context} {va : Nat} (v : y.ttb2 = x.ttb2)
    (same : y.tlb.find? (fun e => e.page == va / 2 ^ 16) = x.tlb.find? (fun e => e.page == va / 2 ^ 16))
    (hit : (x.tlb.find? (fun e => e.page == va / 2 ^ 16)).isSome = true) (k : Access) : t.translate y va k = s.translate x va k := by
  obtain ⟨e, he⟩ := Option.isSome_iff_exists.mp hit
  rw [s.translate_eq he, t.translate_eq (same.trans he), v]

/-- Different bytes of a block are written at different addresses. -/
theorem State.translate_inj {s : State} {x : Context} {va vb : Nat} (block : va / 64 = vb / 64)
    (hit : (x.tlb.find? (fun e => e.page == va / 2 ^ 16)).isSome = true) {k : Access} {tgt tgt' pa : Nat}
    (ha : s.translate x va k = .ok tgt pa) (hb : s.translate x vb k = .ok tgt' pa) : va = vb := by
  obtain ⟨e, he⟩ := Option.isSome_iff_exists.mp hit
  have page : vb / 2 ^ 16 = va / 2 ^ 16 := by omega
  rw [s.translate_eq he] at ha
  rw [s.translate_eq (page ▸ he)] at hb
  split at ha
  · split at ha
    · next valid allowed =>
      rw [if_pos valid, if_pos allowed] at hb
      have there := (Xlat.ok.inj ha).2.trans (Xlat.ok.inj hb).2.symm
      split at there <;> omega
    · cases ha
  · cases ha

/-- What a context holds of a page already stays. -/
structure HoldsPage (page : Nat) (x y : Context) : Prop where
  ttb2 : y.ttb2 = x.ttb2
  entry : y.tlb.find? (fun e => e.page == page) = x.tlb.find? (fun e => e.page == page)

theorem State.holdEntry_page {s : State} {ctx va page : Nat} {x : Context} (hx : s.ctx? ctx = some x)
    (hit : (x.tlb.find? (fun e => e.page == page)).isSome = true) :
    ∃ y, (s.holdEntry ctx va).ctx? ctx = some y ∧ HoldsPage page x y := by
  unfold State.holdEntry
  rw [hx]
  dsimp only
  split
  · exact ⟨x, hx, rfl, rfl⟩
  · next e big entry =>
    split
    · exact ⟨x, hx, rfl, rfl⟩
    · next new =>
      refine ⟨{ x with tlb := ⟨va / 2 ^ 16, big, BitVec.ofNat 64 e⟩ :: x.tlb }, State.ctx?_modCtx_same hx _ (fun _ => rfl), rfl,
        List.find?_cons_of_neg ?_⟩
      · intro h
        obtain ⟨k, hk⟩ := Option.isSome_iff_exists.mp hit
        refine new (List.any_eq_true.mpr ⟨k, List.mem_of_find?_eq_some hk, ?_⟩)
        have here := List.find?_some hk
        rw [beq_iff_eq] at h here ⊢
        exact here.trans h.symm

theorem State.holdCopy_page {s : State} {o : EngineOp} {d : List Byte} {n page : Nat} {x : Context} (hx : s.ctx? o.ctx = some x)
    (hit : (x.tlb.find? (fun e => e.page == page)).isSome = true) :
    ∃ y, (s.holdCopy o d n).ctx? o.ctx = some y ∧ HoldsPage page x y := by
  unfold State.holdCopy
  generalize (cpPages d true n ++ cpPages d false n).eraseDups = ps
  induction ps generalizing s x with
  | nil => exact ⟨x, hx, rfl, rfl⟩
  | cons p ps ih =>
    obtain ⟨y, hy, h⟩ := State.holdEntry_page (va := p * 2 ^ 16) hx hit
    obtain ⟨z, hz, g⟩ := ih hy (by rwa [h.entry])
    exact ⟨z, hz, g.ttb2.trans h.ttb2, g.entry.trans h.entry⟩

/-- An operation but for what it has read, lost and kept for its fold. -/
def EngineOp.steady (o : EngineOp) : EngineOp := { o with early := [], lost := [], payload := [] }

theorem State.beforeMain_eq (s outside : State) (o : EngineOp) (bs : List (Nat × Nat)) :
    Quiet s (s.beforeMain outside o bs) ∧ (s.beforeMain outside o bs).ops.map EngineOp.steady = s.ops.map EngineOp.steady := by
  unfold State.beforeMain
  extract_lets mine rival first races
  split
  · refine ⟨⟨rfl, rfl, rfl, rfl⟩, ?_⟩
    rw [List.map_map]
    refine List.map_congr_left (fun p _ => ?_)
    simp only [Function.comp]
    split <;> rfl
  · exact ⟨Quiet.refl s, rfl⟩

theorem State.takeLines_eq (s : State) (die core ctx : Nat) (ls : List (Nat × Nat)) :
    Quiet s (s.takeLines die core ctx ls) ∧ (s.takeLines die core ctx ls).ops = s.ops :=
  ⟨s.quiet_modDie die _ (fun _ => rfl), rfl⟩

theorem State.beforeTexWrite_eq (s : State) (ls : List (Nat × Nat)) :
    Quiet s (s.beforeTexWrite ls) ∧ (s.beforeTexWrite ls).ops = s.ops := by
  unfold State.beforeTexWrite
  generalize s.texReaders = rs
  induction rs generalizing s with
  | nil => exact ⟨Quiet.refl s, rfl⟩
  | cons r rs ih =>
    obtain ⟨quiet, ops⟩ := s.takeLines_eq r.1 r.2.1 r.2.2 ls
    obtain ⟨rest, same⟩ := ih (s.takeLines r.1 r.2.1 r.2.2 ls)
    exact ⟨quiet.trans rest, same.trans ops⟩

/-! ### The bytes of a block -/

/-- Bytes of a copy in a block of main memory that no other copy has won. -/
def CopyOp.inBlock (c : CopyOp) (o : EngineOp) (b : Nat) : List Nat :=
  ((List.range (cpTotal c.desc)).filter (fun i => cpTo c.desc i / 64 == b)).filter (fun i => !o.lost.contains (cpTo c.desc i))

theorem CopyOp.mem_inBlock {c : CopyOp} {o : EngineOp} {b i : Nat} :
    i ∈ c.inBlock o b ↔ i < cpTotal c.desc ∧ cpTo c.desc i / 64 = b ∧ cpTo c.desc i ∉ o.lost := by
  simp [CopyOp.inBlock, and_comm]

theorem CopyOp.inBlock_sorted (c : CopyOp) (o : EngineOp) (b : Nat) : (c.inBlock o b).Pairwise (· < ·) :=
  (List.pairwise_lt_range.filter _).filter _

/-- One byte of a copy written to main memory. -/
def State.writeByte (s : State) (o : EngineOp) (c : CopyOp) (y : Context) (t : State) (i : Nat) : State :=
  t.writeMain y (cpTo c.desc i) (s.copyByte o c i)

section
variable {s : State} {oid : Nat} {o : EngineOp} {c : CopyOp} {b : Nat} {x : Context}

/-- A block written: its bytes one after the other, between changes that leave main memory alone. -/
theorem State.copyBlock_eq (outside : State) (hx : s.ctx? o.ctx = some x) (main : (dirSides (cpDir c.desc)).2 = .main) (new : b ∉ c.written)
    (free : s.sourceFree o c (List.range (cpTotal c.desc)) = true) (fine : s.firstFault o c = none) (plain : cpBb c.desc = false)
    (has : ∃ i < cpTotal c.desc, cpTo c.desc i / 64 = b) (hit : (x.tlb.find? (fun e => e.page == 64 * b / 2 ^ 16)).isSome = true) :
    ∃ (u : State) (y : Context) (xs : List (Nat × Byte)), Quiet s u ∧ u.ops.map EngineOp.steady = s.ops.map EngineOp.steady ∧
      HoldsPage (64 * b / 2 ^ 16) x y ∧
      s.copyBlock outside o c b = (((c.inBlock o b).foldl (s.writeByte o c y) u).keepPayload o xs).modCopy o.oid
        (fun d => { d with written := b :: d.written }) := by
  obtain ⟨y, hy, page⟩ := State.holdCopy_page (d := c.desc) (n := cpTotal c.desc) hx hit
  let here := (List.range (cpTotal c.desc)).filter (fun i => cpTo c.desc i / 64 == b)
  have all : here.filter (fun i => decide (i < cpTotal c.desc)) = here := by
    rw [List.filter_eq_self]
    exact fun i hi => decide_eq_true (List.mem_range.mp (List.mem_filter.mp hi).1)
  have limit : s.copyLimit o c = cpTotal c.desc := by rw [State.copyLimit, fine]; rfl
  have busy : here.isEmpty = false := by
    obtain ⟨i, lt, e⟩ := has
    rw [← Bool.not_eq_true, List.isEmpty_iff]
    exact List.ne_nil_of_mem (List.mem_filter.mpr ⟨List.mem_range.mpr lt, by simpa using e⟩)
  have ready := State.sourceFree_sub free (is := here) (fun i hi => List.mem_range.mp (List.mem_filter.mp hi).1)
  have bind (d : CopyOp) (L : List Nat) : d.bind none L = d := rfl
  have written : c.written.contains b = false := by simpa using new
  have held := s.holdCopy_rest o c.desc (cpTotal c.desc)
  let xs := here.map (fun i => (i, s.copyByte o c i))
  let ys := (xs.map (fun d => (cpTo c.desc d.1, d.2))).filter (fun d => !o.lost.contains d.1)
  obtain ⟨quiet, ops⟩ := (s.holdCopy o c.desc (cpTotal c.desc)).beforeMain_eq outside o (s.physBytes y .write (ys.map (·.1)))
  obtain ⟨texQuiet, texOps⟩ := ((s.holdCopy o c.desc (cpTotal c.desc)).beforeMain outside o (s.physBytes y .write (ys.map (·.1)))).beforeTexWrite_eq
    (s.physLines y .write (ys.map (·.1)))
  refine ⟨_, y, xs, ((Quiet.of_ctxs held).trans quiet).trans texQuiet, ?_, page, ?_⟩
  · rw [texOps, ops]
    exact (congrArg (fun t : State => t.ops.map EngineOp.steady) held :)
  · have order : ys = (c.inBlock o b).map (fun i => (cpTo c.desc i, s.copyByte o c i)) := by
      simp only [ys, xs, List.map_map, List.filter_map]
      rfl
    have fold (t : State) : (c.inBlock o b).foldl (s.writeByte o c y) t = ys.foldl (fun t d => t.writeMain y d.1 d.2) t := by
      rw [order, List.foldl_map]
      rfl
    simp only [fold, State.copyBlock, limit, main, written, all, busy, ready, hy, fine, bind, State.copyArrive, plain, here]
    rfl

/-- A byte put where an address translates to (R235). -/
def State.putByte (t : State) (at_ : Xlat) (v : Byte) : State :=
  match at_ with
  | .trap _ => t
  | .ok tgt pa =>
    if tgt == 0 then { t with dram := t.dram.set pa v }
    else if tgt == 1 then { t with hostMem := t.hostMem.set pa v, outbound := t.outbound ++ [.write pa [v]] }
    else { t with outbound := t.outbound ++ [.peerWrite pa [v]] }

theorem State.writeMain_eq (t : State) {y : Context} {va : Nat} (v : Byte) (small : va < 2 ^ 72) :
    t.writeMain y va v = t.putByte (t.translate y va .write) v := by
  rw [State.writeMain, Nat.mod_eq_of_lt small]
  rfl

theorem State.get_putByte (t : State) (pa : Nat) (v : Byte) : Cells.get (t.putByte (.ok 0 pa) v).dram pa = v ∧
    Cells.get (t.putByte (.ok 1 pa) v).hostMem pa = v :=
  ⟨(Cells.get_set _ _ _ _).trans (if_pos rfl), (Cells.get_set _ _ _ _).trans (if_pos rfl)⟩

/-- A byte that a write does not name stays. -/
theorem State.get_putByte_other (t : State) (at_ : Xlat) (pa : Nat) (v : Byte) :
    (at_ ≠ .ok 0 pa → Cells.get (t.putByte at_ v).dram pa = Cells.get t.dram pa) ∧
      (at_ ≠ .ok 1 pa → Cells.get (t.putByte at_ v).hostMem pa = Cells.get t.hostMem pa) := by
  cases at_ with
  | trap k => exact ⟨fun _ => rfl, fun _ => rfl⟩
  | ok tgt q =>
    unfold State.putByte
    dsimp only
    split
    · next zero =>
      rw [beq_iff_eq] at zero
      exact ⟨fun h => (Cells.get_set _ _ _ _).trans (if_neg (fun e => h (by rw [zero, e]))), fun _ => rfl⟩
    · split
      · next one =>
        rw [beq_iff_eq] at one
        exact ⟨fun _ => rfl, fun h => (Cells.get_set _ _ _ _).trans (if_neg (fun e => h (by rw [one, e])))⟩
      · exact ⟨fun _ => rfl, fun _ => rfl⟩

/-- A write of main memory touches no on-die memory and no operation. -/
theorem State.putByte_rest (t : State) (at_ : Xlat) (v : Byte) : { t.putByte at_ v with dram := [], hostMem := [], outbound := [] } =
    { t with dram := [], hostMem := [], outbound := [] } := by
  cases at_ with
  | trap k => rfl
  | ok tgt q =>
    unfold State.putByte
    dsimp only
    split
    · rfl
    · split <;> rfl

end

theorem cpTo_lt (d : List Byte) (i : Nat) : cpTo d i < 2 ^ 72 := by
  unfold cpTo sideAddr
  split <;> omega

section
variable {s : State} {o : EngineOp} {c : CopyOp} {b : Nat} {x y : Context} (hit : (x.tlb.find? (fun e => e.page == 64 * b / 2 ^ 16)).isSome = true)
  (page : HoldsPage (64 * b / 2 ^ 16) x y)
include hit page

/-- Bytes of a block translate by the entry that is held. -/
theorem State.translate_inBlock {i : Nat} (hi : cpTo c.desc i / 64 = b) (t : State) :
    t.translate y (cpTo c.desc i) .write = s.translate x (cpTo c.desc i) .write := by
  have same : 64 * b / 2 ^ 16 = cpTo c.desc i / 2 ^ 16 := by omega
  rw [same] at hit page
  exact State.translate_held page.ttb2 page.entry hit .write

theorem State.writeByte_eq {i : Nat} (hi : cpTo c.desc i / 64 = b) (t : State) :
    s.writeByte o c y t i = t.putByte (s.translate x (cpTo c.desc i) .write) (s.copyByte o c i) := by
  rw [State.writeByte, State.writeMain_eq _ _ (cpTo_lt _ i), State.translate_inBlock (s := s) hit page hi]

/-- The last byte of a copy for an address stands there (R289). -/
theorem State.get_blockWritten (u : State) {i pa : Nat} (hi : i ∈ c.inBlock o b)
    (last : ∀ j, i < j → j < cpTotal c.desc → cpTo c.desc j ≠ cpTo c.desc i) :
    (s.translate x (cpTo c.desc i) .write = .ok 0 pa → Cells.get ((c.inBlock o b).foldl (s.writeByte o c y) u).dram pa = s.copyByte o c i) ∧
      (s.translate x (cpTo c.desc i) .write = .ok 1 pa →
        Cells.get ((c.inBlock o b).foldl (s.writeByte o c y) u).hostMem pa = s.copyByte o c i) := by
  obtain ⟨-, block, -⟩ := CopyOp.mem_inBlock.mp hi
  have apart (j : Nat) (hj : j ∈ c.inBlock o b) (lt : i < j) (tgt : Nat) (h : s.translate x (cpTo c.desc i) .write = .ok tgt pa) :
      s.translate x (cpTo c.desc j) .write ≠ .ok tgt pa := by
    obtain ⟨total, same, -⟩ := CopyOp.mem_inBlock.mp hj
    intro g
    refine last j lt total (State.translate_inj (same.trans block.symm) ?_ g h)
    rwa [show cpTo c.desc j / 2 ^ 16 = 64 * b / 2 ^ 16 by omega]
  have write (j : Nat) (hj : j ∈ c.inBlock o b) (t : State) := State.writeByte_eq (s := s) (o := o) hit page (CopyOp.mem_inBlock.mp hj).2.1 t
  refine ⟨fun h => ?_, fun h => ?_⟩
  · refine read_foldl_last (s.writeByte o c y) (fun t => Cells.get t.dram pa) (fun _ => True) (fun _ _ _ => trivial)
      (c.inBlock_sorted o b) hi (fun t _ => ?_) (fun j hj lt t _ => ?_) trivial
    · rw [write i hi, h]
      exact (t.get_putByte pa _).1
    · rw [write j hj]
      exact (t.get_putByte_other _ pa _).1 (apart j hj lt 0 h)
  · refine read_foldl_last (s.writeByte o c y) (fun t => Cells.get t.hostMem pa) (fun _ => True) (fun _ _ _ => trivial)
      (c.inBlock_sorted o b) hi (fun t _ => ?_) (fun j hj lt t _ => ?_) trivial
    · rw [write i hi, h]
      exact (t.get_putByte pa _).2
    · rw [write j hj]
      exact (t.get_putByte_other _ pa _).2 (apart j hj lt 1 h)

/-- A byte of main memory that no byte of the block translates to stays. -/
theorem State.get_blockWritten_other (u : State) (pa : Nat) :
    ((∀ i ∈ c.inBlock o b, s.translate x (cpTo c.desc i) .write ≠ .ok 0 pa) →
      Cells.get ((c.inBlock o b).foldl (s.writeByte o c y) u).dram pa = Cells.get u.dram pa) ∧
    ((∀ i ∈ c.inBlock o b, s.translate x (cpTo c.desc i) .write ≠ .ok 1 pa) →
      Cells.get ((c.inBlock o b).foldl (s.writeByte o c y) u).hostMem pa = Cells.get u.hostMem pa) := by
  have write (j : Nat) (hj : j ∈ c.inBlock o b) (t : State) := State.writeByte_eq (s := s) (o := o) hit page (CopyOp.mem_inBlock.mp hj).2.1 t
  refine ⟨fun h => ?_, fun h => ?_⟩
  · refine read_foldl_other (s.writeByte o c y) (fun t => Cells.get t.dram pa) (fun _ => True) (fun _ _ _ => trivial) trivial (fun j hj t _ => ?_)
    rw [write j hj]
    exact (t.get_putByte_other _ pa _).1 (h j hj)
  · refine read_foldl_other (s.writeByte o c y) (fun t => Cells.get t.hostMem pa) (fun _ => True) (fun _ _ _ => trivial) trivial (fun j hj t _ => ?_)
    rw [write j hj]
    exact (t.get_putByte_other _ pa _).2 (h j hj)

end

theorem State.writeByte_rest (s : State) (o : EngineOp) (c : CopyOp) (y : Context) (t : State) (i : Nat) :
    { s.writeByte o c y t i with dram := [], hostMem := [], outbound := [] } = { t with dram := [], hostMem := [], outbound := [] } := by
  rw [State.writeByte, State.writeMain_eq _ _ (cpTo_lt _ i)]
  exact t.putByte_rest _ _

/-- Writing a block touches main memory alone. -/
theorem State.blockWritten_rest (s : State) (o : EngineOp) (c : CopyOp) (y : Context) (L : List Nat) (u : State) :
    { L.foldl (s.writeByte o c y) u with dram := [], hostMem := [], outbound := [] } = { u with dram := [], hostMem := [], outbound := [] } :=
  foldl_keeps (s.writeByte o c y) (fun t : State => { t with dram := [], hostMem := [], outbound := [] }) (s.writeByte_rest o c y) L u

end Sys2Proof.Machine

namespace Sys2Proof.Machine

theorem EngineOp.of_steady {p o : EngineOp} (h : p.steady = o.steady) : p.kind = o.kind ∧ p.complete = o.complete ∧ p.fault = o.fault :=
  ⟨(congrArg EngineOp.kind h :), (congrArg EngineOp.complete h :), (congrArg EngineOp.fault h :)⟩

/-- An operation found again after changes that leave it steady. -/
theorem State.op?_steady {s t : State} (h : t.ops.map EngineOp.steady = s.ops.map EngineOp.steady) {oid : Nat} {o : EngineOp}
    (ho : s.op? oid = some o) : ∃ p, t.op? oid = some p ∧ p.steady = o.steady := by
  have e := State.op?_of_map EngineOp.steady EngineOp.oid (fun _ => rfl) h oid
  rw [ho, Option.map_some, Option.map_eq_some_iff] at e
  exact e

/-- A live copy stays live after changes that leave the operations steady, with what it has released or written meanwhile. -/
theorem State.liveCopy_modCopy {s t : State} (h : t.ops.map EngineOp.steady = s.ops.map EngineOp.steady) {oid : Nat} {o : EngineOp} {c : CopyOp}
    (live : s.liveCopy oid = some (o, c)) (f : CopyOp → CopyOp) : ∃ p, (t.modCopy oid f).liveCopy oid = some (p, f c) := by
  obtain ⟨ho, kind, going, fault⟩ := State.liveCopy_eq_some.mp live
  obtain ⟨p, hp, steady⟩ := State.op?_steady h ho
  obtain ⟨k, g, e⟩ := EngineOp.of_steady steady
  have found : (t.modCopy oid f).op? oid = some { p with kind := .copy (f c) } := by
    refine (State.op?_modOp t oid oid _ (fun o => by split <;> rfl)).trans ?_
    rw [hp, Option.map_some, if_pos rfl, k, kind]
  exact ⟨_, State.liveCopy_eq_some.mpr ⟨found, rfl, g.trans going, e.trans fault⟩⟩

theorem State.keepPayload_steady (s : State) (o : EngineOp) (xs : List (Nat × Byte)) :
    (s.keepPayload o xs).ops.map EngineOp.steady = s.ops.map EngineOp.steady := by
  obtain ⟨f, hf, e⟩ := s.keepPayload_eq o xs
  rw [e, State.modOp, List.map_map]
  refine List.map_congr_left (fun p _ => ?_)
  simp only [Function.comp]
  split
  · obtain ⟨ys, h⟩ := hf p
    rw [h]
    rfl
  · rfl

theorem State.quiet_keepPayload (s : State) (o : EngineOp) (xs : List (Nat × Byte)) : Quiet s (s.keepPayload o xs) := by
  obtain ⟨f, -, e⟩ := s.keepPayload_eq o xs
  rw [e]
  exact s.quiet_modOp _ _

/-- A block of main memory that a copy writes (R289, R243). -/
theorem blockWritten_writes {s : State} {oid : Nat} {o : EngineOp} {c : CopyOp} {b : Nat} {x : Context}
    (live : s.liveCopy oid = some (o, c)) (old : o.old = {}) (main : (dirSides (cpDir c.desc)).2 = .main) (new : b ∉ c.written)
    (hx : s.ctx? o.ctx = some x) (free : s.sourceFree o c (List.range (cpTotal c.desc)) = true) (fine : s.firstFault o c = none)
    (plain : cpBb c.desc = false) (has : ∃ i < cpTotal c.desc, cpTo c.desc i / 64 = b)
    (hit : (x.tlb.find? (fun e => e.page == 64 * b / 2 ^ 16)).isSome = true) :
    ∃ t, exec (.copyBlockWritten oid b) s = .next t ∧ (∀ sp a, t.byteAt sp a = s.byteAt sp a) ∧
      (∀ i ∈ c.inBlock o b, (∀ j, i < j → j < cpTotal c.desc → cpTo c.desc j ≠ cpTo c.desc i) → ∀ pa,
        (s.translate x (cpTo c.desc i) .write = .ok 0 pa → Cells.get t.dram pa = s.copyByte o c i) ∧
        (s.translate x (cpTo c.desc i) .write = .ok 1 pa → Cells.get t.hostMem pa = s.copyByte o c i)) ∧
      (∀ pa, ((∀ i ∈ c.inBlock o b, s.translate x (cpTo c.desc i) .write ≠ .ok 0 pa) → Cells.get t.dram pa = Cells.get s.dram pa) ∧
        ((∀ i ∈ c.inBlock o b, s.translate x (cpTo c.desc i) .write ≠ .ok 1 pa) → Cells.get t.hostMem pa = Cells.get s.hostMem pa)) ∧
      ∃ p, t.liveCopy oid = some (p, { c with written := b :: c.written }) := by
  obtain rfl := State.op_oid (State.liveCopy_eq_some.mp live).1
  obtain ⟨u, y, xs, before, steady, page, e⟩ := State.copyBlock_eq s hx main new free fine plain has hit
  let w := (c.inBlock o b).foldl (s.writeByte o c y) u
  have rest : { w with dram := [], hostMem := [], outbound := [] } = { u with dram := [], hostMem := [], outbound := [] } :=
    s.blockWritten_rest o c y (c.inBlock o b) u
  have after : Quiet w (s.copyBlock s o c b) := e ▸ (w.quiet_keepPayload o xs).trans (State.quiet_modOp _ _ _)
  have onDie (sp : Space) (a : Nat) : w.byteAt sp a = u.byteAt sp a := (congrArg (fun t : State => t.byteAt sp a) rest :)
  refine ⟨s.copyBlock s o c b, ?_, fun sp a => ?_, fun i hi last pa => ?_, fun pa => ?_, ?_⟩
  · change execCopyBlockWritten o.oid b s = _
    simp only [execCopyBlockWritten, State.copyEvent_now live old]
  · exact (after.same.byteAt sp a).trans ((onDie sp a).trans (before.same.byteAt sp a))
  · rw [after.dram, after.host]
    exact State.get_blockWritten hit page u hi last
  · rw [after.dram, after.host, ← before.dram, ← before.host]
    exact State.get_blockWritten_other hit page u pa
  · have same : (w.keepPayload o xs).ops.map EngineOp.steady = s.ops.map EngineOp.steady :=
      (w.keepPayload_steady o xs).trans ((congrArg (fun t : State => t.ops.map EngineOp.steady) rest :).trans steady)
    rw [e]
    exact State.liveCopy_modCopy same live (fun d => { d with written := b :: d.written })

end Sys2Proof.Machine

namespace Sys2Proof.Machine

/-! ## Operations under old registers (R31) -/

/-- The context of an operation and the registers with which it was issued. -/
def EngineOp.issued (o : EngineOp) : Nat × OldRegs := (o.ctx, o.old)

/-- The operations of a context were all issued under given registers. -/
def State.IssuedUnder (s : State) (ctx : Nat) (old : OldRegs) : Prop := ∀ x ∈ s.ops, x.ctx = ctx → x.old = old

theorem State.IssuedUnder.of_issued {s t : State} {ctx : Nat} {old : OldRegs} (h : s.IssuedUnder ctx old)
    (e : t.ops.map EngineOp.issued = s.ops.map EngineOp.issued) : t.IssuedUnder ctx old := by
  intro x hx same
  have hm : x.issued ∈ s.ops.map EngineOp.issued := e ▸ List.mem_map_of_mem hx
  obtain ⟨y, hy, pair⟩ := List.mem_map.mp hm
  rw [EngineOp.issued, EngineOp.issued, Prod.mk.injEq] at pair
  exact pair.2 ▸ h y hy (pair.1.trans same)

/-- Changes of operations that leave what they were issued under. -/
theorem map_issued {xs : List EngineOp} {f : EngineOp → EngineOp} (h : ∀ x, (f x).issued = x.issued) :
    (xs.map f).map EngineOp.issued = xs.map EngineOp.issued := by
  rw [List.map_map]
  exact List.map_congr_left (fun x _ => h x)

theorem State.issued_modOp (s : State) (k : Nat) (f : EngineOp → EngineOp) (h : ∀ x, (f x).issued = x.issued) :
    (s.modOp k f).ops.map EngineOp.issued = s.ops.map EngineOp.issued :=
  map_issued (fun x => by split; exacts [h x, rfl])

theorem State.issued_spaceWrite (s : State) (sp : Space) (a : Nat) (bs : List Byte) (k : Option (Nat × Nat)) :
    (s.spaceWrite sp a bs k).ops.map EngineOp.issued = s.ops.map EngineOp.issued := by
  have e (x : State) : x.ops.map EngineOp.issued = x.bare.ops.map EngineOp.issued :=
    (map_issued (f := EngineOp.bare) (fun _ => rfl)).symm
  rw [e, (s.written_spaceWrite sp a bs k).rest, ← e]

theorem State.issued_keepPayload (s : State) (o : EngineOp) (xs : List (Nat × Byte)) :
    (s.keepPayload o xs).ops.map EngineOp.issued = s.ops.map EngineOp.issued := by
  obtain ⟨f, hf, e⟩ := s.keepPayload_eq o xs
  rw [e]
  exact s.issued_modOp _ f (fun x => by obtain ⟨ys, h⟩ := hf x; rw [h]; rfl)

theorem State.issued_modCopy (s : State) (k : Nat) (f : CopyOp → CopyOp) :
    (s.modCopy k f).ops.map EngineOp.issued = s.ops.map EngineOp.issued :=
  s.issued_modOp k _ (fun x => by split <;> rfl)

theorem State.issued_copyArrive (s : State) (o : EngineOp) (d : List Byte) (n : Nat) :
    (s.copyArrive o d n).ops.map EngineOp.issued = s.ops.map EngineOp.issued := by
  unfold State.copyArrive State.arriveBytes
  split
  · dsimp only
    split
    · rfl
    · exact s.issued_spaceWrite _ _ _ _
  · rfl

theorem State.holdCopy_ops (s : State) (o : EngineOp) (d : List Byte) (n : Nat) : (s.holdCopy o d n).ops = s.ops :=
  (congrArg State.ops (s.holdCopy_rest o d n) :)

theorem State.issued_copyRelease (s : State) (o : EngineOp) (c : CopyOp) (key : LineKey) :
    (s.copyRelease o c key).ops.map EngineOp.issued = s.ops.map EngineOp.issued := by
  unfold State.copyRelease
  extract_lets x pl limit here is xs s1 s2
  split
  · rw [State.issued_copyArrive, State.issued_modCopy]
    refine (s1.issued_keepPayload o xs).trans ((State.issued_spaceWrite _ _ _ _ _).trans ?_)
    rw [State.holdCopy_ops]
  · rfl

theorem State.issued_beforeMain (s outside : State) (o : EngineOp) (bs : List (Nat × Nat)) :
    (s.beforeMain outside o bs).ops.map EngineOp.issued = s.ops.map EngineOp.issued := by
  have e (x : State) : x.ops.map EngineOp.issued = (x.ops.map EngineOp.steady).map EngineOp.issued :=
    (map_issued (f := EngineOp.steady) (fun _ => rfl)).symm
  rw [e, (s.beforeMain_eq outside o bs).2, ← e]

theorem State.writeMain_ops (s : State) (c : Context) (va : Nat) (b : Byte) : (s.writeMain c va b).ops = s.ops := by
  unfold State.writeMain
  split
  · rfl
  · split
    · rfl
    · split <;> rfl

theorem State.writeMains_ops (ys : List (Nat × Byte)) (c : Context) (s : State) :
    (ys.foldl (fun s y => s.writeMain c y.1 y.2) s).ops = s.ops :=
  foldl_keeps _ State.ops (fun t y => t.writeMain_ops c y.1 y.2) ys s

theorem State.issued_copyBlock (s outside : State) (o : EngineOp) (c : CopyOp) (b : Nat) :
    (s.copyBlock outside o c b).ops.map EngineOp.issued = s.ops.map EngineOp.issued := by
  unfold State.copyBlock
  dsimp only
  split
  · split
    · rfl
    · rw [State.issued_copyArrive, State.issued_modCopy]
      refine (State.issued_keepPayload _ o _).trans ?_
      rw [State.writeMains_ops, (State.beforeTexWrite_eq _ _).2, State.issued_beforeMain, State.holdCopy_ops]
  · rfl

/-- The registers as they are now matter to what copies read and win only as those under which each was issued (R31, R243). -/
theorem State.beforeMain_outside {s a b : State} (h : ∀ p ∈ s.ops, p.context a = p.context b) (o : EngineOp) (bs : List (Nat × Nat)) :
    s.beforeMain a o bs = s.beforeMain b o bs := by
  have unread (p : EngineOp) (hp : p ∈ s.ops) : s.unreadOf a p bs = s.unreadOf b p bs := by
    rw [State.unreadOf, State.unreadOf, h p hp]
  have unwritten (p : EngineOp) (hp : p ∈ s.ops) : s.unwrittenOf a p bs = s.unwrittenOf b p bs := by
    rw [State.unwrittenOf, State.unwrittenOf, h p hp]
  have word (p : EngineOp) (hp : p ∈ s.ops) : s.mainWord a p = s.mainWord b p := by
    funext va
    rw [State.mainWord, State.mainWord, h p hp]
  unfold State.beforeMain
  extract_lets mine rival first racesA racesB
  have races : s.ops.any (fun p => rival p && racesA p) = s.ops.any (fun p => rival p && racesB p) := by
    rw [Bool.eq_iff_iff, List.any_eq_true, List.any_eq_true]
    exact exists_congr fun p => and_congr_right fun hp => by simp only [racesA, racesB, unread p hp, unwritten p hp]
  rw [races]
  split
  · refine congrArg (fun xs => { s with fresh := s.fresh + 1, ops := xs }) (List.map_congr_left fun p hp => ?_)
    simp only [unread p hp, unwritten p hp, word p hp]
  · rfl

/-- Operations issued under the old registers see the same context under them. -/
theorem EngineOp.context_seenUnder {s : State} {ctx : Nat} {old : OldRegs} {p : EngineOp} (h : p.ctx = ctx → p.old = old) :
    p.context s = p.context (s.seenUnder ctx old) := by
  rw [EngineOp.context, EngineOp.context, s.seenUnder_eq, State.ctx?_modCtx _ _ _ _ (fun x => x.id_under old), Option.map_map]
  refine Option.map_congr (fun x _ => ?_)
  simp only [Function.comp]
  split
  · next same => rw [h same, x.under_under rfl]
  · rfl

section
variable {s : State} {ctx : Nat} {old : OldRegs} {t : State} (h : t.IssuedUnder ctx old)
include h

theorem State.copyBlock_outside (o : EngineOp) (c : CopyOp) (b : Nat) :
    t.copyBlock s o c b = t.copyBlock (s.seenUnder ctx old) o c b := by
  have before (d : List Byte) (n : Nat) (bs : List (Nat × Nat)) :
      (t.holdCopy o d n).beforeMain s o bs = (t.holdCopy o d n).beforeMain (s.seenUnder ctx old) o bs :=
    State.beforeMain_outside (fun p hp => EngineOp.context_seenUnder (h p (by rwa [State.holdCopy_ops] at hp))) o bs
  simp only [State.copyBlock, before]

theorem State.writeEarlier_outside (o : EngineOp) (c : CopyOp) (limit : Nat) :
    t.writeEarlier s o c limit = t.writeEarlier (s.seenUnder ctx old) o c limit := by
  unfold State.writeEarlier
  extract_lets ks u
  have release (t : State) (k : LineKey) : (if c.released.contains k then t else t.copyRelease o c k).ops.map EngineOp.issued =
      t.ops.map EngineOp.issued := by
    split
    · rfl
    · exact t.issued_copyRelease o c k
  have lines : u.IssuedUnder ctx old := h.of_issued (foldl_keeps (fun s k => if c.released.contains k then s else s.copyRelease o c k)
    (fun t => t.ops.map EngineOp.issued) release ks t)
  generalize c.blocks limit = bs
  clear_value u
  induction bs generalizing u with
  | nil => rw [List.foldl_nil, List.foldl_nil]
  | cons b bs ih =>
    rw [List.foldl_cons, List.foldl_cons]
    split
    · exact ih u lines
    · rw [State.copyBlock_outside lines]
      exact ih _ (lines.of_issued (u.issued_copyBlock _ o c b))

end

theorem State.seenUnder_ops (s : State) (ctx : Nat) (o : OldRegs) : (s.seenUnder ctx o).ops = s.ops := by
  rw [s.seenUnder_eq]
  rfl

/-- An event of an operation issued under old registers goes on as under those and keeps the registers (R31). -/
theorem State.opEvent_seenUnder {s u : State} {oid : Nat} {o : EngineOp} {c : Context} (ho : s.op? oid = some o)
    (hc : s.ctx? o.ctx = some c) {f g : State → EngineOp → State} (same : f (s.seenUnder o.ctx o.old) o = g (s.seenUnder o.ctx o.old) o)
    (h : (s.seenUnder o.ctx o.old).opEvent oid g = u) : s.opEvent oid f = u.modCtx o.ctx (·.under (c.like o.old)) := by
  have here : (s.seenUnder o.ctx o.old).op? oid = some o := by rw [State.op?, s.seenUnder_ops]; exact ho
  simp only [State.opEvent, here] at h
  simp only [State.opEvent, ho]
  rw [State.under_seenUnder hc o.old, ← h, State.under_eq (State.ctx?_seenUnder hc o.old), State.under_eq (State.ctx?_seenUnder hc o.old),
    State.seenUnder_seenUnder, same]

/-- Events of an operation issued under old registers (R31). -/
theorem op_events_under {s u : State} {oid : Nat} {o : EngineOp} {c : Context} {key : LineKey} {b : Nat} (ho : s.op? oid = some o)
    (hc : s.ctx? o.ctx = some c) (e : Instr) (he : e ∈ [Instr.engineLineRelease oid key, .copyBlockWritten oid b,
      .remoteLineAcquisition oid, .copyComplete oid, .copyFault oid, .forwardedRecordArrival oid])
    (issued : e = .copyBlockWritten oid b ∨ e = .copyFault oid → s.IssuedUnder o.ctx o.old)
    (h : exec e (s.seenUnder o.ctx o.old) = .next u) : exec e s = .next (u.modCtx o.ctx (·.under (c.like o.old))) := by
  have event {f g : State → EngineOp → State} (same : f (s.seenUnder o.ctx o.old) o = g (s.seenUnder o.ctx o.old) o)
      (h : Host.Outcome.next (φ := Fault) (ρ := Refusal) ((s.seenUnder o.ctx o.old).opEvent oid g) = .next u) :
      Host.Outcome.next (φ := Fault) (ρ := Refusal) (s.opEvent oid f) = .next (u.modCtx o.ctx (·.under (c.like o.old))) :=
    congrArg _ (State.opEvent_seenUnder ho hc same (Host.Outcome.next.inj h))
  have there (h : s.IssuedUnder o.ctx o.old) : (s.seenUnder o.ctx o.old).IssuedUnder o.ctx o.old :=
    h.of_issued (by rw [s.seenUnder_ops])
  simp only [List.mem_cons, List.not_mem_nil, or_false] at he
  obtain rfl | rfl | rfl | rfl | rfl | rfl := he
  · exact event rfl h
  · refine event ?_ h
    dsimp only
    split
    · exact State.copyBlock_outside (there (issued (.inl rfl))) _ _ _
    · rfl
  · exact event rfl h
  · exact event rfl h
  · refine event ?_ h
    dsimp only
    split
    · simp only [State.writeEarlier_outside (s := s) (there (issued (.inr rfl)))]
    · rfl
  · exact event rfl h

end Sys2Proof.Machine

namespace Sys2Proof.Machine

/-! ## The events of copies, clears and forwarded records -/

/-- Settles O44: `lineRelease_writes` and `blockWritten_writes` for what a copy writes, `remoteLines_asked`, `finishCopy_ends` and
`copyFault_faults` for its other events, `clearRelease_clears` for wb.clr, the `forwardedRecord_` lemmas for R365, and
`op_events_under` for operations issued under old registers. -/
theorem copyEventResults : Obligations.CopyEventResults := by
  refine ⟨fun s oid key o c live old _ owns free fine plain hs images => ?_,
    fun s oid o c b x live old main new hx free fine plain has hit => ?_, fun s oid o c live old dst new => remoteLines_asked live old dst new,
    fun s oid o c live old fine wrote => finishCopy_ends live old fine wrote, fun s oid o c i code faddr live old first wrote plain => ?_,
    fun s oid key o off len rel ho old kind going owns hs images => clearRelease_clears ho old kind going owns hs images,
    fun s oid o n bs ho old kind going hd images turn => ?_,
    fun s oid o c u key b ho hc _ e he issued h => op_events_under ho hc e he issued h⟩
  · intro sp adr here has
    obtain ⟨i, hi⟩ := has
    obtain ⟨t, run, bytes, kept, gone⟩ := lineRelease_writes live old owns free fine plain hs images ⟨i, CopyOp.mem_inLine.mpr hi⟩
    exact ⟨t, run, fun i hi last => bytes i (CopyOp.mem_inLine.mpr hi) last,
      kept.mono (fun x a ⟨same, i, hi, e⟩ => ⟨same, i, CopyOp.mem_inLine.mp hi, e⟩), gone⟩
  · intro to_
    obtain ⟨t, run, onDie, bytes, others, p, hp⟩ := blockWritten_writes live old main new hx free fine plain has hit
    refine ⟨t, run, onDie, fun i pa last => ⟨fun h => ?_, fun h => ?_⟩, fun pa => ⟨fun h => (others pa).1 fun i hi e => ?_,
      fun h => (others pa).2 fun i hi e => ?_⟩, p, _, hp, rfl⟩
    · exact (bytes i (CopyOp.mem_inBlock.mpr ⟨h.1, h.2.1, h.2.2.1⟩) last pa).1 h.2.2.2
    · exact (bytes i (CopyOp.mem_inBlock.mpr ⟨h.1, h.2.1, h.2.2.1⟩) last pa).2 h.2.2.2
    · obtain ⟨total, block, won⟩ := CopyOp.mem_inBlock.mp hi
      exact h i ⟨total, block, won, e⟩
    · obtain ⟨total, block, won⟩ := CopyOp.mem_inBlock.mp hi
      exact h i ⟨total, block, won, e⟩
  · obtain ⟨stays, gone, quiet⟩ := State.faultCopy_spec (State.liveCopy_eq_some.mp live).1 c code faddr plain
    exact ⟨_, copyFault_faults live old first wrote, stays, gone, quiet.same⟩
  · intro d r i
    refine ⟨fun a grid place owned => forwardedRecord_waits ho old kind going turn grid place owned, fun a grid place free => ?_,
      fun bad => forwardedRecord_dropped ho old kind going turn hd bad⟩
    obtain ⟨t, run, gone, bytes, kept, render⟩ := forwardedRecord_arrives ho old kind going turn hd images grid place free
    refine ⟨t, run, gone, bytes, kept, ?_, ?_⟩
    · rw [render]
      exact (congrArg BitVec.toNat (Cells.get_set _ _ _ _)).trans (by simp [i, r, d])
    · rw [render]
      exact (congrArg BitVec.toNat (Cells.get_set _ _ _ _)).trans (by simp [r, d])

end Sys2Proof.Machine

namespace Sys2Proof.Machine

/-! ## What pre-emption leaves of the machine -/

@[simp] theorem State.putRecord_blocks (s : State) (w : Warp) (r : Record) : (s.putRecord w r).blocks = s.blocks := by
  unfold State.putRecord; split <;> rfl

theorem State.addRecord_blocks (s : State) (wid : Nat) (mk : Nat → Record) : (s.addRecord wid mk).blocks = s.blocks := by
  unfold State.addRecord
  split
  · rfl
  · rw [State.putRecord_blocks]
    rfl

theorem State.bare_addRecord (s : State) (wid : Nat) (mk : Nat → Record) : (s.addRecord wid mk).bare = s.bare := by
  unfold State.addRecord
  split
  · rfl
  · rw [State.bare_putRecord]
    rfl

theorem State.bare_preemptSet (s : State) (wid : Nat) (x : (Nat × Nat × Nat) × List Nat) : (s.preemptSet wid x).bare = s.bare := by
  unfold State.preemptSet
  split
  · rfl
  · simp only
    split <;> exact State.bare_addRecord _ _ _

theorem State.preemptSet_blocks (s : State) (wid : Nat) (x : (Nat × Nat × Nat) × List Nat) : (s.preemptSet wid x).blocks = s.blocks := by
  unfold State.preemptSet
  split
  · rfl
  · simp only
    split <;> exact State.addRecord_blocks _ _ _

theorem State.bare_preemptWarp (s : State) (wid : Nat) : (s.preemptWarp wid).bare = s.bare := by
  unfold State.preemptWarp
  split
  · rfl
  · exact foldl_keeps _ State.bare (fun s x => s.bare_preemptSet wid x) _ _

theorem State.preemptWarp_blocks (s : State) (wid : Nat) : (s.preemptWarp wid).blocks = s.blocks := by
  unfold State.preemptWarp
  split
  · rfl
  · exact foldl_keeps _ State.blocks (fun s x => s.preemptSet_blocks wid x) _ _

theorem State.bare_preemptBlock (s : State) (b : Block) : (s.preemptBlock b).bare = s.bare :=
  foldl_keeps _ State.bare (fun s (w : Warp) => s.bare_preemptWarp w.wid) _ _

theorem State.preemptBlock_blocks (s : State) (b : Block) : (s.preemptBlock b).blocks = s.blocks :=
  foldl_keeps _ State.blocks (fun s (w : Warp) => s.preemptWarp_blocks w.wid) _ _

theorem State.queues_of_bare {s t : State} (h : t.bare = s.bare) : t.queues = s.queues := (congrArg State.queues h :)
theorem State.launches_of_bare {s t : State} (h : t.bare = s.bare) : t.launches = s.launches := (congrArg State.launches h :)

/-! ## A block that is saved or switched out -/

theorem State.find_bid {s : State} {v : Nat} {b : Block} (h : s.block? v = some b) : b.bid = v := by
  have := List.find?_some h
  simpa using this

/-- A block that begins its save is saving. -/
theorem State.block?_beginSave {s : State} {bid : Nat} {b : Block} (hb : s.block? bid = some b) (own : b.bid = bid) :
    ∃ c, (s.beginSave b).block? bid = some c ∧ c.residency = .saving := by
  have same : (s.preemptBlock b).block? bid = some b := by
    rw [State.block?, State.preemptBlock_blocks]
    exact hb
  simp only [State.beginSave]
  refine ⟨_, (State.block?_modBlock _ _ _ _ ?_).trans (by rw [same, Option.map_some, if_pos own.symm]), rfl⟩
  exact fun _ => rfl

/-- A drain that has lasted 2^20 cycles becomes a save (R435). -/
theorem drainTimeout_saves {s : State} {bid n : Nat} {b : Block} (hb : s.block? bid = some b) (drains : b.residency = .draining n)
    (late : n + 2 ^ 20 ≤ (s.die b.die).clkr) :
    ∃ t c, exec (.drainTimeout bid) s = .next t ∧ t.block? bid = some c ∧ c.residency = .saving := by
  obtain ⟨c, found, saving⟩ := State.block?_beginSave hb (State.find_bid hb)
  refine ⟨s.beginSave b, c, ?_, found, saving⟩
  change execDrainTimeout bid s = _
  simp only [execDrainTimeout, hb, drains, late, if_true]

theorem State.beginSave_queues (s : State) (b : Block) : (s.beginSave b).queues = s.queues :=
  (State.queues_of_bare (s.bare_preemptBlock b) :)

/-- A block that begins to leave its core leaves the queues. -/
theorem State.switchBlock_queues (s : State) (q : Nat) (b : Block) : (s.switchBlock q b).queues = s.queues := by
  unfold State.switchBlock
  split
  · rfl
  · rfl
  · exact s.beginSave_queues b
  · rfl

/-! ## Queues -/

@[simp] theorem State.queue_modQueue {s : State} {q : Nat} (hq : q < s.queues.length) (f : Queue → Queue) :
    (s.modQueue q f).queue q = f (s.queue q) := by
  simp [State.queue, State.modQueue, hq]

@[simp] theorem State.length_modQueue (s : State) (q : Nat) (f : Queue → Queue) :
    (s.modQueue q f).queues.length = s.queues.length := by
  simp [State.modQueue]

/-- A queue of which a field differs from that of an absent one exists. -/
theorem State.lt_of_queue_ne {s : State} {q : Nat} (h : s.queue q ≠ {}) : q < s.queues.length := by
  by_contra far
  exact h (by simp [State.queue, List.getElem?_eq_none (Nat.le_of_not_lt far)])

/-- A queue that is switched out is out once none of its blocks is on a core, and stays disabled until then. -/
theorem State.switchQueue_out {s : State} {q : Nat} (hq : q < s.queues.length) (off : (s.queue q).en = false)
    (out : (s.queue q).switching = .out) : ((s.switchQueue q).queue q).en = false ∧
      ((s.queueBlocks q).any (·.onCore) = false → ((s.switchQueue q).queue q).swIn = false ∧ ((s.switchQueue q).queue q).switching = .idle) := by
  simp only [State.switchQueue, out]
  split
  · next busy => exact ⟨off, fun idle => absurd busy (by simp [idle])⟩
  · rw [State.queue_modQueue hq]
    exact ⟨off, fun _ => ⟨rfl, rfl⟩⟩

/-- A queue switches out (R460). -/
theorem queueSwitchOut_leaves {s : State} {q : Nat} (hq : q < s.queues.length) (on : (s.queue q).en = true) :
    ∃ t, exec (.queueSwitchOut q) s = .next t ∧ (t.queue q).en = false ∧
      ((∀ b ∈ s.queueBlocks q, b.onCore = false) → (t.queue q).swIn = false ∧ (t.queue q).switching = .idle) := by
  let s2 := (s.modQueue q (fun x => { x with en := false, progShown := some x.prog })).modQueue q
    (fun x => { x with switching := .out })
  let leaving := (s2.queueBlocks q).filter (fun b => b.residency == .resident)
  let s3 := leaving.foldl (fun s b => s.switchBlock q b) s2
  have queues : s3.queues = s2.queues := foldl_keeps _ State.queues (fun s (b : Block) => s.switchBlock_queues q b) _ _
  have now : s3.queue q = { s.queue q with en := false, progShown := some (s.queue q).prog, switching := .out } := by
    rw [State.queue, queues]
    exact (State.queue_modQueue (by simpa using hq) _).trans (by rw [State.queue_modQueue hq])
  obtain ⟨off, idle⟩ := State.switchQueue_out (s := s3) (q := q) (by rw [queues]; simpa [s2] using hq) (by rw [now]) (by rw [now])
  refine ⟨s3.switchQueue q, ?_, off, fun gone => idle ?_⟩
  · change execQueueSwitchOut q s = _
    simp only [execQueueSwitchOut, State.setEnable, on]
    rfl
  · have none : leaving = [] := List.filter_eq_nil_iff.mpr fun b hb => by
      have off := gone b hb
      cases h : b.residency <;> simp_all [Block.onCore]
    have same : s3 = s2 := by simp only [s3, none, List.foldl_nil]
    rw [same, List.any_eq_false]
    exact fun b hb => by simp [gone b hb]

/-- A queue without a saved block is in at once (R460). -/
theorem State.restoreQueue_none {s : State} {q : Nat} (none_ : ∀ b ∈ s.queueBlocks q, b.residency ≠ .saved) :
    s.restoreQueue q = s.modQueue q (fun x =>
      { x with swIn := true, switching := .idle, progShown := none, tail := x.latched.getD x.tail, latched := none
               stopped := x.stopped && (x.err || !(x.rewritten || x.latched.isSome))
               rewritten := x.stopped && x.err && (x.rewritten || x.latched.isSome) }) := by
  have nil : (s.queueBlocks q).filter (fun b => b.residency == .saved) = [] :=
    List.filter_eq_nil_iff.mpr fun b hb => by simpa using none_ b hb
  have never : (s.queueBlocks q).any (fun b => b.residency == .saved) = false := by
    rw [List.any_eq_false]
    exact fun b hb => by simpa using none_ b hb
  simp only [State.restoreQueue, nil, List.foldl_nil, never, Bool.false_eq_true, if_false]

/-- A queue switches in (R460). -/
theorem queueSwitchIn_enters {s : State} {q : Nat} (hq : q < s.queues.length) (off : (s.queue q).en = false)
    (idle : (s.queue q).switching = .idle) (none_ : ∀ b ∈ s.queueBlocks q, b.residency ≠ .saved) :
    let x := s.queue q
    ∃ t, exec (.queueSwitchIn q) s = .next t ∧
      (t.queue q).en = true ∧ (t.queue q).swIn = true ∧ (t.queue q).switching = .idle ∧ (t.queue q).tail = x.latched.getD x.tail ∧ t.blocks = s.blocks ∧
      ((t.queue q).stopped = true ↔ x.stopped = true ∧ (x.err = true ∨ ¬ (x.rewritten = true ∨ x.latched.isSome = true))) := by
  intro x
  let s1 := (s.modQueue q (fun x => { x with en := true, progShown := some x.prog })).modQueue q
    (fun x => { x with switching := .inward })
  have long : q < s1.queues.length := by simpa [s1] using hq
  have now : s1.queue q = { x with en := true, progShown := some x.prog, switching := .inward } :=
    (State.queue_modQueue (by simpa using hq) _).trans (by rw [State.queue_modQueue hq])
  refine ⟨s1.restoreQueue q, ?_, ?_⟩
  · change execQueueSwitchIn q s = _
    have goes : s1.switchQueue q = s1.restoreQueue q := by simp only [State.switchQueue, now]
    rw [← goes]
    simp only [execQueueSwitchIn, State.setEnable, off, idle]
    rfl
  · rw [State.restoreQueue_none (s := s1) none_, State.queue_modQueue long, now]
    refine ⟨rfl, rfl, rfl, rfl, rfl, ?_⟩
    simp [Bool.and_eq_true, Bool.or_eq_true]

/-- ERR is cleared while EN and IN are 0 (R454). -/
theorem qctlErrClear_clears {s : State} {q : Nat} (hq : q < s.queues.length) :
    let x := s.queue q
    ∃ t, exec (.qctlErrClear q) s = .next t ∧ t.queue q = (if x.en = true ∨ x.swIn = true then x
      else { x with err := false, stopped := x.stopped && !x.rewritten, rewritten := false }) ∧ { t with queues := [] } = { s with queues := [] } := by
  refine ⟨s.modQueue q Queue.clearErr, rfl, ?_, rfl⟩
  rw [State.queue_modQueue hq]
  simp only [Queue.clearErr, Bool.or_eq_true]

/-- TAIL takes a write while its queue is in, and latches it otherwise (R458, R460). -/
theorem tailWrite_writes {s : State} {q : Nat} (hq : q < s.queues.length) (v : Word) :
    let x := s.queue q
    ∃ t, exec (.tailWrite q v) s = .next t ∧ { t with queues := [], arrivals := 0 } = { s with queues := [], arrivals := 0 } ∧
      (if x.en = true ∧ x.swIn = true ∧ x.switching = .idle then (t.queue q).tail = v ∧ (t.queue q).latched = x.latched ∧
          ((t.queue q).stopped = true ↔ x.stopped = true ∧ x.err = true)
       else (t.queue q).latched = some v ∧ (t.queue q).tail = x.tail) := by
  intro x
  refine ⟨s.writeTail q v, rfl, rfl, ?_⟩
  have now : (s.writeTail q v).queue q = _ := State.queue_modQueue (s := { s with arrivals := s.arrivals + 1 }) hq _
  rw [now]
  by_cases in_ : x.en = true ∧ x.swIn = true ∧ x.switching = .idle
  · obtain ⟨en, sw, quiet⟩ := in_
    have en' : ({ s with arrivals := s.arrivals + 1 } : State).queue q = x := rfl
    simp [en', en, sw, quiet]
  · have out : (x.en && x.swIn && x.switching == Switching.idle) = false := by
      simpa [Bool.and_eq_true, and_assoc] using in_
    have en' : ({ s with arrivals := s.arrivals + 1 } : State).queue q = x := rfl
    rw [if_neg in_]
    simp [en', out]

end Sys2Proof.Machine

namespace Sys2Proof.Machine

/-! ## Pre-emption of the warps of a core (R431) -/

/-- A lane that runs, or is held at a join. -/
def Lane.goes (x : Lane) : Bool := x.st == .runnable || x.st == .held

theorem Lane.goes_eq_false {x : Lane} : x.goes = false ↔ x.st ≠ .runnable ∧ x.st ≠ .held := by
  simp [Lane.goes]

/-- A warp u is a warp w, at its place and of its class, of which lanes have stopped: no lane runs but one that ran and is none of ls. -/
structure Warp.Halted (w u : Warp) (ls : Nat → Prop) : Prop where
  wid : u.wid = w.wid
  die : u.die = w.die
  core : u.core = w.core
  resident : u.resident = w.resident
  cls : u.prioClass = w.prioClass
  lanes : ∀ k, (u.lane k).goes = true → (w.lane k).goes = true ∧ ¬ ls k

theorem Warp.Halted.refl (w : Warp) : w.Halted w (fun _ => False) := ⟨rfl, rfl, rfl, rfl, rfl, fun _ h => ⟨h, id⟩⟩

theorem Warp.Halted.trans {w u v : Warp} {p q : Nat → Prop} (h : w.Halted u p) (g : u.Halted v q) :
    w.Halted v (fun k => p k ∨ q k) where
  wid := g.wid.trans h.wid
  die := g.die.trans h.die
  core := g.core.trans h.core
  resident := g.resident.trans h.resident
  cls := g.cls.trans h.cls
  lanes k run :=
    have ⟨ran, out⟩ := g.lanes k run
    have ⟨first, free⟩ := h.lanes k ran
    ⟨first, fun either => either.elim free out⟩

theorem Warp.Halted.mono {w u : Warp} {p q : Nat → Prop} (h : w.Halted u p) (sub : ∀ k, (w.lane k).goes = true → q k → p k) : w.Halted u q :=
  { h with lanes := fun k run => ⟨(h.lanes k run).1, fun hq => (h.lanes k run).2 (sub k (h.lanes k run).1 hq)⟩ }

/-- Every warp of t is one of s of which the lanes that P names have stopped. -/
def State.HaltsTo (s t : State) (P : Warp → Nat → Prop) : Prop := ∀ u ∈ t.warps, ∃ w ∈ s.warps, w.Halted u (P w)

/-- A lane that a pre-emption record holds. -/
def Lane.suspend (x : Lane) : Lane := { x with st := .suspended }

/-- Of the lanes of a set that stop, none runs any more. -/
theorem Warp.halted_suspended (w : Warp) (r : Record) (ls : List Nat) :
    w.Halted ((w.withRecord r).modLanes ls Lane.suspend) (· ∈ ls) := by
  have still := Warp.eq_of_still (Warp.still_modLanes (w.withRecord r) ls Lane.suspend)
  refine ⟨Warp.wid_modLanes _ _ _, by rw [still]; rfl, by rw [still]; rfl, by rw [still]; rfl, by rw [still]; rfl, fun k run => ?_⟩
  rw [Warp.lane_modLanes _ _ Lane.suspend (fun _ => rfl), Warp.lane_withRecord] at run
  split at run
  · simp [Lane.goes, Lane.suspend] at run
  · next out =>
    refine ⟨run, fun hk => out ⟨hk, ?_⟩⟩
    by_contra far
    have none : w.lanes[k]? = none := List.getElem?_eq_none (Nat.le_of_not_lt far)
    have absent : w.lane k = { st := .ended } := by simp [Warp.lane, none]
    simp [absent, Lane.goes] at run

theorem State.HaltsTo.trans {s t u : State} {P Q : Warp → Nat → Prop} (h : s.HaltsTo t P) (g : t.HaltsTo u Q)
    (same : ∀ w v, v.wid = w.wid → Q v = Q w) : s.HaltsTo u (fun w k => P w k ∨ Q w k) := fun v hv => by
  obtain ⟨x, hx, xv⟩ := g v hv
  obtain ⟨w, hw, wx⟩ := h x hx
  have both := wx.trans xv
  rw [same w x wx.wid] at both
  exact ⟨w, hw, both⟩

/-- A pre-emption record stops its lanes, in the warp of its number. -/
theorem State.haltsTo_addRecord {s : State} {wid : Nat} {w : Warp} (hw : s.warp? wid = some w) (mk : Nat → Record) (ls : List Nat) :
    s.HaltsTo ((s.addRecord wid mk).modLanes wid ls Lane.suspend) (fun w k => w.wid = wid ∧ k ∈ ls) := by
  intro u hu
  change u ∈ (s.addRecord wid mk).warps.map (fun v => if v.wid == wid then v.modLanes ls Lane.suspend else v) at hu
  rw [State.warps_addRecord hw] at hu
  change u ∈ (s.warps.map (fun v => if v.wid == wid then v.withRecord (mk w.seqNext) else v)).map _ at hu
  rw [List.map_map, List.mem_map] at hu
  obtain ⟨v, hv, rfl⟩ := hu
  refine ⟨v, hv, ?_⟩
  by_cases own : v.wid = wid
  · simp only [Function.comp, own, beq_self_eq_true, if_true, Warp.wid_withRecord]
    exact (v.halted_suspended _ ls).mono fun k _ h => h.2
  · simp only [Function.comp, beq_iff_eq, own, if_false]
    exact ⟨rfl, rfl, rfl, rfl, rfl, fun k run => ⟨run, fun h => h.1⟩⟩

theorem State.haltsTo_preemptSet (s : State) (wid : Nat) (x : (Nat × Nat × Nat) × List Nat) :
    s.HaltsTo (s.preemptSet wid x) (fun w k => w.wid = wid ∧ k ∈ x.2) := by
  unfold State.preemptSet
  split
  · next none =>
    intro u hu
    have other : u.wid ≠ wid := by simpa using List.find?_eq_none.mp none u hu
    exact ⟨u, hu, (Warp.Halted.refl u).mono fun k _ h => other h.1⟩
  · next w hw =>
    simp only
    split <;> exact State.haltsTo_addRecord hw _ _

theorem State.haltsTo_preemptSets (xs : List ((Nat × Nat × Nat) × List Nat)) (s : State) (wid : Nat) :
    s.HaltsTo (xs.foldl (fun s x => s.preemptSet wid x) s) (fun w k => w.wid = wid ∧ ∃ x ∈ xs, k ∈ x.2) := by
  induction xs generalizing s with
  | nil => exact fun u hu => ⟨u, hu, (Warp.Halted.refl u).mono fun k _ h => by simp at h⟩
  | cons x xs ih =>
    have both := (s.haltsTo_preemptSet wid x).trans (ih (s.preemptSet wid x)) (fun w v e => by rw [e])
    intro u hu
    obtain ⟨w, hw, halts⟩ := both u hu
    refine ⟨w, hw, halts.mono fun k _ h => ?_⟩
    obtain ⟨own, y, hy, hk⟩ := h
    rcases List.mem_cons.mp hy with rfl | hy
    · exact .inl ⟨own, hk⟩
    · exact .inr ⟨own, y, hy, hk⟩

/-- Every lane of a list stands in one of its lane sets (R167). -/
theorem State.mem_setsOf (s : State) (w : Warp) (ls : List Nat) {l : Nat} (hl : l ∈ ls) : ∃ x ∈ s.setsOf w ls, l ∈ x.2 := by
  let add (acc : List ((Nat × Nat × Nat) × List Nat)) (l : Nat) : List ((Nat × Nat × Nat) × List Nat) :=
    if acc.any (fun x => x.1 == s.position w (w.lane l)) then
      acc.map (fun x => if x.1 == s.position w (w.lane l) then (x.1, x.2 ++ [l]) else x)
    else acc ++ [(s.position w (w.lane l), [l])]
  have stays (acc : List ((Nat × Nat × Nat) × List Nat)) (k l : Nat) (h : ∃ x ∈ acc, l ∈ x.2) : ∃ x ∈ add acc k, l ∈ x.2 := by
    obtain ⟨x, hx, hl⟩ := h
    simp only [add]
    split
    · refine ⟨_, List.mem_map.mpr ⟨x, hx, rfl⟩, ?_⟩
      split
      · exact List.mem_append.mpr (.inl hl)
      · exact hl
    · exact ⟨x, List.mem_append.mpr (.inl hx), hl⟩
  have enters (acc : List ((Nat × Nat × Nat) × List Nat)) (l : Nat) : ∃ x ∈ add acc l, l ∈ x.2 := by
    simp only [add]
    split
    · next here =>
      obtain ⟨x, hx, at_⟩ := List.any_eq_true.mp here
      exact ⟨_, List.mem_map.mpr ⟨x, hx, rfl⟩, by simp [at_]⟩
    · exact ⟨(s.position w (w.lane l), [l]), by simp, by simp⟩
  have all (ls : List Nat) (acc : List ((Nat × Nat × Nat) × List Nat)) (l : Nat) (h : l ∈ ls ∨ ∃ x ∈ acc, l ∈ x.2) :
      ∃ x ∈ ls.foldl add acc, l ∈ x.2 := by
    induction ls generalizing acc with
    | nil => exact h.resolve_left (List.not_mem_nil)
    | cons k ls ih =>
      rw [List.foldl_cons]
      refine ih _ ?_
      rcases h with h | h
      · rcases List.mem_cons.mp h with rfl | h
        · exact .inr (enters acc l)
        · exact .inl h
      · exact .inr (stays acc k l h)
  exact all ls [] l (.inl hl)

theorem State.wids_preemptWarp (s : State) (wid : Nat) : (s.preemptWarp wid).warps.map (·.wid) = s.warps.map (·.wid) := by
  have same := congrArg (List.map Prod.fst) (s.faults_preemptWarp wid)
  rw [List.map_map, List.map_map] at same
  exact same

/-- Every lane of a warp that runs or is held stops (R431). -/
theorem State.haltsTo_preemptWarp {s : State} (single : (s.warps.map (·.wid)).Nodup) (wid : Nat) :
    s.HaltsTo (s.preemptWarp wid) (fun w k => w.wid = wid ∧ k < 32) := by
  unfold State.preemptWarp
  split
  · next none =>
    intro u hu
    have other : u.wid ≠ wid := by simpa using List.find?_eq_none.mp none u hu
    exact ⟨u, hu, (Warp.Halted.refl u).mono fun k _ h => other h.1⟩
  · next w hw =>
    intro u hu
    obtain ⟨v, hv, halts⟩ := State.haltsTo_preemptSets _ s wid u hu
    refine ⟨v, hv, halts.mono fun k run h => ⟨h.1, ?_⟩⟩
    have same : v = w := by
      have found := find_key_of_nodup Warp.wid single hv
      rw [h.1] at found
      exact Option.some.inj (found.symm.trans hw)
    subst same
    obtain ⟨x, hx, hk⟩ := s.mem_setsOf v ((List.range 32).filter (fun l => (v.lane l).st == .runnable || (v.lane l).st == .held))
      (List.mem_filter.mpr ⟨List.mem_range.mpr h.2, run⟩)
    exact ⟨x, by simpa [State.orderedSets] using hx, hk⟩

theorem State.haltsTo_preemptWarps (ws : List Warp) {s : State} (single : (s.warps.map (·.wid)).Nodup) :
    s.HaltsTo (ws.foldl (fun s w => s.preemptWarp w.wid) s) (fun w k => (∃ x ∈ ws, w.wid = x.wid) ∧ k < 32) := by
  induction ws generalizing s with
  | nil => exact fun u hu => ⟨u, hu, (Warp.Halted.refl u).mono fun k _ h => by simp at h⟩
  | cons x ws ih =>
    have both := (State.haltsTo_preemptWarp single x.wid).trans (ih (by rw [s.wids_preemptWarp]; exact single)) (fun w v e => by rw [e])
    intro u hu
    obtain ⟨w, hw, halts⟩ := both u hu
    refine ⟨w, hw, halts.mono fun k _ h => ?_⟩
    obtain ⟨⟨y, hy, own⟩, small⟩ := h
    rcases List.mem_cons.mp hy with rfl | hy
    · exact .inl ⟨own, small⟩
    · exact .inr ⟨⟨y, hy, own⟩, small⟩

/-- Leaving the active set stops no lane and starts none. -/
theorem State.haltsTo_leaveSet (s : State) (die core : Nat) : s.HaltsTo (s.leaveSet die core) (fun _ _ => False) := by
  intro u hu
  obtain ⟨w, hw, rfl⟩ := List.mem_map.mp hu
  refine ⟨w, hw, ?_⟩
  split
  · exact ⟨rfl, rfl, rfl, rfl, rfl, fun k run => ⟨run, id⟩⟩
  · exact .refl w

theorem State.launch?_modLaunch {s : State} {lid : Nat} {l : Launch} (hl : l ∈ s.launches) (own : l.lid = lid) (f : Launch → Launch)
    (hf : ∀ x, (f x).lid = x.lid) : ∃ x, (s.modLaunch lid f).launch? lid = some (f x) := by
  have found : (s.launch? lid).isSome := List.find?_isSome.mpr ⟨l, hl, by simp [own]⟩
  obtain ⟨x, hx⟩ := Option.isSome_iff_exists.mp found
  refine ⟨x, (find_map_if Launch.lid s.launches lid lid f hf).trans ?_⟩
  rw [show s.launches.find? (fun x => x.lid == lid) = some x from hx, Option.map_some, if_pos rfl]

theorem State.mem_placeOrder {s : State} {die : Nat} {l : Launch} (h : l ∈ s.placeOrder die) :
    l ∈ s.launches ∧ l.die = die ∧ s.mayPlace l = true := by
  simpa [State.placeOrder, and_assoc] using h

/-- The core is given to the next block of class RT, and every other warp on it stops (R431). -/
theorem rtPreempt_stops {s : State} {die core : Nat} {l : Launch} {rest : List Launch} (next : s.placeOrder die = l :: rest)
    (other : l.rtCore ≠ some core) (given : s.rtCoreFor l = some core) (single : (s.warps.map (·.wid)).Nodup) :
    ∃ t, exec (.rtPreempt die core) s = .next t ∧ (∃ x, t.launch? l.lid = some x ∧ x.rtCore = some core) ∧
      ∀ w ∈ t.warpsOn die core, w.prioClass ≠ 0 → ∀ k < 32, (w.lane k).st ≠ .runnable ∧ (w.lane k).st ≠ .held := by
  let ws := (s.warpsOn die core).filter (fun w => w.prioClass != 0)
  let s1 := s.modLaunch l.lid (fun l => { l with rtCore := some core })
  let s2 := ws.foldl (fun s w => s.preemptWarp w.wid) s1
  have bare : s2.bare = s1.bare := foldl_keeps _ State.bare (fun s (w : Warp) => s.bare_preemptWarp w.wid) _ _
  refine ⟨s2.leaveSet die core, ?_, ?_, fun u hu low k small => ?_⟩
  · change execRtPreempt die core s = _
    have test : (l.rtCore != some core && s.rtCoreFor l == some core) = true := by simp [other, given]
    simp only [execRtPreempt, next, test, if_true]
    rfl
  · obtain ⟨x, hx⟩ := State.launch?_modLaunch (State.mem_placeOrder (l := l) (by rw [next]; exact List.mem_cons_self)).1 rfl
      (fun l => { l with rtCore := some core }) (fun _ => rfl)
    refine ⟨{ x with rtCore := some core }, ?_, rfl⟩
    · rw [State.launch?, show (s2.leaveSet die core).launches = s2.launches from rfl, State.launches_of_bare bare]
      exact hx
  · rw [State.warpsOn, List.mem_filter] at hu
    obtain ⟨hu, place⟩ := hu
    obtain ⟨v, hv, vu⟩ := s2.haltsTo_leaveSet die core u hu
    obtain ⟨w, hw, wv⟩ := State.haltsTo_preemptWarps ws (s := s1) single v hv
    have wu := wv.trans vu
    rw [← Lane.goes_eq_false, Bool.eq_false_iff]
    intro run
    have here : w ∈ ws := by
      simp only [ws, State.warpsOn, List.mem_filter]
      rw [wu.resident, wu.die, wu.core] at place
      exact ⟨⟨hw, place⟩, by simpa [wu.cls] using low⟩
    exact (wu.lanes k run).2 (.inl ⟨⟨w, here, rfl⟩, small⟩)

end Sys2Proof.Machine

namespace Sys2Proof.Machine

/-! ## Warps at entry (R32) -/

theorem freshLane_reg (entry : Nat) (vs : List Word) (seed : Word) (l k : Nat) : (freshLane entry vs seed l).reg k = vs.getD k 0 := by
  have upTo (n : Nat) : Cells.get ((List.range n).foldl (fun m k => Cells.set m k (vs.getD k 0)) ([] : Cells 32)) k =
      if k < n then vs.getD k 0 else 0 := by
    induction n with
    | zero => simp
    | succ n ih =>
      rw [List.range_succ, List.foldl_append, List.foldl_cons, List.foldl_nil, Cells.get_set, ih]
      by_cases e : k = n
      · simp [e]
      · simp only [e, if_false, Nat.lt_succ_iff_lt_or_eq, or_false]
  refine (upTo vs.length).trans ?_
  split
  · rfl
  · next far => simp [List.getElem?_eq_none (Nat.le_of_not_lt far)]

theorem State.freshWarp_lane (s : State) (wid d c ctx seg : Nat) (m : Image) (entry : Nat) (args : List Word) (vs : Nat → List Word)
    (l : Nat) (hl : l < 32) : (s.freshWarp wid d c ctx seg m entry args vs).lane l =
      freshLane entry (vs l) (s.freshWarp wid d c ctx seg m entry args vs).seed l := by
  simp [Warp.lane, State.freshWarp, hl]

/-- A new warp of which every lane holds the same words stands at its entry. -/
theorem State.freshWarp_atEntry (s : State) (wid d c ctx seg : Nat) (m : Image) (entry : Nat) (args vs : List Word) :
    (s.freshWarp wid d c ctx seg m entry args (fun _ => vs)).atEntry entry vs := by
  refine ⟨by simp [State.freshWarp], rfl, fun l hl => ?_⟩
  rw [State.freshWarp_lane _ _ _ _ _ _ _ _ _ _ l hl]
  exact ⟨rfl, rfl, rfl, rfl, rfl, rfl, fun k => freshLane_reg _ _ _ _ _⟩

/-! ## Reads of the Launch Processor -/

/-- A state but for its count of free values, of which the reads of the Launch Processor take some. -/
theorem State.procRead_rest (s : State) (ctx va n : Nat) : ∃ k, (s.procRead ctx va n).2 = { s with fresh := k } := by
  unfold State.procRead
  split
  · exact ⟨s.fresh, rfl⟩
  · exact ⟨_, rfl⟩

theorem State.readImage_rest (s : State) (ctx base : Nat) : ∃ k, (s.readImage ctx base).2 = { s with fresh := k } := by
  obtain ⟨j, hj⟩ := s.procRead_rest ctx base 64
  unfold State.readImage
  split
  · next s1 e => exact ⟨j, (congrArg Prod.snd e).symm.trans hj⟩
  · next h s1 e =>
    have e1 : s1 = { s with fresh := j } := (congrArg Prod.snd e).symm.trans hj
    obtain ⟨k, hk⟩ := s1.procRead_rest ctx (base + 64) (80 * fieldOf h 10 2)
    split
    · exact ⟨j, e1⟩
    · split
      · next s2 e => exact ⟨k, ((congrArg Prod.snd e).symm.trans hk).trans (by rw [e1])⟩
      · next t s2 e => exact ⟨k, ((congrArg Prod.snd e).symm.trans hk).trans (by rw [e1])⟩

theorem State.readLaunch_rest (s : State) (ctx : Nat) (r : LaunchRecord) : ∃ k, (s.readLaunch ctx r).2.2 = { s with fresh := k } := by
  obtain ⟨j, hj⟩ := s.readImage_rest ctx r.code
  obtain ⟨k, hk⟩ := (s.readImage ctx r.code).2.procRead_rest ctx r.arg (4 * r.argn)
  exact ⟨k, hk.trans (by rw [hj])⟩

/-! ## Handler warps (R426) -/

/-- The record of a context without a handler entry is escalated at once. -/
theorem handlerDispatch_escalates {s : State} {wid seq : Nat} {w : Warp} {r : Record} {c : Context} (hw : s.warp? wid = some w)
    (hr : w.record? seq = some r) (hc : s.ctx? w.ctx = some c) (calm : c.escalated = none) (noEntry : c.trapv.toNat < 8)
    (faulted : r.state = .faulted) (fresh : r.dispatched = false) :
    ∃ t d, exec (.handlerDispatch wid seq) s = .next t ∧ t.ctx? w.ctx = some d ∧ d.escalated = some (wid, seq) := by
  obtain ⟨d, found, names⟩ := State.ctx?_escalate hc calm wid seq
  refine ⟨_, d, ?_, found, names⟩
  change execHandlerDispatch wid seq s = _
  have ownSeq : r.seq = seq := by simpa using List.find?_some hr
  have zero : c.trapv.toNat / 8 = 0 := Nat.div_eq_of_lt noEntry
  simp [execHandlerDispatch, hw, hr, hc, State.dispatch, zero, faulted, fresh, State.find_wid hw, ownSeq]

/-- The record that parked first gets a handler warp at TRAPV. -/
theorem handlerDispatch_starts {s s1 : State} {wid seq core : Nat} {w : Warp} {r : Record} {c : Context} {m : Image × Bool} {segs : List Nat}
    (hw : s.warp? wid = some w) (hr : w.record? seq = some r) (hc : s.ctx? w.ctx = some c) (calm : c.escalated = none)
    (first : (s.undispatched w.ctx w.die).head? = some (w, r)) (room : s.handlersOn w.ctx w.die < 16) (entry : 8 ≤ c.trapv.toNat)
    (image : s.readImage w.ctx c.suph = (some m, s1))
    (fits : lowestCore (fun k => s1.warpsFit w.die k { units := m.1.regs / 32, warps := 1 }) = some core)
    (seg : s1.findSegments w.ctx w.die 1 [] = some segs) :
    ∃ t h, exec (.handlerDispatch wid seq) s = .next t ∧ t.warps.getLast? = some h ∧ h.kind = .handler ∧ h.die = w.die ∧
        h.core = core ∧ h.ctx = w.ctx ∧ h.handlerFor = some (wid, seq) ∧ h.image = m.1 ∧
        h.atEntry (c.trapv.toNat / 8 * 8) (s.handlerWords w r) := by
  have ownSeq : r.seq = seq := by simpa using List.find?_some hr
  have ownWid := State.find_wid hw
  obtain ⟨k, hk⟩ := s.readImage_rest w.ctx c.suph
  have s1_eq : s1 = { s with fresh := k } := by rw [← hk, image]
  have words : s1.handlerWords w r = s.handlerWords w r := by rw [s1_eq]; rfl
  refine ⟨s1.startHandler w r m.1 (c.trapv.toNat / 8 * 8) core (segs.headD 0), ?h, ?run, ?last, ?rest⟩
  case run =>
    change execHandlerDispatch wid seq s = _
    have nonzero : ¬ c.trapv.toNat / 8 = 0 := by omega
    have notFull : ¬ Config.maxHandlers ≤ s.handlersOn w.ctx w.die := Nat.not_le.mpr room
    simp [execHandlerDispatch, hw, hr, hc, State.dispatch, nonzero, first, calm, notFull, image, fits, seg, ownWid, ownSeq]
  case h =>
    exact { s1.freshWarp (s1.nextId + 1) w.die core w.ctx (segs.headD 0) m.1 (c.trapv.toNat / 8 * 8) (s1.handlerWords w r)
        (fun _ => s1.handlerWords w r) with
      kind := .handler, launch := w.launch, tag := w.tag, block := some s1.nextId, blockIdx := 0xFFFFFFFF, lastBlk := 0xFFFFFFFF
      prioClass := w.prioClass, prioLevel := 15, handlerFor := some (w.wid, r.seq) }
  case last =>
    simp only [State.startHandler, State.modRecord, State.modWarp, State.freshCode, State.modCore, State.modDie]
    rw [List.map_append, List.map_singleton, List.getLast?_concat]
    split <;> rfl
  case rest =>
    refine ⟨rfl, rfl, rfl, rfl, by rw [ownWid, ownSeq], rfl, ?_⟩
    have entry := s1.freshWarp_atEntry (s1.nextId + 1) w.die core w.ctx (segs.headD 0) m.1 (c.trapv.toNat / 8 * 8) (s1.handlerWords w r)
      (s1.handlerWords w r)
    rw [words] at entry ⊢
    exact entry

end Sys2Proof.Machine

namespace Sys2Proof.Machine

/-! ## Launch records (R458, R462) -/

/-- The queues are no part of what a read of main memory depends on. -/
theorem State.readMainBytes_queues (s : State) (qs : List Queue) (c : Context) (a : Access) (n va k : Nat) :
    ({ s with queues := qs } : State).readMainBytes c va k a n = s.readMainBytes c va k a n := by
  induction n generalizing va k with
  | zero => rfl
  | succ n ih =>
    simp only [State.readMainBytes, ih]
    rfl

theorem State.procRead_queues (s : State) (qs : List Queue) (ctx va n : Nat) : ({ s with queues := qs } : State).procRead ctx va n =
    ((s.procRead ctx va n).1, { (s.procRead ctx va n).2 with queues := qs }) := by
  have same : ({ s with queues := qs } : State).ctx? ctx = s.ctx? ctx := rfl
  simp only [State.procRead, same]
  split
  · rfl
  · simp only [State.readMainBytes_queues]

theorem State.readImage_queues (s : State) (qs : List Queue) (ctx base : Nat) : ({ s with queues := qs } : State).readImage ctx base =
    ((s.readImage ctx base).1, { (s.readImage ctx base).2 with queues := qs }) := by
  simp only [State.readImage, State.procRead_queues]
  cases s.procRead ctx base 64 with
  | mk bytes s1 =>
    cases bytes with
    | none => rfl
    | some h =>
      simp only
      split
      · rfl
      · rw [State.procRead_queues]
        cases s1.procRead ctx (base + 64) (80 * fieldOf h 10 2) with
        | mk bytes s2 => cases bytes <;> rfl

theorem State.readLaunch_queues (s : State) (qs : List Queue) (ctx : Nat) (r : LaunchRecord) :
    ({ s with queues := qs } : State).readLaunch ctx r =
      ((s.readLaunch ctx r).1, (s.readLaunch ctx r).2.1, { (s.readLaunch ctx r).2.2 with queues := qs }) := by
  simp only [State.readLaunch, State.readImage_queues, State.procRead_queues]

/-- Which reason refuses a record depends on the contexts alone. -/
theorem State.launchReason_congr {s t : State} (h : t.ctxs = s.ctxs) (ctx die cls : Nat) (r : LaunchRecord) (img : Option (Image × Bool))
    (args : Option (List Byte)) : t.launchReason ctx die cls r img args = s.launchReason ctx die cls r img args := by
  have same : t.ctx? ctx = s.ctx? ctx := by rw [State.ctx?, h, State.ctx?]
  unfold State.launchReason
  rw [same]

/-- The launches and the queues. -/
def State.desk (s : State) : List Launch × List Queue := (s.launches, s.queues)

theorem State.desk_of_bare {s t : State} (h : t.bare = s.bare) : t.desk = s.desk := (congrArg State.desk h :)

theorem State.desk_writeMain (s : State) (c : Context) (va : Nat) (b : Byte) : (s.writeMain c va b).desk = s.desk := by
  unfold State.writeMain
  split
  · rfl
  · split
    · rfl
    · split <;> rfl

theorem State.desk_writeMainBytes (bs : List Byte) (s : State) (c : Context) (va : Nat) : (s.writeMainBytes c va bs).desk = s.desk := by
  induction bs generalizing s va with
  | nil => rfl
  | cons b bs ih => exact (ih _ _).trans (s.desk_writeMain c va b)

/-- A signal is none to the Launch Processor itself. -/
theorem State.desk_signal (s : State) (ctx die : Nat) (r : LaunchRecord) (q : Option Nat) (report : List Byte) :
    (s.signal ctx die r q report).desk = s.desk := by
  unfold State.signal
  split
  · rfl
  · next c hc =>
    extract_lets s1 off s2 s3
    have h1 : s1.desk = s.desk := by
      simp only [s1]
      split
      · rfl
      · exact State.desk_writeMainBytes _ _ _ _
    have h2 : s2.desk = s1.desk := by
      simp only [s2]
      split
      · split
        · exact State.desk_of_bare (State.written_spaceWrite _ _ _ _ _).rest
        · rfl
      · split
        · split
          · exact State.desk_writeMainBytes _ _ _ _
          · rfl
        · rfl
    have h3 : s3.desk = s2.desk := by
      simp only [s3]
      split
      · split <;> rfl
      · rfl
    exact (h3.trans h2).trans h1

/-- A refused record of a queue that has no launch yet leaves the launches and the queues. -/
theorem State.desk_reportLaunch {s : State} {l : Launch} {q i : Nat} (kind : l.kind = .queue q i) (none : ∀ x ∈ s.launches, x.lid ≠ l.lid)
    (status rsn dig dig2 : Nat) : (s.reportLaunch l status rsn dig dig2).desk = s.desk := by
  have all : s.launches.filter (fun x => x.lid != l.lid) = s.launches := List.filter_eq_self.mpr fun x hx => by simpa using none x hx
  simp only [State.reportLaunch, kind, State.desk_signal]
  simp only [State.desk, all]

/-- A queue whose TAIL is too far ahead stops (R458). -/
theorem launchRecordRead_stops {s : State} {q : Nat} (pending : (s.queue q).pending = true)
    (far : 2 ^ (s.queue q).log2n < ((s.queue q).tail - (s.queue q).prog).toNat) :
    ∃ t, exec (.launchRecordRead q) s = .next t ∧ (t.queue q).err = true ∧ (t.queue q).stopped = true ∧ t.launches = s.launches := by
  have hq : q < s.queues.length := State.lt_of_queue_ne fun absent => by rw [absent] at pending; cases pending
  refine ⟨s.stopQueue q, ?_, ?_⟩
  · change execLaunchRecordRead q s = _
    simp only [execLaunchRecordRead, pending, Bool.not_true, Bool.false_eq_true, if_false, far, if_true]
  · simp only [State.stopQueue, State.queue_modQueue hq, State.modQueue_launches, and_self]

/-- The launch of a record that a queue has read. -/
def Queue.launchOf (x : Queue) (q : Nat) (bs : List Byte) : Launch :=
  { lid := 0, kind := .queue q x.prog.toNat, ctx := x.ctx, die := x.die, lrec := recordOf bs, arrival := x.coverOf x.prog }

/-- A queue that has read its next record. -/
def Queue.readOn (x y : Queue) : Queue :=
  { y with prog := y.prog + 1, covers := y.covers.filter (fun c => !((BitVec.ofNat 32 c.2) - x.prog - 2).msb) }

theorem launchRecordRead_run {s s1 : State} {q : Nat} {bs : List Byte} (pending : (s.queue q).pending = true)
    (near : ((s.queue q).tail - (s.queue q).prog).toNat ≤ 2 ^ (s.queue q).log2n)
    (read : s.procRead (s.queue q).ctx ((s.queue q).recordAddr (s.queue q).prog) 128 = (some bs, s1)) (plain : (recordOf bs).list = false) :
    exec (.launchRecordRead q) s =
      .next ((s1.modQueue q (s.queue q).readOn).takeRecord ((s.queue q).launchOf q bs) (s.queue q).cls) := by
  change execLaunchRecordRead q s = _
  simp only [execLaunchRecordRead, pending, Bool.not_true, Bool.false_eq_true, if_false, Nat.not_lt.mpr near, read, plain]
  rfl

section
variable {s s1 : State} {q : Nat} {bs : List Byte} (pending : (s.queue q).pending = true)
  (read : s.procRead (s.queue q).ctx ((s.queue q).recordAddr (s.queue q).prog) 128 = (some bs, s1))
include pending read

/-- What a read of a record's image and arguments leaves of the queue and of the launches. -/
theorem desk_readOn (r : LaunchRecord) : ((s1.modQueue q (s.queue q).readOn).readLaunch (s.queue q).ctx r).2.2.launches = s.launches ∧
    (((s1.modQueue q (s.queue q).readOn).readLaunch (s.queue q).ctx r).2.2.queue q).prog = (s.queue q).prog + 1 := by
  have hq : q < s.queues.length := State.lt_of_queue_ne fun absent => by rw [absent] at pending; cases pending
  obtain ⟨k, hk⟩ := s.procRead_rest (s.queue q).ctx ((s.queue q).recordAddr (s.queue q).prog) 128
  have e1 : s1 = { s with fresh := k } := by rw [← hk, read]
  obtain ⟨j, hj⟩ := (s1.modQueue q (s.queue q).readOn).readLaunch_rest (s.queue q).ctx r
  have now : ((s1.modQueue q (s.queue q).readOn).queue q).prog = (s.queue q).prog + 1 := by
    rw [State.queue_modQueue (by rw [e1]; exact hq), e1]
    rfl
  rw [hj]
  exact ⟨by rw [e1]; rfl, now⟩

omit pending in
/-- The reason that refuses the record is that of the state before it was read. -/
theorem reason_readOn (r : LaunchRecord) :
    let a := (s1.modQueue q (s.queue q).readOn).readLaunch (s.queue q).ctx r
    let b := s1.readLaunch (s.queue q).ctx r
    a.2.2.launchReason (s.queue q).ctx (s.queue q).die (s.queue q).cls r a.1 a.2.1 =
      s.launchReason (s.queue q).ctx (s.queue q).die (s.queue q).cls r b.1 b.2.1 := by
  intro a b
  obtain ⟨k, hk⟩ := s.procRead_rest (s.queue q).ctx ((s.queue q).recordAddr (s.queue q).prog) 128
  have e1 : s1.ctxs = s.ctxs := by rw [show s1 = { s with fresh := k } by rw [← hk, read]]
  obtain ⟨j, hj⟩ := (s1.modQueue q (s.queue q).readOn).readLaunch_rest (s.queue q).ctx r
  have both : a = _ := s1.readLaunch_queues (s1.queues.modify q (s.queue q).readOn) (s.queue q).ctx r
  rw [State.launchReason_congr (s := s) (t := a.2.2) ((congrArg State.ctxs hj).trans e1), both]

/-- A record that no reason refuses becomes a launch that waits (R462). -/
theorem launchRecordRead_accepts (near : ((s.queue q).tail - (s.queue q).prog).toNat ≤ 2 ^ (s.queue q).log2n)
    (plain : (recordOf bs).list = false)
    (fine : s.launchReason (s.queue q).ctx (s.queue q).die (s.queue q).cls (recordOf bs)
      (s1.readLaunch (s.queue q).ctx (recordOf bs)).1 (s1.readLaunch (s.queue q).ctx (recordOf bs)).2.1 = 0) :
    ∃ t l, exec (.launchRecordRead q) s = .next t ∧ t.launches = s.launches ++ [l] ∧ l.lrec = recordOf bs ∧
      l.phase = .waiting ∧ l.ctx = (s.queue q).ctx ∧ l.die = (s.queue q).die ∧ l.kind = .queue q (s.queue q).prog.toNat ∧
      (t.queue q).prog = (s.queue q).prog + 1 := by
  obtain ⟨launches, prog⟩ := desk_readOn pending read (recordOf bs)
  have reason := (reason_readOn read (recordOf bs)).trans fine
  let u := ((s1.modQueue q (s.queue q).readOn).readLaunch (s.queue q).ctx (recordOf bs)).2.2
  let l : Launch := { (s.queue q).launchOf q bs with lid := u.nextId }
  have taken : (s1.modQueue q (s.queue q).readOn).takeRecord ((s.queue q).launchOf q bs) (s.queue q).cls =
      u.addLaunch ((s.queue q).launchOf q bs) := by
    simp only [State.takeRecord, Queue.launchOf, plain, Bool.false_eq_true, if_false, reason, beq_self_eq_true, if_true]
    rfl
  refine ⟨u.addLaunch ((s.queue q).launchOf q bs), l, ?_, ?_, rfl, rfl, rfl, rfl, rfl, prog⟩
  · rw [launchRecordRead_run pending near read plain, taken]
  · rw [← launches]
    rfl

/-- A record that a reason refuses leaves the launches, and PROG counts it (R462). -/
theorem launchRecordRead_refuses (near : ((s.queue q).tail - (s.queue q).prog).toNat ≤ 2 ^ (s.queue q).log2n)
    (plain : (recordOf bs).list = false)
    (bad : s.launchReason (s.queue q).ctx (s.queue q).die (s.queue q).cls (recordOf bs)
      (s1.readLaunch (s.queue q).ctx (recordOf bs)).1 (s1.readLaunch (s.queue q).ctx (recordOf bs)).2.1 ≠ 0)
    (named : ∀ l ∈ s.launches, l.lid ≠ 0) :
    ∃ t, exec (.launchRecordRead q) s = .next t ∧ t.launches = s.launches ∧ (t.queue q).prog = (s.queue q).prog + 1 := by
  obtain ⟨launches, prog⟩ := desk_readOn pending read (recordOf bs)
  have reason := reason_readOn read (recordOf bs)
  refine ⟨_, launchRecordRead_run pending near read plain, ?_⟩
  have refused : ((s1.modQueue q (s.queue q).readOn).takeRecord ((s.queue q).launchOf q bs) (s.queue q).cls).desk =
      ((s1.modQueue q (s.queue q).readOn).readLaunch (s.queue q).ctx (recordOf bs)).2.2.desk := by
    simp only [State.takeRecord, Queue.launchOf, plain, Bool.false_eq_true, if_false, reason, beq_iff_eq, bad]
    exact State.desk_reportLaunch (q := q) (i := (s.queue q).prog.toNat) rfl (by rw [launches]; exact named) _ _ _ _
  refine ⟨(congrArg Prod.fst refused).trans launches, ?_⟩
  rw [State.queue, show State.queues _ = _ from congrArg Prod.snd refused]
  exact prog
end

end Sys2Proof.Machine

namespace Sys2Proof.Machine

/-! ## Placing a block (R163) -/

/-- A warp of the next block of a launch, at its entry on a core. -/
structure Launch.PlacesWarp (l : Launch) (bid core : Nat) (w : Warp) : Prop where
  block : w.block = some bid
  kind : w.kind = .block
  core : w.core = core
  die : w.die = l.die
  ctx : w.ctx = l.ctx
  blockIdx : w.blockIdx = l.nextBlock
  nwarp : w.nwarp = l.parts.length
  footprint : w.footprint = l.image.regs
  cls : w.prioClass = l.lrec.cls
  entry : w.atEntry l.image.entry (paramWords l.image l.args)

/-- One warp more of a block that is placed. -/
def State.placeWarp (l : Launch) (bid core index : Nat) (segs : List Nat) (s : State) (k : Nat) : State :=
  let vs (j : Nat) : List Word := if l.isSample then l.entry.getD j [] else paramWords l.image l.args
  let w := s.freshWarp s.nextId l.die core l.ctx (segs.getD k 0) l.image l.image.entry l.args vs
  { s with nextId := s.nextId + 1
           warps := s.warps ++ [blockWarp l bid index k (l.parts.getD k (0, .g)) l.parts.length w] }

theorem State.placeWarp_adds {l : Launch} (plain : l.isSample = false) (bid core : Nat) (segs : List Nat) (s : State) (k : Nat) :
    ∃ w, (s.placeWarp l bid core l.nextBlock segs k).warps = s.warps ++ [w] ∧ l.PlacesWarp bid core w := by
  refine ⟨_, rfl, ?_⟩
  simp only [plain, Bool.false_eq_true, if_false, blockWarp]
  exact ⟨rfl, rfl, rfl, rfl, rfl, rfl, rfl, rfl, rfl,
    s.freshWarp_atEntry s.nextId l.die core l.ctx (segs.getD k 0) l.image l.image.entry l.args (paramWords l.image l.args)⟩

theorem State.placeWarps_add {l : Launch} (plain : l.isSample = false) (bid core : Nat) (segs : List Nat) (ks : List Nat) (s : State) :
    ∃ ws, (ks.foldl (State.placeWarp l bid core l.nextBlock segs) s).warps = s.warps ++ ws ∧ ws.length = ks.length ∧
      ∀ w ∈ ws, l.PlacesWarp bid core w := by
  induction ks generalizing s with
  | nil => exact ⟨[], (List.append_nil _).symm, rfl, fun w hw => absurd hw List.not_mem_nil⟩
  | cons k ks ih =>
    obtain ⟨w, first, hw⟩ := s.placeWarp_adds plain bid core segs k
    obtain ⟨ws, rest, len, all⟩ := ih (s.placeWarp l bid core l.nextBlock segs k)
    refine ⟨w :: ws, ?_, by simp [len], fun v hv => ?_⟩
    · rw [List.foldl_cons, rest, first, List.append_assoc, List.singleton_append]
    · rcases List.mem_cons.mp hv with rfl | hv
      · exact hw
      · exact all v hv

theorem State.placeWarps_blocks (l : Launch) (bid core index : Nat) (segs ks : List Nat) (s : State) :
    (ks.foldl (State.placeWarp l bid core index segs) s).blocks = s.blocks := 
  foldl_keeps (State.placeWarp l bid core index segs) State.blocks (fun _ _ => rfl) _ _

theorem Launch.newBlock_fields {l : Launch} (plain : l.isSample = false) (bid core index : Nat) :
    let b := l.newBlock bid core index
    b.bid = bid ∧ b.core = core ∧ b.die = l.die ∧ b.launch = l.lid ∧ b.index = index ∧ b.residency = .resident ∧ b.shared = [] := by
  simp only [Launch.newBlock, plain, Bool.false_eq_true, if_false, and_self]

/-- A state in which a launch has started if no block of it was placed. -/
def State.begun (s : State) (l : Launch) : State := if l.isSample || l.nextBlock == 0 then s.startLaunch l else s

theorem State.begun_rest (s : State) (l : Launch) : (s.begun l).warps = s.warps ∧ (s.begun l).blocks = s.blocks := by
  unfold State.begun
  split
  · exact ⟨rfl, rfl⟩
  · exact ⟨rfl, rfl⟩

/-- The warps and the blocks once a launch without blocks to restart has its next block placed. -/
theorem State.startBlock_next {s : State} {l : Launch} (first : s.restarts l = []) (core : Nat) (segs : List Nat) :
    let bid := (s.begun l).nextId
    let s1 : State := { s.begun l with nextId := bid + 1, blocks := s.blocks ++ [l.newBlock bid core l.nextBlock] }
    let s2 := (List.range l.parts.length).foldl (State.placeWarp l bid core l.nextBlock segs) s1
    (s.startBlock l core segs).warps = s2.warps ∧ (s.startBlock l core segs).blocks = s2.blocks := by
  have all : s.blocks.filter (fun b => some b.bid != (none : Option Nat)) = s.blocks := List.filter_eq_self.mpr fun b _ => rfl
  have none : (s.restarts l).head? = none := by rw [first, List.head?_nil]
  intro bid s1 s2
  unfold State.startBlock
  rw [none]
  simp only [Option.map_none]
  rw [all]
  exact ⟨rfl, rfl⟩

/-- The next block of a launch stands on a core, with its warps at entry. -/
theorem blockPlace_places {s : State} {lid core : Nat} {l : Launch} {segs : List Nat} (hl : s.launch? lid = some l)
    (turn : (s.placeOrder l.die).head? = some l) (begun : l.phase ≠ .waiting) (plain : l.isSample = false) (first : s.restarts l = [])
    (fits : s.coreFor l = some core) (seg : s.findSegments l.ctx l.die l.need.warps [] = some segs) :
    ∃ t b ws, exec (.blockPlace lid) s = .next t ∧ t.blocks = s.blocks ++ [b] ∧ t.warps = s.warps ++ ws ∧
      b.core = core ∧ b.die = l.die ∧ b.launch = lid ∧ b.index = l.nextBlock ∧ b.residency = .resident ∧ b.shared = [] ∧
      ws.length = l.parts.length ∧ ∀ w ∈ ws, l.PlacesWarp b.bid core w := by
  have own : l.lid = lid := by simpa using List.find?_some hl
  obtain ⟨warps, blocks⟩ := State.startBlock_next first core segs
  obtain ⟨ws, added, len, all⟩ := State.placeWarps_add plain (s.begun l).nextId core segs (List.range l.parts.length)
    { s.begun l with nextId := (s.begun l).nextId + 1, blocks := s.blocks ++ [l.newBlock (s.begun l).nextId core l.nextBlock] }
  obtain ⟨hbid, rest⟩ := Launch.newBlock_fields plain (s.begun l).nextId core l.nextBlock
  refine ⟨s.startBlock l core segs, l.newBlock (s.begun l).nextId core l.nextBlock, ws, ?_, ?_, ?_, ?_⟩
  · change execBlockPlace lid s = _
    simp [execBlockPlace, hl, State.placeNext, turn, begun, fits, seg]
  · rw [blocks, State.placeWarps_blocks]
  · rw [warps, added, (s.begun_rest l).1]
  · obtain ⟨hcore, hdie, launch, index, stands, empty⟩ := rest
    exact ⟨hcore, hdie, launch.trans own, index, stands, empty, by rw [len, List.length_range], hbid.symm ▸ all⟩

end Sys2Proof.Machine

namespace Sys2Proof.Machine

/-! ## Saving a block (R437) -/

/-- A record without what a wait on a copy knows of the copy's fault (R296). -/
def Record.unlost (r : Record) : Record :=
  match r.wait with
  | .copy h _ => { r with wait := .copy h false }
  | _ => r

/-- A warp without what its waits on copies know of the copies' faults. -/
def Warp.unlost (w : Warp) : Warp := { w with records := w.records.map Record.unlost }

/-- A warp as it is when its block is saved. -/
def Warp.save (bid : Nat) (w : Warp) : Warp :=
  if w.block = some bid then { w with resident := false, active := false, records := w.records.map w.savedRecord } else w

/-- A wait on the faulted copy of a handle names it no more. -/
def Record.loses (handle : Nat) (r : Record) : Record := if r.wait == .copy handle false then { r with wait := .copy handle true } else r

/-- What is saved of a record does not depend on its wait, which it keeps. -/
theorem Warp.savedRecord_wait (w : Warp) (r : Record) (x : Wait) :
    w.savedRecord { r with wait := x } = { w.savedRecord r with wait := x } := by
  simp only [Warp.savedRecord]
  split <;> rfl

theorem Warp.wait_savedRecord (w : Warp) (r : Record) : (w.savedRecord r).wait = r.wait := by
  unfold Warp.savedRecord
  split <;> rfl

theorem Record.unlost_wait (r : Record) (h : Nat) (x : Bool) (old : Bool) (e : r.wait = .copy h old) :
    Record.unlost { r with wait := .copy h x } = r.unlost := by
  simp only [Record.unlost, e]

theorem Record.unlost_saved_loses (w : Warp) (handle : Nat) (r : Record) :
    (w.savedRecord (r.loses handle)).unlost = (w.savedRecord r).unlost := by
  unfold Record.loses
  split
  · next waits =>
    rw [Warp.savedRecord_wait]
    exact Record.unlost_wait _ handle true false ((w.wait_savedRecord r).trans (by simpa using waits))
  · rfl

/-- What a saved warp holds but for what it knows of faults is the same once handles are lost. -/
theorem Warp.unlost_save_loses (bid handle : Nat) (w : Warp) :
    (Warp.save bid { w with records := w.records.map (Record.loses handle) }).unlost = (w.save bid).unlost := by
  have plain (r : Record) : (r.loses handle).unlost = r.unlost := by
    unfold Record.loses
    split
    · next waits => exact Record.unlost_wait r handle true false (by simpa using waits)
    · rfl
  have saved (r : Record) : (Warp.savedRecord { w with records := w.records.map (Record.loses handle) } r) = w.savedRecord r := rfl
  unfold Warp.save
  split
  · simp only [Warp.unlost, List.map_map, Function.comp_def, saved, Record.unlost_saved_loses]
  · simp only [Warp.unlost, List.map_map, Function.comp_def, plain]

theorem State.unlost_loseHandle (s : State) (o : EngineOp) (bid : Nat) :
    (s.loseHandle o).warps.map (fun w => (w.save bid).unlost) = s.warps.map (fun w => (w.save bid).unlost) := by
  unfold State.loseHandle
  split
  · simp only [List.map_map]
    refine List.map_congr_left fun w _ => ?_
    simp only [Function.comp]
    split
    · exact Warp.unlost_save_loses bid _ w
    · rfl
  · rfl

/-- A set held in place is saved in full (R432, R437). -/
theorem Warp.savedRecord_full (w : Warp) {r : Record} {k : Nat} (slot : r.place = .slot k) (ready : r.state = .ready) :
    (w.savedRecord r).inPlace = false ∧ (w.savedRecord r).live = List.range w.footprint ∧
      (w.savedRecord r).saved.map (·.lane) = r.lanes ∧
      ∀ v ∈ (w.savedRecord r).saved, ∀ k < w.footprint, v.regs.get k = (w.lane v.lane).reg k := by
  have full : w.savedRecord r = { r with
      inPlace := false, place := .image false, live := List.range w.footprint, saved := w.saveLanes r.lanes (List.range w.footprint)
      size := 320 + 128 * (List.range w.footprint).length } := by
    simp only [Warp.savedRecord, slot, ready]
    rfl
  rw [full]
  refine ⟨rfl, rfl, ?_, fun v hv k hk => ?_⟩
  · simp [Warp.saveLanes, Function.comp_def]
  · obtain ⟨l, _, rfl⟩ := List.mem_map.mp hv
    exact (Cells.get_filter_key _ (fun n => (List.range w.footprint).contains n) k).trans (by simp [hk, Lane.reg])

/-- What a lost handle leaves of the machine. -/
theorem State.loseHandle_rest (s : State) (o : EngineOp) : { s.loseHandle o with warps := [] } = { s with warps := [] } := by
  unfold State.loseHandle
  split <;> rfl

theorem State.loseHandle_whole (s : State) {o : EngineOp} (h : o.fault = none) : s.loseHandle o = s := by
  unfold State.loseHandle
  rw [h]
  split <;> simp_all

theorem State.loseHandles_rest (os : List EngineOp) (s : State) :
    { os.foldl (fun s o => s.loseHandle o) s with warps := [] } = { s with warps := [] } :=
  foldl_keeps _ (fun s : State => { s with warps := [] }) State.loseHandle_rest os s

/-- A change of a block that keeps its memories keeps every byte. -/
theorem State.byteAt_modBlock (s : State) (b : Nat) {f : Block → Block} (hf : ∀ x, (f x).bid = x.bid) (shared : ∀ x, (f x).shared = x.shared)
    (wb : ∀ x, (f x).wb = x.wb) (sp : Space) (a : Nat) : (s.modBlock b f).byteAt sp a = s.byteAt sp a := by
  have same (v : Nat) (x : Block) : (if v = b then f x else x).shared = x.shared ∧ (if v = b then f x else x).wb = x.wb := by
    split
    · exact ⟨shared x, wb x⟩
    · exact ⟨rfl, rfl⟩
  cases sp with
  | shared v => exact (State.sharedAt_modBlock s b v a f hf).trans (by simp only [(same v _).1]; rfl)
  | spad d => rfl
  | weight v => exact (State.weightAt_modBlock s b v a f hf).trans (by simp only [(same v _).2]; rfl)

/-- A state in which the bytes of an image read 0 and the handles of a block's faulted copies are lost. -/
def State.clearedFor (s : State) (b : Block) (bid base len : Nat) : State :=
  let s1 := s.spacePut (.spad b.die) base (List.replicate len 0)
  (s1.ops.filter (fun o => ((s.warpsOf bid).map (·.wid)).contains o.wid)).foldl (fun s o => s.loseHandle o) s1

/-- A saved block, with the place of its image. -/
def Block.saved (base len : Nat) (x : Block) : Block := { x with residency := .saved, imageBase := base, imageLen := len }

/-- The state that a save of a block leaves (R437). -/
def State.saveAt (s : State) (b : Block) (bid base len : Nat) : State :=
  let s2 := (s.clearedFor b bid base len).modBlock bid (Block.saved base len)
  { s2 with
    warps := s2.warps.map (fun w => if w.block == some bid then
      { w with resident := false, active := false, records := w.records.map w.savedRecord } else w)
    ops := s2.ops.map (fun o => if ((s.warpsOf bid).map (·.wid)).contains o.wid && o.fault.isSome then
      { o with core := Config.coresPerDie } else o) }

section
variable (s : State) (b : Block) (bid base len : Nat)

theorem State.clearedFor_rest : { s.clearedFor b bid base len with warps := [] } =
    { s.spacePut (.spad b.die) base (List.replicate len 0) with warps := [] } := State.loseHandles_rest _ _

/-- A save writes out the warps of its block. -/
theorem State.saveAt_warps : (s.saveAt b bid base len).warps = (s.clearedFor b bid base len).warps.map (Warp.save bid) :=
  List.map_congr_left fun w _ => by simp only [Warp.save, beq_iff_eq]

/-- What a save leaves of the warps, but for what they know of faulted copies. -/
theorem State.unlost_saveAt : (s.saveAt b bid base len).warps.map Warp.unlost = (s.warps.map (Warp.save bid)).map Warp.unlost := by
  rw [State.saveAt_warps, List.map_map, List.map_map]
  exact foldl_keeps _ (fun s : State => s.warps.map (fun w => (w.save bid).unlost)) (fun s o => s.unlost_loseHandle o bid) _ _

/-- No handle is lost where no copy of the block's warps has faulted. -/
theorem State.saveAt_whole (whole : ∀ o ∈ s.ops, o.fault = none ∨ ∀ w ∈ s.warpsOf bid, o.wid ≠ w.wid) :
    (s.saveAt b bid base len).warps = s.warps.map (Warp.save bid) := by
  rw [State.saveAt_warps, State.clearedFor, foldl_eq_self]
  · rfl
  · intro o ho
    obtain ⟨mem, named⟩ := List.mem_filter.mp ho
    obtain ⟨w, hw, own⟩ := List.mem_map.mp (List.contains_iff_mem.mp named)
    exact State.loseHandle_whole _ ((whole o mem).resolve_right fun other => other w hw own.symm)

theorem State.block?_saveAt (hb : s.block? bid = some b) :
    (s.saveAt b bid base len).block? bid = some (b.saved base len) := by
  have blocks : (s.clearedFor b bid base len).blocks = s.blocks := (congrArg State.blocks (s.clearedFor_rest b bid base len) :)
  have found : (s.clearedFor b bid base len).block? bid = some b := by rw [State.block?, blocks]; exact hb
  refine (State.block?_modBlock (s.clearedFor b bid base len) bid bid (Block.saved base len) (fun _ => rfl)).trans ?_
  rw [found, Option.map_some, if_pos rfl]

theorem State.byteAt_saveAt (sp : Space) (a : Nat) : (s.saveAt b bid base len).byteAt sp a =
    (s.spacePut (.spad b.die) base (List.replicate len 0)).byteAt sp a := by
  have same := State.byteAt_modBlock (s.clearedFor b bid base len) bid (f := Block.saved base len) (fun _ => rfl) (fun _ => rfl) (fun _ => rfl) sp a
  have rest := congrArg (fun t : State => t.byteAt sp a) (s.clearedFor_rest b bid base len)
  cases sp <;> exact same.trans rest

/-- A save changes no byte but those of its image. -/
theorem State.bytesKept_saveAt : BytesKept s (s.saveAt b bid base len) (bytesFrom (.spad b.die) base len) where
  dram _ := by rw [show (s.saveAt b bid base len).dram = s.dram from (congrArg State.dram (s.clearedFor_rest b bid base len) :)]
  host _ := by rw [show (s.saveAt b bid base len).hostMem = s.hostMem from (congrArg State.hostMem (s.clearedFor_rest b bid base len) :)]
  onDie sp a out := by
    rw [State.byteAt_saveAt]
    exact State.byteAt_spacePut_other _ _ _ _ _ _ (by simpa [bytesFrom] using out)

theorem State.spadAt_saveAt (hd : b.die < s.dies.length) {k : Nat} (hk : k < len) : (s.saveAt b bid base len).spadAt b.die (base + k) = 0 := by
  refine (s.byteAt_saveAt b bid base len (.spad b.die) (base + k)).trans ?_
  rw [State.byteAt_spacePut_same s (.spad b.die) base k _ hd (by simpa using hk)]
  simp [hk]
end

/-- A quiet block that is being saved leaves its core, with its image where there is room (R437). -/
theorem blockSave_saves {s : State} {bid base : Nat} {b : Block} (hb : s.block? bid = some b) (saving : b.residency = .saving)
    (quiet : s.quietBlock b = true) (room : s.imagePlace b = some base) :
    exec (.blockSave bid) s = .next (s.saveAt b bid base (roundUp (s.imageSize b) 4096)) := by
  change execBlockSave bid s = _
  have test : (b.residency == Residency.saving && s.quietBlock b) = true := by simp [saving, quiet]
  simp only [execBlockSave, hb, test, room]
  rfl

end Sys2Proof.Machine

namespace Sys2Proof.Machine

/-! ## Events of deques and TCBs (R325, R326, R336) -/

/-- A write event that wait.addr does not see leaves other bytes. -/
theorem State.byteAt_spaceSet_other (s : State) (sp q : Space) (a k : Nat) (bs : List Byte) (h : ¬ (q = sp ∧ a ≤ k ∧ k < a + bs.length)) :
    (s.spaceSet sp a bs).byteAt q k = s.byteAt q k := by
  unfold State.spaceSet
  split
  · rfl
  · rw [State.byteAt_spacePut_other _ _ _ _ _ _ h, (s.sameMemory_beforeWrite sp a bs.length).byteAt]

/-- A number that such an event writes is read back, where no save image lies. -/
theorem State.numberAt_spaceSet (s : State) {sp : Space} {a n v : Nat} (hs : s.hasSpace sp) (free : s.noImages) (small : v < 256 ^ n) :
    (s.spaceSet sp a (natToBytes n v)).numberAt sp a n = v := by
  have bytes : (List.range n).map (fun j => (s.spaceSet sp a (natToBytes n v)).byteAt sp (a + j)) = natToBytes n v := by
    refine List.ext_getElem (by simp) fun j hj hk => ?_
    rw [List.getElem_map, List.getElem_range, State.spaceSet, State.inImage_noImages free, if_neg Bool.false_ne_true,
      State.byteAt_spacePut_same _ _ _ _ _ (State.hasSpace_of_bare (s.bare_beforeWrite _ _ _) hs) hk, List.getD_eq_getElem?_getD,
      List.getElem?_eq_getElem hk, Option.getD_some]
  rw [State.numberAt, bytes, bytesToNat_natToBytes, Nat.mod_eq_of_lt small]

/-- What a task's event sees of the Launch Processor and of the window of its context: launches, window and deques. -/
structure SameDesk (v : Warp) (s t : State) : Prop where
  launches : t.launches = s.launches
  address : ∀ o, t.spaceAddr v false o = s.spaceAddr v false o
  deque : ∀ core, t.deque v core = s.deque v core

theorem SameDesk.trans {v : Warp} {s t u : State} (h : SameDesk v s t) (g : SameDesk v t u) : SameDesk v s u :=
  ⟨g.launches.trans h.launches, fun o => (g.address o).trans (h.address o), fun c => (g.deque c).trans (h.deque c)⟩

theorem SameDesk.of_ctxs {v : Warp} {s t : State} (launches : t.launches = s.launches) (ctxs : t.ctxs = s.ctxs) : SameDesk v s t := by
  have same : t.ctx? v.ctx = s.ctx? v.ctx := by rw [State.ctx?, ctxs, State.ctx?]
  exact ⟨launches, fun o => by rw [State.spaceAddr, same, State.spaceAddr],
    fun core => by unfold State.deque State.hasDeque; rw [same]⟩

theorem SameDesk.of_bare {v : Warp} {s t : State} (h : t.bare = s.bare) : SameDesk v s t :=
  .of_ctxs (State.launches_of_bare h) (congrArg State.ctxs h :)

/-- The tasks that are counted of a die are no part of its registers. -/
theorem Context.die_tasks (c : Context) (d e : Nat) (f : List (Nat × Nat) → List (Nat × Nat)) :
    { (c.modDie d (fun x => { x with tasks := f x.tasks })).die e with tasks := [] } = { c.die e with tasks := [] } := by
  simp only [Context.die, Context.modDie, List.getD_eq_getElem?_getD, List.getElem?_modify]
  cases c.dies[e]? with
  | none => rfl
  | some x => by_cases h : d = e <;> simp [h]

/-- A context of which a die counts other tasks has its window, spill area and deques. -/
theorem Context.registers_of_die {c x : Context} {d : Nat} (h : { x.die d with tasks := [] } = { c.die d with tasks := [] }) :
    x.window d = c.window d ∧ x.spillArea d = c.spillArea d ∧ ∀ core, x.dequeRegion d core = c.dequeRegion d core := by
  have spb : (x.die d).spb = (c.die d).spb := (congrArg CtxDie.spb h :)
  have spl : (x.die d).spl = (c.die d).spl := (congrArg CtxDie.spl h :)
  have csab : (x.die d).csab = (c.die d).csab := (congrArg CtxDie.csab h :)
  have csal : (x.die d).csal = (c.die d).csal := (congrArg CtxDie.csal h :)
  have dqb : (x.die d).dqb = (c.die d).dqb := (congrArg CtxDie.dqb h :)
  have dql : (x.die d).dql = (c.die d).dql := (congrArg CtxDie.dql h :)
  exact ⟨by rw [Context.window, spb, spl]; rfl, by rw [Context.spillArea, csab, csal]; rfl,
    fun core => by rw [Context.dequeRegion, Context.dequeRegs, dqb, dql]; rfl⟩

theorem State.sameDesk_addTask (s : State) (v w : Warp) (tag t : Nat) : SameDesk v s (s.addTask w tag t) := by
  have found : (s.addTask w tag t).ctx? v.ctx = _ := s.ctx?_modCtx v.ctx w.ctx _ (fun _ => rfl)
  cases hc : s.ctx? v.ctx with
  | none =>
    rw [hc, Option.map_none] at found
    exact ⟨rfl, fun o => by simp only [State.spaceAddr, hc, found], fun core => by simp only [State.deque, hc, found]⟩
  | some c =>
    rw [hc, Option.map_some] at found
    have same : ∀ x : Context, (if v.ctx = w.ctx then c.modDie w.die
        (fun x => { x with tasks := (tag, t) :: x.tasks.filter (fun y => y.2 != t) }) else c) = x →
        x.window v.die = c.window v.die ∧ x.spillArea v.die = c.spillArea v.die ∧ ∀ core, x.dequeRegion v.die core = c.dequeRegion v.die core := by
      rintro x rfl
      split
      · exact Context.registers_of_die (c.die_tasks w.die v.die (fun ts => (tag, t) :: ts.filter (fun y => y.2 != t)))
      · exact ⟨rfl, rfl, fun _ => rfl⟩
    obtain ⟨window, area, region⟩ := same _ rfl
    refine ⟨rfl, fun o => ?_, fun core => ?_⟩
    · simp only [State.spaceAddr, hc, found, Option.map_some, window]
    · simp only [State.deque, State.hasDeque, hc, found, Context.windowOk, window, area, region]

theorem State.sameDesk_modCore (s : State) (v : Warp) (d c : Nat) (f : Core → Core) : SameDesk v s (s.modCore d c f) := .of_ctxs rfl rfl

theorem State.byteAt_modCore (s : State) (d c : Nat) (f : Core → Core) (sp : Space) (a : Nat) : (s.modCore d c f).byteAt sp a = s.byteAt sp a := by
  cases sp with
  | spad e =>
    refine (s.spadAt_modDie d e a _).trans ?_
    split <;> rfl
  | _ => rfl

/-! ## Bytes of a TCB -/

/-- A field of a TCB is a number of the scratchpad. -/
theorem State.tcbField_eq (s : State) (v : Warp) (t lo n : Nat) :
    s.tcbField v t lo n = s.numberAt (.spad v.die) (s.spaceAddr v false t + lo) n := by
  rw [State.tcbField, State.bytesToNat_spaceBytes]
  simp only [State.spaceAddr, Bool.false_eq_true, if_false, Nat.add_assoc]

theorem SameDesk.tcbField {v : Warp} {s u : State} (h : SameDesk v s u) {t lo n : Nat}
    (bytes : ∀ x, s.spaceAddr v false t + lo ≤ x → x < s.spaceAddr v false t + lo + n → u.byteAt (.spad v.die) x = s.byteAt (.spad v.die) x) :
    u.tcbField v t lo n = s.tcbField v t lo n := by
  rw [State.tcbField_eq, State.tcbField_eq, h.address]
  exact State.numberAt_congr bytes

/-- The words of a deque's header. -/
theorem State.dqHead_eq (s : State) (v : Warp) (core : Nat) :
    s.dqHead v core = BitVec.ofNat 32 (s.numberAt (.spad v.die) (s.deque v core).1 4) := by
  rw [State.dqHead, State.spaceWord, State.bytesToNat_spaceBytes]

theorem State.dqTail_eq (s : State) (v : Warp) (core : Nat) :
    s.dqTail v core = BitVec.ofNat 32 (s.numberAt (.spad v.die) ((s.deque v core).1 + 4) 4) := by
  rw [State.dqTail, State.spaceWord, State.bytesToNat_spaceBytes]

/-- A byte of a list of which one byte is replaced. -/
theorem getD_putField_one (bs : List Byte) (k v j : Nat) (hk : k < bs.length) :
    (putField bs k 1 v).getD j 0 = if j = k then BitVec.ofNat 8 v else bs.getD j 0 := by
  have len : (bs.take k).length = k := by rw [List.length_take, Nat.min_eq_left hk.le]
  simp only [putField, natToBytes, List.append_assoc, List.getD_eq_getElem?_getD]
  rcases Nat.lt_trichotomy j k with h | rfl | h
  · rw [List.getElem?_append_left (by omega), List.getElem?_take_of_lt h, if_neg h.ne]
  · rw [List.getElem?_append_right (by omega), len, Nat.sub_self, if_pos rfl]
    rfl
  · rw [List.getElem?_append_right (by omega), len, List.getElem?_append_right (by simp; omega), List.getElem?_drop, if_neg h.ne']
    simp only [List.length_singleton]
    congr 2
    omega

theorem length_putField_one (bs : List Byte) (k v : Nat) (hk : k < bs.length) : (putField bs k 1 v).length = bs.length := by
  simp [putField]
  omega

/-- A field of bytes of an on-die memory. -/
theorem State.fieldOf_spaceBytes_one (s : State) (sp : Space) (a n k : Nat) (hk : k < n) :
    fieldOf (s.spaceBytes sp a n) k 1 = s.numberAt sp (a + k) 1 := by
  have byte : ((s.spaceBytes sp a n).drop k).take 1 = [s.byteAt sp (a + k)] := by
    rw [State.spaceBytes_eq]
    refine List.ext_getElem (by simp; omega) fun j hj _ => ?_
    have zero : j = 0 := by simp at hj; omega
    subst zero
    simp
  rw [fieldOf, byte]
  rfl

/-- A TCB of another STATE has its other bytes. -/
theorem State.byteAt_modTcb_state {s : State} {v : Warp} (hd : v.die < s.dies.length) (free : s.noImages) (t st x : Nat) :
    (s.modTcb v t (withTaskState st)).byteAt (.spad v.die) x =
      if x = s.spaceAddr v false t + 45 then BitVec.ofNat 8 (s.tcbField v t 45 1 % 16 + 16 * st) else s.byteAt (.spad v.die) x := by
  let a := s.spaceAddr v false t
  let bs := s.spaceBytes (.spad v.die) a 64
  have len : bs.length = 64 := by simp only [bs, State.spaceBytes_eq, List.length_map, List.length_range]
  have size : (withTaskState st bs).length = 64 := by rw [withTaskState, length_putField_one _ _ _ (by omega), len]
  have field : fieldOf bs 45 1 = s.tcbField v t 45 1 := by
    rw [State.tcbField_eq]
    exact s.fieldOf_spaceBytes_one _ a 64 45 (by decide)
  change (s.spaceWrite (.spad v.die) a (withTaskState st bs) none).byteAt (.spad v.die) x = if x = a + 45 then _ else _
  by_cases inside : a ≤ x ∧ x < a + 64
  · obtain ⟨j, rfl⟩ := Nat.exists_eq_add_of_le inside.1
    have small : j < 64 := by omega
    rw [State.byteAt_spaceWrite (sp := .spad v.die) (bs := withTaskState st bs) s none hd
      (State.inImage_noImages free _ _ _) (by omega), withTaskState,
      getD_putField_one _ _ _ _ (by omega), field]
    simp only [Nat.add_left_cancel_iff]
    split
    · rfl
    · simp [bs, State.spaceBytes_eq, small]
  · rw [(s.written_spaceWrite (.spad v.die) a (withTaskState st bs) none).bytes.onDie (.spad v.die) x
      (fun ⟨_, lo, hi⟩ => inside ⟨lo, by omega⟩), if_neg (by omega)]

theorem State.quiet_modCore (s : State) (d c : Nat) (f : Core → Core) : Quiet s (s.modCore d c f) := s.quiet_modDie d _ (fun _ => rfl)

theorem State.noImages_of_bare {s t : State} (h : t.bare = s.bare) (free : s.noImages) : t.noImages := by
  have own (u : State) : u.bare.blocks.map (·.imageLen) = u.blocks.map (·.imageLen) := by
    simp only [State.bare, List.map_map]
    rfl
  have same : t.blocks.map (·.imageLen) = s.blocks.map (·.imageLen) := by rw [← own t, h, own s]
  intro b hb
  obtain ⟨x, hx, e⟩ := List.mem_map.mp (same ▸ List.mem_map_of_mem hb)
  rw [← e]
  exact free x hx

/-! ## Taking a task from an end of a deque (R326) -/

/-- Where the header word of an end of a deque lies: TAIL at the owner end, HEAD at a thief end. -/
def State.endWord (s : State) (v : Warp) (core : Nat) (owner : Bool) : Nat := (s.deque v core).1 + (if owner then 4 else 0)

/-- That word once the entry at the end is taken. -/
def State.endNext (s : State) (v : Warp) (core : Nat) (owner : Bool) : Word := if owner then s.dqTail v core - 1 else s.dqHead v core + 1

/-- The number of the entry at an end. -/
def State.endIndex (s : State) (v : Warp) (core : Nat) (owner : Bool) : Word := if owner then s.dqTail v core - 1 else s.dqHead v core

/-- A state without the entry at an end of a deque. -/
def State.withoutEnd (s : State) (v : Warp) (core : Nat) (owner : Bool) : State :=
  (s.spaceSet (.spad v.die) (s.endWord v core owner) (natToBytes 4 (s.endNext v core owner).toNat)).setReleased v core
    ((s.releasedNow v core).filter (fun x => x.1 != (s.endIndex v core owner).toNat))

theorem State.dqTake_eq {s : State} {v : Warp} {core t : Nat} {owner : Bool} (peek : s.dqPeek v core owner = some t) (fits : s.tcbTrap v t = 0) (st : Nat) :
    s.dqTake v core owner st = some (t, (s.withoutEnd v core owner).setLive v t st) := by
  have test : (s.tcbTrap v t == 0) = true := by simp [fits]
  simp only [State.dqTake, peek, test, if_true]
  cases owner <;> rfl

section
variable {s : State} {v : Warp} {core t : Nat} {owner : Bool} (hd : v.die < s.dies.length) (free : s.noImages)

theorem State.sameDesk_withoutEnd : SameDesk v s (s.withoutEnd v core owner) :=
  (SameDesk.of_bare (s.bare_spaceSet _ _ _)).trans (State.sameDesk_modCore _ _ _ _ _)

theorem State.byteAt_withoutEnd_other {x : Nat} (h : x < s.endWord v core owner ∨ s.endWord v core owner + 4 ≤ x) :
    (s.withoutEnd v core owner).byteAt (.spad v.die) x = s.byteAt (.spad v.die) x := by
  refine (State.byteAt_modCore _ _ _ _ _ _).trans (State.byteAt_spaceSet_other _ _ _ _ _ _ fun ⟨_, lo, hi⟩ => ?_)
  rw [natToBytes_length] at hi
  omega

include hd free in
theorem State.numberAt_withoutEnd : (s.withoutEnd v core owner).numberAt (.spad v.die) (s.endWord v core owner) 4 =
    (s.endNext v core owner).toNat := by
  refine (State.numberAt_congr fun x _ _ => State.byteAt_modCore _ _ _ _ _ _).trans ?_
  exact s.numberAt_spaceSet hd free (by have := (s.endNext v core owner).isLt; omega)

include free in
theorem State.noImages_withoutEnd : (s.withoutEnd v core owner).noImages :=
  (State.quiet_modCore _ _ _ _).noImages (State.noImages_of_bare (s.bare_spaceSet _ _ _) free)

include hd in
theorem State.die_withoutEnd : v.die < (s.withoutEnd v core owner).dies.length :=
  (State.quiet_modCore _ _ _ _).hasSpace (sp := .spad v.die) (State.hasSpace_of_bare (s.bare_spaceSet _ _ _) hd)

/-- What remains of a deque once the entry at an end is taken and its TCB is another STATE's. -/
def State.taken (s : State) (v : Warp) (core t : Nat) (owner : Bool) (st : Nat) : State := (s.withoutEnd v core owner).setLive v t st

theorem State.sameDesk_taken (st : Nat) : SameDesk v s (s.taken v core t owner st) := by
  have wrote := (s.withoutEnd v core owner).written_spaceWrite (.spad v.die) ((s.withoutEnd v core owner).spaceAddr v false t)
    (withTaskState st ((s.withoutEnd v core owner).spaceBytes (.spad v.die) ((s.withoutEnd v core owner).spaceAddr v false t) 64)) none
  exact (State.sameDesk_withoutEnd.trans (.of_bare wrote.rest)).trans (State.sameDesk_addTask _ _ _ _ _)

include hd free in
/-- The byte of a TCB that says its STATE, and every other byte but the header of the deque. -/
theorem State.byteAt_taken (st x : Nat) : (s.taken v core t owner st).byteAt (.spad v.die) x =
    if x = s.spaceAddr v false t + 45 then BitVec.ofNat 8 ((s.withoutEnd v core owner).tcbField v t 45 1 % 16 + 16 * st)
    else (s.withoutEnd v core owner).byteAt (.spad v.die) x := by
  rw [← State.sameDesk_withoutEnd.address t]
  exact State.byteAt_modTcb_state (State.die_withoutEnd hd) (State.noImages_withoutEnd free) t st x

section
variable (apart : (s.deque v core).1 + 8 ≤ s.spaceAddr v false t ∨ s.spaceAddr v false t + 64 ≤ (s.deque v core).1)
include apart

theorem State.tcbField_withoutEnd {lo n : Nat} (inside : lo + n ≤ 64) :
    (s.withoutEnd v core owner).tcbField v t lo n = s.tcbField v t lo n :=
  State.sameDesk_withoutEnd.tcbField fun x hlo hhi => State.byteAt_withoutEnd_other (by
    unfold State.endWord
    split <;> omega)

include hd free

/-- A taken task's TCB keeps every field but its STATE. -/
theorem State.tcbField_taken (st : Nat) {lo n : Nat} (inside : lo + n ≤ 45 ∨ 46 ≤ lo ∧ lo + n ≤ 64) :
    (s.taken v core t owner st).tcbField v t lo n = s.tcbField v t lo n := by
  rw [← State.tcbField_withoutEnd (owner := owner) apart (show lo + n ≤ 64 by omega), State.tcbField_eq, State.tcbField_eq,
    (State.sameDesk_taken st).address, State.sameDesk_withoutEnd.address]
  exact State.numberAt_congr fun x hlo hhi => by rw [State.byteAt_taken hd free, if_neg (by omega)]

/-- Its STATE is the new one, and its DEPTH the old. -/
theorem State.tcbByte_taken {st : Nat} (small : st < 16) :
    (s.taken v core t owner st).tcbField v t 45 1 = s.tcbField v t 45 1 % 16 + 16 * st := by
  rw [← State.tcbField_withoutEnd (owner := owner) apart (show 45 + 1 ≤ 64 by decide), State.tcbField_eq, (State.sameDesk_taken st).address]
  have byte := State.byteAt_taken (core := core) (t := t) (owner := owner) hd free st (s.spaceAddr v false t + 45)
  rw [if_pos rfl] at byte
  simp only [State.numberAt, List.range_one, List.map_singleton, Nat.add_zero, byte, bytesToNat, BitVec.toNat_ofNat]
  omega

theorem State.tcbState_taken {st : Nat} (small : st < 16) : (s.taken v core t owner st).tcbState v t = st := by
  rw [State.tcbState, State.tcbByte_taken hd free apart small]
  omega

theorem State.tcbDepth_taken {st : Nat} (small : st < 16) : (s.taken v core t owner st).tcbDepth v t = s.tcbDepth v t := by
  rw [State.tcbDepth, State.tcbByte_taken hd free apart small, State.tcbDepth]
  omega

/-- The deque has one entry less. -/
theorem State.dqCount_taken (st : Nat) (some : s.dqCount v core ≠ 0) : (s.taken v core t owner st).dqCount v core = s.dqCount v core - 1 := by
  have header {x : Nat} (lo : (s.deque v core).1 ≤ x) (hi : x < (s.deque v core).1 + 8) :
      (s.taken v core t owner st).byteAt (.spad v.die) x = (s.withoutEnd v core owner).byteAt (.spad v.die) x := by
    rw [State.byteAt_taken hd free, if_neg (by omega)]
  have head : (s.taken v core t owner st).dqHead v core = if owner then s.dqHead v core else s.dqHead v core + 1 := by
    rw [State.dqHead_eq, (State.sameDesk_taken st).deque, State.numberAt_congr (s := s.withoutEnd v core owner) fun x lo hi => header lo (by omega)]
    cases owner with
    | true =>
      rw [State.numberAt_congr (s := s) fun x lo hi => State.byteAt_withoutEnd_other (by simp only [State.endWord, if_true]; omega),
        ← State.dqHead_eq]
      rfl
    | false =>
      have wrote := State.numberAt_withoutEnd (core := core) (owner := false) hd free
      exact (congrArg (BitVec.ofNat 32) wrote).trans (BitVec.ofNat_toNat 32 _)
  have tail : (s.taken v core t owner st).dqTail v core = if owner then s.dqTail v core - 1 else s.dqTail v core := by
    rw [State.dqTail_eq, (State.sameDesk_taken st).deque,
      State.numberAt_congr (s := s.withoutEnd v core owner) fun x lo hi => header (by omega) (by omega)]
    cases owner with
    | true =>
      have wrote := State.numberAt_withoutEnd (core := core) (owner := true) hd free
      exact (congrArg (BitVec.ofNat 32) wrote).trans (BitVec.ofNat_toNat 32 _)
    | false =>
      rw [State.numberAt_congr (s := s) fun x lo hi => State.byteAt_withoutEnd_other (by simp only [State.endWord, Bool.false_eq_true, if_false]; omega),
        ← State.dqTail_eq]
      rfl
  rw [State.dqCount, head, tail]
  rw [State.dqCount] at some
  cases owner
  · simp only [State.dqCount, Bool.false_eq_true, if_false]
    bv_omega
  · simp only [State.dqCount, if_true]
    bv_omega
end

end

end Sys2Proof.Machine

namespace Sys2Proof.Machine

/-! ## Tasks start (R327, R328) -/

/-- What a task's event sees alike, it counts alike. -/
theorem SameDesk.dqCount {v : Warp} {s u : State} (h : SameDesk v s u) (bytes : ∀ x, u.byteAt (.spad v.die) x = s.byteAt (.spad v.die) x)
    (core : Nat) : u.dqCount v core = s.dqCount v core := by
  rw [State.dqCount, State.dqTail_eq, State.dqHead_eq, h.deque, State.numberAt_congr fun x _ _ => bytes x,
    State.numberAt_congr fun x _ _ => bytes x, ← State.dqTail_eq, ← State.dqHead_eq, State.dqCount]

/-- An entry at an end of a deque is one of its entries. -/
theorem State.dqCount_of_peek {s : State} {v : Warp} {core t : Nat} {owner : Bool} (peek : s.dqPeek v core owner = some t) :
    s.dqCount v core ≠ 0 := by
  intro none
  simp [State.dqPeek, none] at peek

/-- A core that fits a task has room for its segment, and its TCB passes its check. -/
theorem State.of_taskFits {s : State} {die core ctx t : Nat} (fits : s.taskFits die core ctx t = true) :
    s.tcbTrap (coreWarp die core ctx) t = 0 ∧ ∃ seg, s.findSpill ctx die 0x9000 = some seg := by
  simp only [State.taskFits, Bool.and_eq_true, beq_iff_eq, Option.isSome_iff_exists] at fits
  exact ⟨fits.1.1.1.1.1.1, fits.2⟩

/-- A tag names the running launch that has it. -/
theorem State.tagLaunch_running {s : State} {ctx die tag : Nat} {l : Launch}
    (h : s.launches.find? (fun l => l.ctx == ctx && l.die == die && l.tag == tag && l.running) = some l) :
    s.tagLaunch ctx die tag = (some l, s) := by
  simp only [State.tagLaunch, h]

/-- The arguments of the task of a TCB (Table 15.1). -/
def State.taskArgs (s : State) (v : Warp) (t : Nat) : List Word :=
  (List.range 8).map (fun k => BitVec.ofNat 32 (s.tcbField v t (4 + 4 * k) 4))

/-- A warp is that of a task, at its entry, on a core as v sees it. -/
structure Warp.StartsTask (w : Warp) (s : State) (v : Warp) (t : Nat) (l : Launch) : Prop where
  entry : w.atEntry (s.tcbField v t 0 4) (s.taskArgs v t)
  kind : w.kind = .task
  die : w.die = v.die
  core : w.core = v.core
  ctx : w.ctx = v.ctx
  launch : w.launch = l.lid
  tcb : w.tcb = BitVec.ofNat 32 t
  image : w.image = l.image
  footprint : w.footprint = 32 * (s.tcbField v t 46 2 % 32)
  frame : w.frame = s.tcbField v t 46 2 / 32
  depth : w.depth = s.tcbDepth v t
  cls : w.prioClass = l.lrec.cls
  level : w.prioLevel = l.lrec.level

/-- The warp that a core gives a task. -/
def State.taskWarp (s : State) (die core ctx seg t : Nat) (l : Launch) : Warp :=
  let v := coreWarp die core ctx
  let args := s.taskArgs v t
  { s.freshWarp (s.nextId + 1) die core ctx seg l.image (s.tcbField v t 0 4) args (fun _ => args) with
    kind := .task, launch := l.lid, block := some s.nextId, blockIdx := 0xFFFFFFFF, lastBlk := 0xFFFFFFFF
    footprint := 32 * (s.tcbField v t 46 2 % 32), frame := s.tcbField v t 46 2 / 32, tcb := BitVec.ofNat 32 t, depth := s.tcbDepth v t
    tag := s.tcbField v t 60 2, prioClass := l.lrec.cls, prioLevel := l.lrec.level }

theorem State.startsTask_taskWarp (s : State) (die core ctx seg t : Nat) (l : Launch) :
    (s.taskWarp die core ctx seg t l).StartsTask s (coreWarp die core ctx) t l :=
  ⟨s.freshWarp_atEntry (s.nextId + 1) die core ctx seg l.image (s.tcbField (coreWarp die core ctx) t 0 4)
      (s.taskArgs (coreWarp die core ctx) t) (s.taskArgs (coreWarp die core ctx) t),
    rfl, rfl, rfl, rfl, rfl, rfl, rfl, rfl, rfl, rfl, rfl, rfl⟩

/-- The state in which the task has its warp and its block. -/
def State.withTask (s : State) (die core ctx seg t : Nat) (l : Launch) : State :=
  ({ s with
    nextId := s.nextId + 2
    blocks := s.blocks ++ [({ bid := s.nextId, kind := .task, launch := l.lid, ctx := ctx, die := die, core := core, index := 0xFFFFFFFF } : Block)]
    warps := s.warps ++ [s.taskWarp die core ctx seg t l] } : State).freshCode die core ctx l.image.base

section
variable {s : State} {die core ctx victim t : Nat} {owner : Bool} {l : Launch}
  (peek : s.dqPeek (coreWarp die core ctx) victim owner = some t) (fits : s.taskFits die core ctx t = true)
  (apart : (s.deque (coreWarp die core ctx) victim).1 + 8 ≤ s.spaceAddr (coreWarp die core ctx) false t ∨
    s.spaceAddr (coreWarp die core ctx) false t + 64 ≤ (s.deque (coreWarp die core ctx) victim).1)
  (hd : die < s.dies.length) (free : s.noImages)
  (running : s.launches.find? (fun l => l.ctx == ctx && l.die == die && l.tag == s.tcbField (coreWarp die core ctx) t 60 2 && l.running) = some l)
include peek fits apart hd free running

/-- The task at an end of a deque starts on a core. -/
theorem State.startTask_eq : ∃ seg, s.startTask die core ctx victim owner =
    (s.taken (coreWarp die core ctx) victim t owner 3).withTask die core ctx seg t l := by
  obtain ⟨fine, seg, room⟩ := State.of_taskFits fits
  have tag := State.tcbField_taken (v := coreWarp die core ctx) (core := victim) (t := t) (owner := owner) hd free apart 3
    (lo := 60) (n := 2) (by decide)
  have named : (s.taken (coreWarp die core ctx) victim t owner 3).tagLaunch ctx die
      ((s.taken (coreWarp die core ctx) victim t owner 3).tcbField (coreWarp die core ctx) t 60 2) =
      (some l, s.taken (coreWarp die core ctx) victim t owner 3) := by
    refine State.tagLaunch_running ?_
    rw [tag, (State.sameDesk_taken (v := coreWarp die core ctx) 3).launches]
    exact running
  refine ⟨seg, ?_⟩
  have take : s.dqTake (coreWarp die core ctx) victim owner 3 = some (t, s.taken (coreWarp die core ctx) victim t owner 3) :=
    State.dqTake_eq peek fine 3
  simp only [State.startTask, take, room, named]
  rfl

/-- The task's warp stands at the task's entry with its arguments, its TCB is running, and the deque has one entry less. -/
theorem State.startTask_starts : ∃ w, (s.startTask die core ctx victim owner).warps.getLast? = some w ∧ w.StartsTask s (coreWarp die core ctx) t l ∧
    (s.startTask die core ctx victim owner).tcbState (coreWarp die core ctx) t = 3 ∧
    (s.startTask die core ctx victim owner).dqCount (coreWarp die core ctx) victim = s.dqCount (coreWarp die core ctx) victim - 1 := by
  obtain ⟨seg, e⟩ := State.startTask_eq peek fits apart hd free running
  let v := coreWarp die core ctx
  let u := s.taken v victim t owner 3
  have field {lo n : Nat} (h : lo + n ≤ 45 ∨ 46 ≤ lo ∧ lo + n ≤ 64) : u.tcbField v t lo n = s.tcbField v t lo n :=
    State.tcbField_taken (v := v) hd free apart 3 h
  have desk : SameDesk v u (u.withTask die core ctx seg t l) := .of_ctxs rfl rfl
  have bytes (x : Nat) : (u.withTask die core ctx seg t l).byteAt (.spad v.die) x = u.byteAt (.spad v.die) x :=
    State.byteAt_modCore _ _ _ _ (.spad v.die) x
  rw [e]
  refine ⟨u.taskWarp die core ctx seg t l, List.getLast?_concat, ?_, ?_, ?_⟩
  · have starts := u.startsTask_taskWarp die core ctx seg t l
    have args : u.taskArgs v t = s.taskArgs v t :=
      List.map_congr_left fun k hk => by rw [field (by have := List.mem_range.mp hk; omega)]
    exact { starts with
      entry := by rw [← field (by decide), ← args]; exact starts.entry
      footprint := by rw [← field (by decide)]; exact starts.footprint
      frame := by rw [← field (by decide)]; exact starts.frame
      depth := starts.depth.trans (State.tcbDepth_taken (v := v) hd free apart (by decide)) }
  · rw [State.tcbState, desk.tcbField (fun x _ _ => bytes x)]
    exact State.tcbState_taken (v := v) hd free apart (by decide)
  · rw [desk.dqCount bytes]
    exact State.dqCount_taken (v := v) hd free apart 3 (State.dqCount_of_peek peek)
end

/-- A core starts the task at the owner end of its own deque (R327). -/
theorem taskStart_run {s : State} {die core ctx : Nat} (fits : s.ownTaskFits die core ctx = true) :
    exec (.taskStart die core ctx) s = .next (s.startTask die core ctx core true) := by
  change execTaskStart die core ctx s = _
  simp only [execTaskStart, fits, if_true]

/-- A core whose own deque has no task that it fits steals one (R327). -/
theorem taskSteal_run {s : State} {die core ctx c : Nat} (none : s.ownTaskFits die core ctx = false) (from_ : s.victim die core ctx = some c) :
    exec (.taskSteal die core ctx) s = .next (s.startTask die core ctx c false) := by
  change execTaskSteal die core ctx s = _
  simp only [execTaskSteal, none, Bool.false_eq_true, if_false, from_]

/-- The task at the thief end of the deque that a core steals from fits it. -/
theorem State.taskFits_of_victim {s : State} {die core ctx c t : Nat} (from_ : s.victim die core ctx = some c)
    (peek : s.dqPeek (coreWarp die core ctx) c false = some t) : s.taskFits die core ctx t = true := by
  have mem := List.mem_of_head? from_
  rw [mem_sortBy, List.mem_filter, peek] at mem
  exact (Bool.and_eq_true _ _ ▸ mem.2).2

theorem State.taskFits_of_own {s : State} {die core ctx t : Nat} (fits : s.ownTaskFits die core ctx = true)
    (peek : s.dqPeek (coreWarp die core ctx) core true = some t) : s.taskFits die core ctx t = true := by
  simpa only [State.ownTaskFits, peek] using fits

end Sys2Proof.Machine

namespace Sys2Proof.Machine

/-! ## The events of the Launch Processor -/

/-- Settles O47: `State.startTask_starts` for tasks, `handlerDispatch_escalates` and `handlerDispatch_starts` for handler warps, the
`launchRecordRead_` lemmas for the records of a queue, `blockPlace_places` and `rtPreempt_stops` for the blocks of launches,
`drainTimeout_saves` and `blockSave_saves` for saves, and the lemmas about queues that switch out and in. -/
theorem workEventResults : Obligations.WorkEventResults := by
  unfold Obligations.WorkEventResults
  intro word starts
  have started (s : State) (i : Instr) (die core ctx victim t : Nat) (owner : Bool) (l : Launch)
      (run : exec i s = .next (s.startTask die core ctx victim owner))
      (fits : s.dqPeek (coreWarp die core ctx) victim owner = some t → s.taskFits die core ctx t = true) :
      starts s i die core ctx victim t owner l := by
    intro peek apart hd free running
    obtain ⟨w, last, h, state, count⟩ := State.startTask_starts peek (fits peek) apart hd free running
    exact ⟨_, w, run, last, h.entry, h.kind, h.die, h.core, h.ctx, h.launch, h.tcb, h.image, h.footprint, h.frame, h.depth, h.cls, h.level,
      state, count⟩
  refine ⟨fun s die core ctx t l fits => started _ _ _ _ _ _ _ _ _ (taskStart_run fits) (State.taskFits_of_own fits),
    fun s die core ctx c t l none from_ => started _ _ _ _ _ _ _ _ _ (taskSteal_run none from_) (State.taskFits_of_victim from_),
    fun s wid seq w r c hw hr hc calm => ⟨handlerDispatch_escalates hw hr hc calm, fun m s1 core segs first room entry image fits seg =>
      handlerDispatch_starts hw hr hc calm first room entry image fits seg⟩,
    fun s q pending => ⟨launchRecordRead_stops pending, fun bs s1 near read plain =>
      ⟨launchRecordRead_accepts pending read near plain, launchRecordRead_refuses pending read near plain⟩⟩,
    fun s lid l core segs hl turn begun plain first fits seg => ?_,
    fun s die core l rest next other given single => rtPreempt_stops next other given single,
    fun s bid b n hb drains late => drainTimeout_saves hb drains late,
    fun s bid b base hb saving quiet hd room => ?_,
    fun s q hq => ⟨queueSwitchOut_leaves hq, queueSwitchIn_enters hq, qctlErrClear_clears hq, tailWrite_writes hq⟩⟩
  · obtain ⟨t, b, ws, run, blocks, warps, hcore, hdie, launch, index, stands, empty, len, all⟩ :=
      blockPlace_places hl turn begun plain first fits seg
    exact ⟨t, b, ws, run, blocks, warps, hcore, hdie, launch, index, stands, empty, len, fun w hw =>
      have h := all w hw
      ⟨h.block, h.kind, h.core, h.die, h.ctx, h.blockIdx, h.nwarp, h.footprint, h.cls, h.entry⟩⟩
  · refine ⟨_, b.saved base (roundUp (s.imageSize b) 4096), blockSave_saves hb saving quiet room, State.block?_saveAt _ _ _ _ _ hb,
      rfl, rfl, rfl, rfl, rfl, ⟨State.unlost_saveAt _ _ _ _ _, State.saveAt_whole _ _ _ _ _⟩,
      fun w _ r _ k slot ready => w.savedRecord_full slot ready, State.bytesKept_saveAt _ _ _ _ _,
      fun k hk => State.spadAt_saveAt _ _ _ _ _ hd hk⟩

end Sys2Proof.Machine

namespace Sys2Proof.Machine

/-! ## Encodings of binary formats (R35, R36) -/

/-- The formats of Table 2.1 that encode infinities and NaNs as Table 2.2 says of FP32, FP16, BF16 and E5M2. -/
structure Fmt.Ieee (f : Fmt) : Prop where
  sp : f.sp = .ieee
  eb : 2 ≤ f.eb
  mb : 1 ≤ f.mb

theorem Fmt.ieee_of_mem {f : Fmt} (h : f ∈ [fmtF32, fmtF16, fmtBf16, fmtE5m2]) : f.Ieee := by
  simp only [List.mem_cons, List.not_mem_nil, or_false] at h
  obtain rfl | rfl | rfl | rfl := h <;> exact ⟨rfl, by decide, by decide⟩

/-- The exponent of the last place of the subnormal numbers. -/
def Fmt.lo (f : Fmt) : Int := 1 - f.bias - f.mb

/-- A sign as a factor. -/
def signRat (neg : Bool) : Rat := if neg then -1 else 1

@[simp] theorem signRat_true : signRat true = -1 := rfl
@[simp] theorem signRat_false : signRat false = 1 := rfl

theorem FVal.rat_fin (n : Bool) (m : Nat) (e : Int) : (FVal.fin n m e).rat = some (signRat n * (m * (2 : Rat) ^ e)) := by
  rw [← mul_assoc]; rfl

theorem two_zpow_pos (e : Int) : (0 : Rat) < 2 ^ e := zpow_pos two_pos e

theorem two_zpow_add (a b : Int) : (2 : Rat) ^ (a + b) = 2 ^ a * 2 ^ b := zpow_add₀ two_ne_zero a b

theorem two_zpow_nat (n : Nat) : (2 : Rat) ^ (n : Int) = ((2 ^ n : Nat) : Rat) := by rw [zpow_natCast]; push_cast; rfl

theorem two_zpow_le {a b : Int} : (2 : Rat) ^ a ≤ 2 ^ b ↔ a ≤ b := zpow_le_zpow_iff_right₀ one_lt_two

theorem two_zpow_lt {a b : Int} : (2 : Rat) ^ a < 2 ^ b ↔ a < b := zpow_lt_zpow_iff_right₀ one_lt_two

/-- A rational number that a significand of mb + 1 bits reaches at a place not below the subnormal one: every finite value
of a format is one, and a format without a largest exponent has no others. -/
def Fmt.OnGrid (f : Fmt) (y : Rat) : Prop := ∃ (j : Int) (p : Int), |j| < 2 ^ (f.mb + 1) ∧ f.lo ≤ p ∧ y = j * (2 : Rat) ^ p

/-- A multiple of a place that a significand of mb + 1 bits reaches, not below the subnormal one. -/
theorem Fmt.onGrid_fin (f : Fmt) (neg : Bool) {m : Nat} {e : Int} (hm : m < 2 ^ (f.mb + 1)) (he : f.lo ≤ e) {y : Rat}
    (h : (FVal.fin neg m e).rat = some y) : f.OnGrid y := by
  rw [FVal.rat_fin, Option.some.injEq] at h
  subst h
  refine ⟨if neg then -m else m, e, ?_, he, ?_⟩
  · cases neg <;> simp <;> exact_mod_cast hm
  · cases neg <;> simp

namespace Fmt.Ieee

variable {f : Fmt} (hf : f.Ieee)
include hf

theorem bias_pos : 1 ≤ f.bias := by
  have : 2 ^ 1 ≤ 2 ^ (f.eb - 1) := Nat.pow_le_pow_right two_pos (by have := hf.eb; omega)
  simp only [Fmt.bias]
  omega

/-- The exponent field of an infinity. -/
theorem top_eq : ((2 ^ f.eb - 1 : Nat) : Int) = 2 * f.bias + 1 := by
  have h : 2 ^ f.eb = 2 ^ (f.eb - 1) * 2 := by rw [← Nat.pow_succ]; congr 1; have := hf.eb; omega
  have := Nat.two_pow_pos (f.eb - 1)
  simp only [Fmt.bias]
  omega

/-- A sign, an exponent field and a significand field read back (R36). -/
theorem decode_fields (neg : Bool) {E M : Nat} (hE : E < 2 ^ f.eb - 1) (hM : M < 2 ^ f.mb) :
    f.decode ((if neg then f.signBit else 0) + (E * 2 ^ f.mb + M)) =
      if E = 0 then .fin neg M f.lo else .fin neg (M + 2 ^ f.mb) (f.lo + E - 1) := by
  have small : E * 2 ^ f.mb + M < f.signBit := by
    calc E * 2 ^ f.mb + M < (E + 1) * 2 ^ f.mb := by rw [Nat.add_mul]; omega
      _ ≤ 2 ^ f.eb * 2 ^ f.mb := Nat.mul_le_mul_right _ (by omega)
      _ = f.signBit := (Nat.pow_add ..).symm
  have sign : ((if neg then f.signBit else 0) + (E * 2 ^ f.mb + M)) / f.signBit % 2 = if neg then 1 else 0 := by
    cases neg
    · simp [Nat.div_eq_of_lt small]
    · simp [Nat.add_div_left _ (Nat.zero_lt_of_lt small), Nat.div_eq_of_lt small]
  have split : f.signBit = 2 ^ f.mb * 2 ^ f.eb := by rw [Fmt.signBit, Nat.add_comm, Nat.pow_add]
  have low : (if neg then f.signBit else 0) + (E * 2 ^ f.mb + M) = M + 2 ^ f.mb * (E + if neg then 2 ^ f.eb else 0) := by
    cases neg <;> simp [split] <;> ring
  have expo : ((if neg then f.signBit else 0) + (E * 2 ^ f.mb + M)) / 2 ^ f.mb % 2 ^ f.eb = E := by
    rw [low, Nat.add_mul_div_left _ _ (Nat.two_pow_pos _), Nat.div_eq_of_lt hM, Nat.zero_add]
    cases neg <;> simp [Nat.mod_eq_of_lt (show E < 2 ^ f.eb by omega)]
  have sigd : ((if neg then f.signBit else 0) + (E * 2 ^ f.mb + M)) % 2 ^ f.mb = M := by
    rw [low, Nat.add_mul_mod_self_left, Nat.mod_eq_of_lt hM]
  have ne : ¬ E = 2 ^ f.eb - 1 := by omega
  have sg : ((if neg = true then 1 else 0) == 1) = neg := by cases neg <;> rfl
  simp only [Fmt.decode, hf.sp, sign, expo, sigd, beq_iff_eq, ne, if_false, Fmt.lo, sg]

theorem onGrid_of_decode {b : Nat} {y : Rat} (h : (f.decode b).rat = some y) : f.OnGrid y := by
  have hm : b % 2 ^ f.mb < 2 ^ f.mb := Nat.mod_lt _ (Nat.two_pow_pos _)
  have hp : 2 ^ (f.mb + 1) = 2 * 2 ^ f.mb := by rw [Nat.pow_succ, Nat.mul_comm]
  have finite (n : Bool) (h : (if (b / 2 ^ f.mb % 2 ^ f.eb == 0) = true then FVal.fin n (b % 2 ^ f.mb) f.lo
      else .fin n (b % 2 ^ f.mb + 2 ^ f.mb) (f.lo + (b / 2 ^ f.mb % 2 ^ f.eb : Nat) - 1)).rat = some y) : f.OnGrid y := by
    split at h
    · exact f.onGrid_fin n (by omega) (Int.le_refl _) h
    · next ne =>
      rw [beq_iff_eq] at ne
      exact f.onGrid_fin n (by omega) (by omega) h
  simp only [Fmt.decode, hf.sp] at h
  split at h
  · split at h <;> cases h
  · exact finite _ h

/-- What an encoded magnitude is made of: the fields of a subnormal or of a normal number. -/
theorem encodeMag_fields {k : Nat} {q : Int} (hk : k ≤ 2 ^ (f.mb + 1)) (hq : f.lo ≤ q) (normal : q ≠ f.lo → 2 ^ f.mb ≤ k) :
    ∃ E M : Nat, M < 2 ^ f.mb ∧ f.encodeMag k q = E * 2 ^ f.mb + M ∧ M % 2 = k % 2 ∧
      (E = 0 ∧ M = k ∧ q = f.lo ∨ E ≠ 0 ∧ ((M : Rat) + 2 ^ (f.mb : Int)) * 2 ^ (f.lo + E - 1) = k * (2 : Rat) ^ q) := by
  have hp : 2 ^ (f.mb + 1) = 2 * 2 ^ f.mb := by rw [Nat.pow_succ, Nat.mul_comm]
  have even : 2 ^ f.mb % 2 = 0 := Nat.mod_eq_zero_of_dvd (dvd_pow_self 2 (by have := hf.mb; omega))
  have pos := Nat.two_pow_pos f.mb
  unfold Fmt.encodeMag
  have lo : f.lo = 1 - f.bias - f.mb := rfl
  split
  · next sub => exact ⟨0, k, sub, by simp, rfl, .inl ⟨rfl, rfl, by by_contra g; exact absurd (normal g) (by omega)⟩⟩
  · split
    · refine ⟨_, _, ?_, rfl, by omega, .inr ⟨by omega, ?_⟩⟩
      · omega
      · rw [two_zpow_nat, ← Nat.cast_add]
        congr 2 <;> omega
    · have top : k = 2 * 2 ^ f.mb := by omega
      refine ⟨_, 0, pos, by rw [show k / 2 - 2 ^ f.mb = 0 by omega], by omega, .inr ⟨by omega, ?_⟩⟩
      rw [show f.lo + ((q + 1 + f.bias + f.mb).toNat : Int) - 1 = 1 + q by omega, two_zpow_add, top, two_zpow_nat]
      push_cast
      ring

/-- Fields encode no finite magnitude from the exponent field of an infinity on (Table 2.2). -/
theorem maxBits_lt_iff {E M : Nat} (hM : M < 2 ^ f.mb) : f.maxBits < E * 2 ^ f.mb + M ↔ 2 ^ f.eb - 1 ≤ E := by
  have top := hf.top_eq
  have bias := hf.bias_pos
  have pos : 0 < (2 ^ f.eb - 1) * 2 ^ f.mb := Nat.mul_pos (by omega) (Nat.two_pow_pos _)
  simp only [Fmt.maxBits, hf.sp, Fmt.infBits]
  constructor
  · intro h
    by_contra g
    have := Nat.mul_le_mul_right (2 ^ f.mb) (show E + 1 ≤ 2 ^ f.eb - 1 by omega)
    rw [Nat.add_mul] at this
    omega
  · intro h
    have := Nat.mul_le_mul_right (2 ^ f.mb) h
    omega

variable {k : Nat} {q : Int} (hk : k ≤ 2 ^ (f.mb + 1)) (hq : f.lo ≤ q) (normal : q ≠ f.lo → 2 ^ f.mb ≤ k)
include hk hq normal

theorem encodeMag_mod_two : f.encodeMag k q % 2 = k % 2 := by
  obtain ⟨E, M, -, e, par, -⟩ := hf.encodeMag_fields hk hq normal
  have even : 2 ^ f.mb % 2 = 0 := Nat.mod_eq_zero_of_dvd (dvd_pow_self 2 (by have := hf.mb; omega))
  rw [e, Nat.add_mod, Nat.mul_mod, even]
  omega

/-- An encoded magnitude is beyond the finite ones exactly when its value is (Table 2.2). -/
theorem maxBits_lt_encodeMag : f.maxBits < f.encodeMag k q ↔ (2 : Rat) ^ (f.bias + 1) ≤ k * 2 ^ q := by
  obtain ⟨E, M, hM, e, -, fields⟩ := hf.encodeMag_fields hk hq normal
  have top := hf.top_eq
  have bias := hf.bias_pos
  have lo : f.lo = 1 - f.bias - f.mb := rfl
  have hM' : (M : Rat) < 2 ^ (f.mb : Int) := by rw [two_zpow_nat]; exact_mod_cast hM
  rw [e, hf.maxBits_lt_iff hM]
  obtain ⟨rfl, rfl, rfl⟩ | ⟨hE, value⟩ := fields
  · have : (M : Rat) * 2 ^ f.lo < 2 ^ (f.bias + 1) := by
      calc (M : Rat) * 2 ^ f.lo < 2 ^ (f.mb : Int) * 2 ^ f.lo := mul_lt_mul_of_pos_right hM' (two_zpow_pos _)
        _ = 2 ^ (f.mb + f.lo) := (two_zpow_add _ _).symm
        _ ≤ 2 ^ (f.bias + 1) := two_zpow_le.mpr (by omega)
    exact ⟨fun h => by omega, fun h => absurd h (not_le.mpr this)⟩
  · rw [← value]
    constructor
    · intro h
      calc (2 : Rat) ^ (f.bias + 1) ≤ 2 ^ ((f.mb : Int) + (f.lo + E - 1)) := two_zpow_le.mpr (by omega)
        _ = 2 ^ (f.mb : Int) * 2 ^ (f.lo + E - 1) := two_zpow_add _ _
        _ ≤ (M + 2 ^ (f.mb : Int)) * 2 ^ (f.lo + E - 1) :=
          mul_le_mul_of_nonneg_right (le_add_of_nonneg_left (Nat.cast_nonneg M)) (two_zpow_pos _).le
    · intro h
      have : (2 : Rat) ^ (f.bias + 1) < 2 ^ ((f.mb : Int) + 1 + (f.lo + E - 1)) := by
        refine h.trans_lt ?_
        rw [two_zpow_add, two_zpow_add]
        exact mul_lt_mul_of_pos_right (by linarith) (two_zpow_pos _)
      have := two_zpow_lt.mp this
      omega

/-- A finite encoded magnitude stands for its value, with the sign that is put before it. -/
theorem decode_encodeMag (neg : Bool) (finite : ¬ f.maxBits < f.encodeMag k q) :
    ∃ m e, f.decode ((if neg then f.signBit else 0) + f.encodeMag k q) = .fin neg m e ∧ m * (2 : Rat) ^ e = k * 2 ^ q := by
  obtain ⟨E, M, hM, e, -, fields⟩ := hf.encodeMag_fields hk hq normal
  have hE : E < 2 ^ f.eb - 1 := by
    have := hf.maxBits_lt_iff (E := E) hM
    rw [← e] at this
    omega
  rw [e, hf.decode_fields neg hE hM]
  obtain ⟨rfl, rfl, rfl⟩ | ⟨hE, value⟩ := fields
  · exact ⟨_, _, if_pos rfl, rfl⟩
  · refine ⟨_, _, if_neg hE, ?_⟩
    rw [← value, two_zpow_nat]
    push_cast
    rfl

end Fmt.Ieee
end Sys2Proof.Machine

namespace Sys2Proof.Machine

/-! ## Where a magnitude lies among the values of a format -/

/-- A positive magnitude a with its leading bit at 2^l lies at k and a part t of units of its last place (R35, R36). -/
structure Fmt.Places (f : Fmt) (a : Rat) (l : Int) (k : Nat) (t : Rat) : Prop where
  eq : a = (k + t) * 2 ^ f.quantum l
  nonneg : 0 ≤ t
  lt_one : t < 1
  low : 2 ^ l ≤ a
  high : a < 2 ^ (l + 1)

theorem Fmt.lo_le_quantum (f : Fmt) (l : Int) : f.lo ≤ f.quantum l := le_max_right _ _

theorem Fmt.quantum_eq (f : Fmt) {l : Int} (h : f.quantum l ≠ f.lo) : f.quantum l = l - f.mb := by
  simp only [Fmt.quantum, Fmt.lo] at *
  omega

theorem Fmt.quantum_ge (f : Fmt) (l : Int) : l - f.mb ≤ f.quantum l := le_max_left _ _

namespace Fmt.Places

variable {f : Fmt} {a : Rat} {l : Int} {k : Nat} {t : Rat} (h : f.Places a l k t)
include h

theorem floor_le : k * (2 : Rat) ^ f.quantum l ≤ a := by
  rw [h.eq]
  exact mul_le_mul_of_nonneg_right (by linarith [h.nonneg]) (two_zpow_pos _).le

theorem lt_next : a < (k + 1) * (2 : Rat) ^ f.quantum l := by
  rw [h.eq]
  exact mul_lt_mul_of_pos_right (by linarith [h.lt_one]) (two_zpow_pos _)

theorem lt_carry : k < 2 ^ (f.mb + 1) := by
  have : (k : Rat) * 2 ^ f.quantum l < 2 ^ ((f.mb + 1 : Nat) : Int) * 2 ^ f.quantum l := by
    refine (h.floor_le.trans_lt h.high).trans_le ?_
    rw [← two_zpow_add, two_zpow_le]
    have := f.quantum_ge l
    push_cast
    omega
  have := lt_of_mul_lt_mul_right this (two_zpow_pos _).le
  rw [two_zpow_nat] at this
  exact_mod_cast this

theorem normal (hq : f.quantum l ≠ f.lo) : 2 ^ f.mb ≤ k := by
  have : (2 : Rat) ^ (f.mb : Int) * 2 ^ f.quantum l < (k + 1) * 2 ^ f.quantum l := by
    refine lt_of_le_of_lt ?_ h.lt_next
    rw [← two_zpow_add, f.quantum_eq hq]
    exact (two_zpow_le.mpr (by omega)).trans h.low
  have := lt_of_mul_lt_mul_right this (two_zpow_pos _).le
  rw [two_zpow_nat] at this
  exact Nat.lt_succ_iff.mp (by exact_mod_cast this)

/-- No value of the grid lies strictly between two neighbours k and k + 1 at the place of a. -/
theorem gap {y : Rat} (hy : f.OnGrid y) : y ≤ k * 2 ^ f.quantum l ∨ (k + 1) * 2 ^ f.quantum l ≤ y := by
  obtain ⟨j, p, hj, hp, rfl⟩ := hy
  obtain hpq | hpq := le_or_gt (f.quantum l) p
  · obtain ⟨n, rfl⟩ := Int.le.dest hpq
    rw [two_zpow_add, mul_comm ((2 : Rat) ^ f.quantum l), ← mul_assoc, two_zpow_nat]
    obtain g | g := le_or_gt (j * 2 ^ n) (k : Int)
    · exact .inl (mul_le_mul_of_nonneg_right (by exact_mod_cast g) (two_zpow_pos _).le)
    · exact .inr (mul_le_mul_of_nonneg_right (by exact_mod_cast g) (two_zpow_pos _).le)
  · have hq : f.quantum l ≠ f.lo := by omega
    left
    calc (j : Rat) * 2 ^ p ≤ 2 ^ ((f.mb + 1 : Nat) : Int) * 2 ^ p := by
          refine mul_le_mul_of_nonneg_right ?_ (two_zpow_pos _).le
          rw [two_zpow_nat]
          exact_mod_cast (le_abs_self j).trans hj.le
      _ = 2 ^ (((f.mb + 1 : Nat) : Int) + p) := (two_zpow_add _ _).symm
      _ ≤ 2 ^ ((f.mb : Int) + f.quantum l) := two_zpow_le.mpr (by push_cast; omega)
      _ = 2 ^ (f.mb : Int) * 2 ^ f.quantum l := two_zpow_add _ _
      _ ≤ k * 2 ^ f.quantum l := by
          refine mul_le_mul_of_nonneg_right ?_ (two_zpow_pos _).le
          rw [two_zpow_nat]
          exact_mod_cast h.normal hq

end Fmt.Places

/-- The digits that a split of a number at a place gives: the number is k and rest / 2^sh units of the place. -/
theorem splitAt_eq (m : Nat) (e q : Int) : (m : Rat) * 2 ^ e =
    ((splitAt m e q).1 + ((splitAt m e q).2.1 : Rat) / 2 ^ (splitAt m e q).2.2) * 2 ^ q := by
  unfold splitAt
  split
  · next h =>
    have expo : (2 : Rat) ^ e = (2 ^ (e - q).toNat : Nat) * 2 ^ q := by
      rw [← two_zpow_nat, ← two_zpow_add]
      congr 1
      omega
    simp only [Nat.cast_mul, Nat.cast_zero, zero_div, add_zero, expo]
    ring
  · next h =>
    obtain ⟨n, hn⟩ : ∃ n : Nat, q = e + n := ⟨(q - e).toNat, by omega⟩
    have : (q - e).toNat = n := by omega
    simp only [this]
    rw [hn, two_zpow_add, two_zpow_nat]
    have div : 2 ^ n * ((m / 2 ^ n : Nat) : Rat) + (m % 2 ^ n : Nat) = m := by exact_mod_cast Nat.div_add_mod m (2 ^ n)
    rw [← div, Nat.cast_pow, Nat.cast_ofNat]
    field_simp

theorem splitAt_rest_lt (m : Nat) (e q : Int) : (splitAt m e q).2.1 < 2 ^ (splitAt m e q).2.2 := by
  unfold splitAt
  split
  · exact Nat.one_pos
  · exact Nat.mod_lt _ (Nat.two_pow_pos _)

theorem places_splitAt (f : Fmt) {m : Nat} (hm : m ≠ 0) (e : Int) :
    let l : Int := Nat.log2 m + e
    let p := splitAt m e (f.quantum l)
    f.Places (m * (2 : Rat) ^ e) l p.1 ((p.2.1 : Rat) / 2 ^ p.2.2) where
  eq := splitAt_eq m e _
  nonneg := by positivity
  lt_one := by
    rw [div_lt_one (by positivity)]
    exact_mod_cast splitAt_rest_lt m e _
  low := by
    rw [two_zpow_add, two_zpow_nat]
    exact mul_le_mul_of_nonneg_right (by exact_mod_cast Nat.log2_self_le hm) (two_zpow_pos _).le
  high := by
    rw [add_right_comm, two_zpow_add, ← Nat.cast_succ, two_zpow_nat]
    exact mul_lt_mul_of_pos_right (by exact_mod_cast Nat.lt_log2_self) (two_zpow_pos _)

/-! ## Which neighbour a mode takes (Table 2.3) -/

/-- A mode takes the neighbour of greater magnitude for a number of a sign that lies at a part t of the place after an odd or
even multiple of it. -/
def GoesUp (mode : Nat) (neg odd : Bool) (t : Rat) : Prop :=
  match mode with
  | 0 => 1 / 2 < t ∨ t = 1 / 2 ∧ odd = true
  | 1 => False
  | 2 => t ≠ 0 ∧ neg = false
  | _ => t ≠ 0 ∧ neg = true

theorem roundsUp_iff {mode : Nat} (hm : mode < 4) (neg odd : Bool) {r sh : Nat} (hr : r < 2 ^ sh) (rnd : Nat) :
    roundsUp mode neg odd r sh false rnd = true ↔ GoesUp mode neg odd ((r : Rat) / 2 ^ sh) := by
  have pos : (0 : Rat) < 2 ^ sh := by positivity
  have zero : (r : Rat) / 2 ^ sh ≠ 0 ↔ r ≠ 0 := by simp
  have above : 1 / 2 < (r : Rat) / 2 ^ sh ↔ 2 ^ sh < 2 * r := by
    rw [div_lt_div_iff₀ two_pos pos, one_mul, mul_comm]
    exact_mod_cast Iff.rfl
  have half : (r : Rat) / 2 ^ sh = 1 / 2 ↔ 2 * r = 2 ^ sh := by
    rw [div_eq_div_iff pos.ne' two_ne_zero, one_mul, mul_comm]
    exact_mod_cast Iff.rfl
  obtain rfl | rfl | rfl | rfl : mode = 0 ∨ mode = 1 ∨ mode = 2 ∨ mode = 3 := by omega
  · have some : 2 * r = 2 ^ sh → sh ≠ 0 := by rintro e rfl; omega
    simp only [GoesUp, above, half, roundsUp, Bool.or_eq_true, Bool.and_eq_true, decide_eq_true_eq, beq_iff_eq, bne_iff_ne,
      Bool.false_or]
    exact or_congr_right (and_congr_left fun _ => ⟨And.left, fun e => ⟨e, some e⟩⟩)
  · simp [GoesUp, roundsUp]
  · simp [GoesUp, roundsUp]
  · simp [GoesUp, roundsUp]

end Sys2Proof.Machine

namespace Sys2Proof.Machine

theorem rat_abs_eq (x : Rat) : x.abs = |x| := by
  obtain h | h := le_total 0 x
  · rw [abs_of_nonneg h, Rat.abs_of_nonneg h]
  · rw [abs_of_nonpos h, Rat.abs_of_nonpos h]

/-! ## The neighbour that a mode takes is the value that Table 2.3 chooses -/

theorem Fmt.OnGrid.neg {f : Fmt} {y : Rat} (h : f.OnGrid y) : f.OnGrid (-y) := by
  obtain ⟨j, p, hj, hp, rfl⟩ := h
  exact ⟨-j, p, by rwa [abs_neg], hp, by push_cast; ring⟩

theorem Fmt.OnGrid.signed {f : Fmt} {y : Rat} (h : f.OnGrid y) (neg : Bool) : f.OnGrid (signRat neg * y) := by
  cases neg
  · rwa [signRat_false, one_mul]
  · rw [signRat_true, neg_one_mul]; exact h.neg

theorem signRat_mul_self (neg : Bool) (y : Rat) : signRat neg * (signRat neg * y) = y := by
  cases neg <;> simp

theorem abs_signRat_mul (neg : Bool) (y : Rat) : |signRat neg * y| = |y| := by
  cases neg <;> simp

namespace Fmt.Places

variable {f : Fmt} {a : Rat} {l : Int} {k : Nat} {t : Rat} (h : f.Places a l k t)
include h

theorem pos : 0 < a := (two_zpow_pos l).trans_le h.low

/-- The lower neighbour is the largest value of the grid up to a. -/
theorem le_floor {z : Rat} (hz : f.OnGrid z) (le : z ≤ a) : z ≤ k * 2 ^ f.quantum l :=
  (h.gap hz).resolve_right fun g => absurd (le.trans_lt h.lt_next) (not_lt.mpr g)

/-- The upper neighbour, or a itself at a multiple of the place, is the smallest value of the grid from a on. -/
theorem ceil_le {up : Bool} (hup : up = true ↔ t ≠ 0) :
    a ≤ (if up then k + 1 else k : Nat) * 2 ^ f.quantum l ∧
      ∀ {z : Rat}, f.OnGrid z → a ≤ z → (if up then k + 1 else k : Nat) * 2 ^ f.quantum l ≤ z := by
  cases up
  · have : t = 0 := by simpa using hup
    subst this
    have e : a = k * 2 ^ f.quantum l := by rw [h.eq, add_zero]
    exact ⟨e.le, fun _ g => e ▸ g⟩
  · refine ⟨by simpa using h.lt_next.le, fun hz g => ?_⟩
    have ne : t ≠ 0 := hup.mp rfl
    have lt : (k : Rat) * 2 ^ f.quantum l < a := by
      rw [h.eq]
      exact mul_lt_mul_of_pos_right (by linarith [lt_of_le_of_ne h.nonneg ne.symm]) (two_zpow_pos _)
    simpa using (h.gap hz).resolve_left fun g' => absurd (lt.trans_le g) (not_lt.mpr g')

/-- The neighbour at a distance of at most half a place, the even one of two, is a nearest value of the grid. -/
theorem nearest {up : Bool} (hup : up = true ↔ 1 / 2 < t ∨ t = 1 / 2 ∧ k % 2 = 1) {z : Rat} (hz : f.OnGrid z) :
    |a - (if up then k + 1 else k : Nat) * 2 ^ f.quantum l| ≤ |a - z| ∧
      (|a - (if up then k + 1 else k : Nat) * 2 ^ f.quantum l| = |a - z| →
        z = (if up then k + 1 else k : Nat) * 2 ^ f.quantum l ∨ (if up then k + 1 else k) % 2 = 0) := by
  have t0 := h.nonneg
  have t1 := h.lt_one
  have low := h.floor_le
  have next := h.lt_next
  have gap := h.gap hz
  have below : a - k * 2 ^ f.quantum l = t * 2 ^ f.quantum l := by rw [h.eq]; ring
  have above : (k + 1) * 2 ^ f.quantum l - a = (1 - t) * 2 ^ f.quantum l := by rw [h.eq]; ring
  have unit := two_zpow_pos (f.quantum l)
  cases up
  · have half : t ≤ 1 / 2 := by
      by_contra g
      exact absurd (hup.mpr (.inl (not_le.mp g))) (by decide)
    have near : t * (2 : Rat) ^ f.quantum l ≤ (1 - t) * 2 ^ f.quantum l := mul_le_mul_of_nonneg_right (by linarith) unit.le
    simp only [Bool.false_eq_true, if_false]
    rw [abs_of_nonneg (sub_nonneg.mpr low)]
    obtain g | g := gap
    · rw [abs_of_nonneg (by linarith)]
      exact ⟨by linarith, fun e => .inl (by linarith)⟩
    · rw [abs_of_nonpos (by linarith)]
      refine ⟨by linarith, fun e => .inr ?_⟩
      have tie : t * (2 : Rat) ^ f.quantum l = (1 - t) * 2 ^ f.quantum l := by linarith
      have := mul_right_cancel₀ unit.ne' tie
      by_contra odd
      exact absurd (hup.mpr (.inr ⟨by linarith, by omega⟩)) (by decide)
  · have half : 1 / 2 ≤ t := (hup.mp rfl).elim le_of_lt (fun g => g.1.ge)
    have near : (1 - t) * (2 : Rat) ^ f.quantum l ≤ t * 2 ^ f.quantum l := mul_le_mul_of_nonneg_right (by linarith) unit.le
    simp only [if_true]
    push_cast
    rw [abs_of_nonpos (by linarith)]
    obtain g | g := gap
    · rw [abs_of_nonneg (by linarith)]
      refine ⟨by linarith, fun e => .inr ?_⟩
      have tie : (1 - t) * (2 : Rat) ^ f.quantum l = t * 2 ^ f.quantum l := by linarith
      have tie := mul_right_cancel₀ unit.ne' tie
      have := (hup.mp rfl).resolve_left (by linarith)
      omega
    · rw [abs_of_nonpos (by linarith)]
      exact ⟨by linarith, fun e => .inl (by linarith)⟩

/-- The neighbour that a mode takes is chosen for the number (Table 2.3). -/
theorem chosen (hf : f.Ieee) {mode : Nat} (hm : mode < 4) (neg : Bool) {up : Bool}
    (hup : up = true ↔ GoesUp mode neg (k % 2 == 1) t) {bits : Nat} (parity : bits % 2 = (if up then k + 1 else k) % 2) :
    Chosen f mode (signRat neg * a) (signRat neg * ((if up then k + 1 else k : Nat) * 2 ^ f.quantum l)) bits := by
  have grid {b : Nat} {y : Rat} (hy : (f.decode b).rat = some y) : f.OnGrid (signRat neg * y) :=
    (hf.onGrid_of_decode hy).signed neg
  have floor : up = false → (if up then k + 1 else k : Nat) * (2 : Rat) ^ f.quantum l ≤ a := by
    rintro rfl
    exact h.floor_le
  obtain rfl | rfl | rfl | rfl : mode = 0 ∨ mode = 1 ∨ mode = 2 ∨ mode = 3 := by omega
  · intro b y _ hy
    have near := h.nearest (by simpa [GoesUp] using hup) (grid hy)
    have dist (z : Rat) : (signRat neg * a - z).abs = |a - signRat neg * z| := by
      rw [rat_abs_eq, ← abs_signRat_mul neg, mul_sub, signRat_mul_self]
    rw [dist, dist, signRat_mul_self, parity]
    refine ⟨near.1, fun e => (near.2 e).imp_left fun g => ?_⟩
    rw [← g, signRat_mul_self]
  · have down : up = false := by simpa [GoesUp] using hup
    subst down
    have same (z : Rat) : 0 ≤ z * (signRat neg * a) ↔ 0 ≤ signRat neg * z := by
      rw [mul_left_comm, ← mul_assoc, mul_nonneg_iff_of_pos_right h.pos]
    have nonneg : (0 : Rat) ≤ k * 2 ^ f.quantum l := mul_nonneg (Nat.cast_nonneg k) (two_zpow_pos _).le
    simp only [Chosen, rat_abs_eq, abs_signRat_mul, same, signRat_mul_self, Bool.false_eq_true, if_false]
    rw [abs_of_nonneg nonneg, abs_of_pos h.pos]
    refine ⟨h.floor_le, nonneg, fun b y _ hy side le => ?_⟩
    rw [← abs_signRat_mul neg, abs_of_nonneg side] at le ⊢
    exact h.le_floor (grid hy) le
  · cases neg
    · have up_iff : up = true ↔ t ≠ 0 := by simpa [GoesUp] using hup
      obtain ⟨le, least⟩ := h.ceil_le up_iff
      simp only [signRat_false, one_mul]
      exact ⟨le, fun b y _ hy g => least (hf.onGrid_of_decode hy) g⟩
    · have down : up = false := by simpa [GoesUp] using hup
      subst down
      simp only [signRat_true, neg_one_mul]
      exact ⟨neg_le_neg h.floor_le, fun b y _ hy g => neg_le.mp (h.le_floor (hf.onGrid_of_decode hy).neg (neg_le.mp g))⟩
  · cases neg
    · have down : up = false := by simpa [GoesUp] using hup
      subst down
      simp only [signRat_false, one_mul]
      exact ⟨h.floor_le, fun b y _ hy g => h.le_floor (hf.onGrid_of_decode hy) g⟩
    · have up_iff : up = true ↔ t ≠ 0 := by simpa [GoesUp] using hup
      obtain ⟨le, least⟩ := h.ceil_le up_iff
      simp only [signRat_true, neg_one_mul]
      exact ⟨neg_le_neg le, fun b y _ hy g => le_neg.mp (least (hf.onGrid_of_decode hy).neg (le_neg.mp g))⟩

end Fmt.Places
end Sys2Proof.Machine

namespace Sys2Proof.Machine

/-! ## Overflow (R50, Table 2.4) -/

theorem signRat_mul_pos {neg : Bool} {a : Rat} (ha : 0 < a) : 0 < signRat neg * a ↔ neg = false := by
  cases neg <;> simp [ha, ha.le]

theorem signRat_mul_neg {neg : Bool} {a : Rat} (ha : 0 < a) : signRat neg * a < 0 ↔ neg = true := by
  cases neg <;> simp [ha, ha.le]

/-- The sign decides whether a mode goes beyond the finite values. -/
theorem toInfinity_iff (mode : Nat) {neg : Bool} {a : Rat} (ha : 0 < a) :
    ToInfinity mode (signRat neg * a) ↔ mode = 0 ∨ mode = 2 ∧ neg = false ∨ mode = 3 ∧ neg = true := by
  rw [ToInfinity, signRat_mul_pos ha, signRat_mul_neg ha]

/-- The first power of two beyond the finite values, in units of their last place. -/
theorem Fmt.bound_eq (f : Fmt) :
    (2 : Rat) ^ (f.bias + 1) = 2 ^ ((f.mb + 1 : Nat) : Int) * 2 ^ (f.bias - f.mb) := by
  rw [← two_zpow_add]
  congr 1
  push_cast
  ring

namespace Fmt.Places

variable {f : Fmt} {a : Rat} {l : Int} {k : Nat} {t : Rat} (h : f.Places a l k t) (hf : f.Ieee)
include h hf

/-- From 2^(bias + 1) on the multiple k is beyond the finite values already. -/
theorem floor_beyond (big : (2 : Rat) ^ (f.bias + 1) ≤ a) : (2 : Rat) ^ (f.bias + 1) ≤ k * 2 ^ f.quantum l := by
  have hl : f.bias + 1 < l + 1 := two_zpow_lt.mp (big.trans_lt h.high)
  have hq := f.quantum_ge l
  have bias := hf.bias_pos
  have ne : f.quantum l ≠ f.lo := by simp only [Fmt.lo]; omega
  calc (2 : Rat) ^ (f.bias + 1) ≤ 2 ^ ((f.mb : Int) + f.quantum l) := two_zpow_le.mpr (by omega)
    _ = 2 ^ (f.mb : Int) * 2 ^ f.quantum l := two_zpow_add _ _
    _ ≤ k * 2 ^ f.quantum l := by
      refine mul_le_mul_of_nonneg_right ?_ (two_zpow_pos _).le
      rw [two_zpow_nat]
      exact_mod_cast h.normal ne

/-- In the last place before 2^(bias + 1), k is odd and k + 1 is beyond the finite values. -/
theorem last_place (small : a < 2 ^ (f.bias + 1)) (last : (2 : Rat) ^ (f.bias + 1) - 2 ^ (f.bias - f.mb) ≤ a) :
    f.quantum l = f.bias - f.mb ∧ k + 1 = 2 ^ (f.mb + 1) := by
  have bias := hf.bias_pos
  have double : (2 : Rat) ^ (f.bias + 1) = 2 ^ f.bias + 2 ^ f.bias := by rw [two_zpow_add, zpow_one]; ring
  have unit : (2 : Rat) ^ (f.bias - f.mb) ≤ 2 ^ f.bias := two_zpow_le.mpr (by omega)
  have le : l < f.bias + 1 := two_zpow_lt.mp (h.low.trans_lt small)
  have ge : f.bias < l + 1 := two_zpow_lt.mp (lt_of_le_of_lt (by linarith) h.high)
  have hq : f.quantum l = f.bias - f.mb := by simp only [Fmt.quantum]; omega
  have next := h.lt_next
  rw [hq] at next
  have : (2 : Rat) ^ ((f.mb + 1 : Nat) : Int) < k + 1 + 1 := by
    refine lt_of_mul_lt_mul_right ?_ (two_zpow_pos (f.bias - f.mb)).le
    rw [add_one_mul ((k : Rat) + 1), ← f.bound_eq]
    linarith
  rw [two_zpow_nat] at this
  have : 2 ^ (f.mb + 1) < k + 1 + 1 := by exact_mod_cast this
  exact ⟨hq, by have := h.lt_carry; omega⟩

/-- Elsewhere below 2^(bias + 1), k + 1 is not beyond the finite values. -/
theorem next_within (small : a < 2 ^ (f.bias + 1) - 2 ^ (f.bias - f.mb)) :
    ((k + 1 : Nat) : Rat) * 2 ^ f.quantum l < 2 ^ (f.bias + 1) := by
  have bias := hf.bias_pos
  have unit := two_zpow_pos (f.bias - f.mb)
  have le : l < f.bias + 1 := two_zpow_lt.mp (h.low.trans_lt (by linarith))
  have hq : f.quantum l ≤ f.bias - f.mb := by simp only [Fmt.quantum]; omega
  obtain hq | hq := hq.lt_or_eq
  · calc ((k + 1 : Nat) : Rat) * 2 ^ f.quantum l ≤ 2 ^ ((f.mb + 1 : Nat) : Int) * 2 ^ f.quantum l := by
          refine mul_le_mul_of_nonneg_right ?_ (two_zpow_pos _).le
          rw [two_zpow_nat]
          exact_mod_cast h.lt_carry
      _ < 2 ^ ((f.mb + 1 : Nat) : Int) * 2 ^ (f.bias - f.mb) := mul_lt_mul_of_pos_left (two_zpow_lt.mpr hq) (two_zpow_pos _)
      _ = 2 ^ (f.bias + 1) := f.bound_eq.symm
  · have low := h.floor_le
    rw [hq] at low ⊢
    push_cast
    linarith

/-- A number overflows exactly when the neighbour that the mode takes is beyond the finite values. -/
theorem overflows_iff {mode : Nat} (hm : mode < 4) (neg : Bool) {up : Bool} (hup : up = true ↔ GoesUp mode neg (k % 2 == 1) t) :
    Overflows f mode (signRat neg * a) ↔ (2 : Rat) ^ (f.bias + 1) ≤ (if up then k + 1 else k : Nat) * 2 ^ f.quantum l := by
  have unit := two_zpow_pos (f.bias - f.mb)
  have half : (2 : Rat) ^ (f.bias - f.mb) = 2 * 2 ^ (f.bias - f.mb - 1) := by
    rw [show f.bias - f.mb = 1 + (f.bias - f.mb - 1) by ring, two_zpow_add, zpow_one]
    ring_nf
  rw [Overflows, toInfinity_iff mode h.pos, rat_abs_eq, abs_signRat_mul, abs_of_pos h.pos]
  obtain big | small := le_or_gt (2 ^ (f.bias + 1)) a
  · refine iff_of_true ?_ ((h.floor_beyond hf big).trans (mul_le_mul_of_nonneg_right ?_ (two_zpow_pos _).le))
    · by_cases zero : mode = 0
      · exact .inl ⟨zero, by linarith⟩
      · by_cases away : mode = 2 ∧ neg = false ∨ mode = 3 ∧ neg = true
        · exact .inr (.inl ⟨.inr away, by linarith, zero⟩)
        · exact .inr (.inr ⟨by tauto, big⟩)
    · cases up <;> simp
  · obtain last | within := le_or_gt ((2 : Rat) ^ (f.bias + 1) - 2 ^ (f.bias - f.mb)) a
    · obtain ⟨hq, hk⟩ := h.last_place hf small last
      have value : a = 2 ^ (f.bias + 1) - 2 ^ (f.bias - f.mb) + t * 2 ^ (f.bias - f.mb) := by
        rw [f.bound_eq, two_zpow_nat, ← hk, h.eq, hq]
        push_cast
        ring
      have odd : k % 2 = 1 := by rw [Nat.pow_succ] at hk; omega
      have taken : (2 : Rat) ^ (f.bias + 1) ≤ (if up then k + 1 else k : Nat) * 2 ^ f.quantum l ↔ up = true := by
        cases up
        · simpa using h.floor_le.trans_lt small
        · rw [if_pos rfl, hq, hk, f.bound_eq, two_zpow_nat]
          simp
      have beyond_half : 2 ^ (f.bias + 1) - 2 ^ (f.bias - f.mb - 1) ≤ a ↔ 1 / 2 ≤ t := by
        rw [value, half]
        constructor <;> intro g <;> nlinarith
      have beyond_zero : 2 ^ (f.bias + 1) - 2 ^ (f.bias - f.mb) < a ↔ t ≠ 0 := by
        rw [value, lt_add_iff_pos_right, mul_pos_iff_of_pos_right unit]
        exact ⟨ne_of_gt, fun g => lt_of_le_of_ne h.nonneg g.symm⟩
      rw [taken, hup, beyond_half, beyond_zero]
      obtain rfl | rfl | rfl | rfl : mode = 0 ∨ mode = 1 ∨ mode = 2 ∨ mode = 3 := by omega
      · simp [GoesUp, odd, le_iff_lt_or_eq, eq_comm]
      · simp [GoesUp, small]
      · simp [GoesUp, small, and_comm]
      · simp [GoesUp, small, and_comm]
    · have next := h.next_within hf within
      refine iff_of_false ?_ ?_
      · rintro (⟨-, g⟩ | ⟨-, g, -⟩ | ⟨-, g⟩) <;> linarith
      · cases up
        · simpa using h.floor_le.trans_lt small
        · simpa using next

end Fmt.Places
end Sys2Proof.Machine

namespace Sys2Proof.Machine

/-! ## One rounding (R48 to R50, R56) -/

/-- What a number beyond the finite values becomes, without saturation (Table 2.4). -/
theorem Fmt.Ieee.overflow_spec {f : Fmt} (hf : f.Ieee) {mode : Nat} (hm : mode < 4) (neg : Bool) {a : Rat} (ha : 0 < a) :
    ∃ beyond : Nat, (ToInfinity mode (signRat neg * a) → beyond = f.infBits) ∧
      (¬ ToInfinity mode (signRat neg * a) → beyond = f.maxBits) ∧ (f.overflow mode neg false).fl = fOF ||| fNX ∧
      ((0 < signRat neg * a ∧ (f.overflow mode neg false).bits = beyond) ∨
        (signRat neg * a < 0 ∧ (f.overflow mode neg false).bits = f.signBit + beyond)) := by
  rw [toInfinity_iff mode ha, signRat_mul_pos ha, signRat_mul_neg ha]
  obtain rfl | rfl | rfl | rfl : mode = 0 ∨ mode = 1 ∨ mode = 2 ∨ mode = 3 := by omega
  all_goals cases neg <;> simp [Fmt.overflow, hf.sp, rmRz, rmRup, rmRdn]

/-- A rounding without saturation, by the neighbour that the mode takes and the place of the number. -/
theorem Fmt.round_eq (f : Fmt) {mode : Nat} (hm : mode < 4) (neg : Bool) {m : Nat} (hm0 : m ≠ 0) (e : Int) :
    ∃ (k : Nat) (t : Rat) (up : Bool), f.Places (m * (2 : Rat) ^ e) (Nat.log2 m + e) k t ∧
      (up = true ↔ GoesUp mode neg (k % 2 == 1) t) ∧
      f.round mode false 0 ⟨neg, m, e, false⟩ =
        let bits := f.encodeMag (if up then k + 1 else k) (f.quantum (Nat.log2 m + e))
        if f.maxBits < bits then f.overflow mode neg false
        else ⟨(if neg then f.signBit else 0) + bits,
          if t = 0 then 0 else if Nat.log2 m + e < 1 - f.bias then fNX ||| fUF else fNX⟩ := by
  refine ⟨_, _, _, places_splitAt f hm0 e, roundsUp_iff hm neg _ (splitAt_rest_lt m e _) 0, ?_⟩
  have zero : (((splitAt m e (f.quantum (Nat.log2 m + e))).2.1 : Rat) / 2 ^ (splitAt m e (f.quantum (Nat.log2 m + e))).2.2 = 0) ↔
      (splitAt m e (f.quantum (Nat.log2 m + e))).2.1 = 0 := by simp
  simp only [Fmt.round, beq_iff_eq, hm0, Bool.not_false, Bool.and_true, if_false, Bool.or_false, zero]
  congr 2
  by_cases exact : (splitAt m e (f.quantum (Nat.log2 m + e))).2.1 = 0
  · simp [exact]
  · by_cases tiny : (Nat.log2 m : Int) + e < 1 - f.bias <;> simp [exact, tiny]

theorem signRat_mul_inj {neg : Bool} {x y : Rat} : signRat neg * x = signRat neg * y ↔ x = y := by
  cases neg <;> simp

/-- The neighbour that a mode takes is the number itself exactly at a multiple of the place. -/
theorem Fmt.Places.taken_eq_iff {f : Fmt} {a : Rat} {l : Int} {k : Nat} {t : Rat} (h : f.Places a l k t) {mode : Nat} {neg up : Bool}
    (hup : up = true ↔ GoesUp mode neg (k % 2 == 1) t) : (if up then k + 1 else k : Nat) * (2 : Rat) ^ f.quantum l = a ↔ t = 0 := by
  have exactly : t = 0 → up = false := by
    rintro rfl
    rw [← Bool.not_eq_true, hup]
    unfold GoesUp
    split <;> norm_num
  have scale (n : Nat) : n * (2 : Rat) ^ f.quantum l = a ↔ (n : Rat) = k + t := by
    rw [h.eq, mul_left_inj' (two_zpow_pos _).ne']
  rw [scale]
  cases up
  · simp
  · have ne : t ≠ 0 := fun e => absurd (exactly e) (by decide)
    refine iff_of_false (fun e => ?_) ne
    rw [if_pos rfl, Nat.cast_succ] at e
    linarith [h.lt_one]

/-- The exponent of the leading bit tells whether a number is below the smallest normal magnitude. -/
theorem Fmt.Places.lt_zpow_iff {f : Fmt} {a : Rat} {l : Int} {k : Nat} {t : Rat} (h : f.Places a l k t) (n : Int) :
    a < 2 ^ n ↔ l < n := by
  constructor
  · exact fun g => two_zpow_lt.mp (h.low.trans_lt g)
  · exact fun g => h.high.trans_le (two_zpow_le.mpr (by omega))

/-- A rounding of an exact nonzero number is the one rounding of Table 2.3, or Table 2.4's value on overflow. -/
theorem Fmt.Ieee.roundedOnce {f : Fmt} (hf : f.Ieee) {mode : Nat} (hm : mode < 4) (neg : Bool) {m : Nat} (hm0 : m ≠ 0) (e : Int) :
    RoundedOnce f mode (signRat neg * (m * (2 : Rat) ^ e)) (f.round mode false 0 ⟨neg, m, e, false⟩) := by
  obtain ⟨k, t, up, h, hup, result⟩ := f.round_eq hm neg hm0 e
  rw [result]
  generalize (Nat.log2 m : Int) + e = l at h
  generalize (m : Rat) * 2 ^ e = a at h
  have carry : (if up then k + 1 else k) ≤ 2 ^ (f.mb + 1) := by
    have := h.lt_carry
    split <;> omega
  have normal (ne : f.quantum l ≠ f.lo) : 2 ^ f.mb ≤ if up then k + 1 else k := by
    have := h.normal ne
    split <;> omega
  have beyond_iff := (h.overflows_iff hf hm neg hup).trans (hf.maxBits_lt_encodeMag carry (f.lo_le_quantum l) normal).symm
  have sign_even : (if neg then f.signBit else 0) % 2 = 0 := by
    cases neg
    · rfl
    · exact Nat.mod_eq_zero_of_dvd (dvd_pow_self 2 (by have := hf.mb; omega))
  simp only
  by_cases beyond : f.maxBits < f.encodeMag (if up then k + 1 else k) (f.quantum l)
  · rw [if_pos beyond]
    exact .inl ⟨beyond_iff.mpr beyond, hf.overflow_spec hm neg h.pos⟩
  · rw [if_neg beyond]
    obtain ⟨m', e', decoded, value⟩ := hf.decode_encodeMag carry (f.lo_le_quantum l) normal neg beyond
    refine .inr ⟨mt beyond_iff.mp beyond, signRat neg * ((if up then k + 1 else k : Nat) * 2 ^ f.quantum l), ?_,
      h.chosen hf hm neg hup ?_, ?_, ?_, ?_, ?_⟩
    · rw [decoded, FVal.rat_fin, value]
    · rw [Nat.add_mod, sign_even, hf.encodeMag_mod_two carry (f.lo_le_quantum l) normal]
      omega
    · intro _
      rw [decoded, FVal.neg, Bool.eq_iff_iff, decide_eq_true_eq, signRat_mul_neg h.pos]
    · rw [signRat_mul_inj, h.taken_eq_iff hup]
      exact fun exact => if_pos exact
    · rw [ne_eq, signRat_mul_inj, h.taken_eq_iff hup, rat_abs_eq, abs_signRat_mul, abs_of_pos h.pos, h.lt_zpow_iff]
      exact fun rest tiny => by rw [if_neg rest, if_pos tiny]
    · rw [ne_eq, signRat_mul_inj, h.taken_eq_iff hup, rat_abs_eq, abs_signRat_mul, abs_of_pos h.pos, ← not_lt, h.lt_zpow_iff]
      exact fun rest large => by rw [if_neg rest, if_neg large]

/-- Settles O6: `Fmt.Places` says where the number lies, `Fmt.Places.chosen` that the neighbour the mode takes is Table 2.3's, and
`Fmt.Places.overflows_iff` when it is beyond the finite values. -/
theorem roundingIsCorrect : Obligations.RoundingIsCorrect := by
  unfold Obligations.RoundingIsCorrect
  intro f hf mode hm neg m e hm0
  rw [mul_assoc]
  exact (Fmt.ieee_of_mem hf).roundedOnce hm neg hm0 e

end Sys2Proof.Machine

namespace Sys2Proof.Machine

/-! ## Exact sums and products (R49, R110) -/

theorem FVal.fin_of_rat {v : FVal} {x : Rat} (h : v.rat = some x) : ∃ n m e, v = .fin n m e ∧ x = signRat n * (m * (2 : Rat) ^ e) := by
  cases v with
  | fin n m e => exact ⟨n, m, e, rfl, (Option.some.inj (FVal.rat_fin n m e ▸ h)).symm⟩
  | nan _ => cases h
  | inf _ => cases h

theorem signRat_natAbs (v : Int) : signRat (decide (v < 0)) * (v.natAbs : Rat) = v := by
  rw [Nat.cast_natAbs, Int.cast_abs]
  by_cases h : v < 0
  · rw [decide_eq_true h, signRat_true, abs_of_neg (by exact_mod_cast h)]
    ring
  · rw [decide_eq_false h, signRat_false, abs_of_nonneg (by exact_mod_cast not_lt.mp h), one_mul]

theorem signRat_bne (x y : Bool) : signRat (x != y) = signRat x * signRat y := by
  cases x <;> cases y <;> simp

/-- A signed magnitude brought to a lower place. -/
theorem signRat_shift (n : Bool) (m : Nat) {e g : Int} (h : g ≤ e) :
    ((if n then -((m * 2 ^ (e - g).toNat : Nat) : Int) else (m * 2 ^ (e - g).toNat : Nat) : Int) : Rat) * 2 ^ g =
      signRat n * (m * (2 : Rat) ^ e) := by
  have expo : (2 : Rat) ^ e = (2 ^ (e - g).toNat : Nat) * 2 ^ g := by
    rw [← two_zpow_nat, ← two_zpow_add]
    congr 1
    omega
  rw [expo]
  cases n
  · simp [mul_assoc]
  · simp [mul_assoc]

/-- The exact sum of two finite numbers, and the sign of a zero sum (R49). -/
theorem addFin_spec (mode : Nat) (n1 : Bool) (m1 : Nat) (e1 : Int) (n2 : Bool) (m2 : Nat) (e2 : Int) :
    let u := addFin mode n1 m1 e1 n2 m2 e2
    let sum : Rat := signRat n1 * (m1 * 2 ^ e1) + signRat n2 * (m2 * 2 ^ e2)
    u.sticky = false ∧ (FVal.fin u.neg u.m u.e).rat = some sum ∧ (sum = 0 → n1 ≠ n2 → u.neg = decide (mode = 3)) := by
  intro u sum
  have value := congrArg₂ (· + ·) (signRat_shift n1 m1 (min_le_left e1 e2)) (signRat_shift n2 m2 (min_le_right e1 e2))
  simp only [← add_mul, ← Int.cast_add] at value
  change _ = sum at value
  have hu : u = addFin mode n1 m1 e1 n2 m2 e2 := rfl
  simp only [addFin] at hu
  generalize (if n1 then -((m1 * 2 ^ (e1 - min e1 e2).toNat : Nat) : Int) else (m1 * 2 ^ (e1 - min e1 e2).toNat : Nat) : Int) +
    (if n2 then -((m2 * 2 ^ (e2 - min e1 e2).toNat : Nat) : Int) else (m2 * 2 ^ (e2 - min e1 e2).toNat : Nat)) = v at hu value
  rw [← value, hu, mul_eq_zero_iff_right (two_zpow_pos _).ne', Int.cast_eq_zero]
  by_cases zero : v = 0
  · subst zero
    simp only [beq_self_eq_true, if_true]
    exact ⟨trivial, by simp [FVal.rat_fin], fun _ ne => by simp [ne, rmRdn, beq_eq_decide]⟩
  · simp only [beq_iff_eq, zero, if_false]
    refine ⟨trivial, ?_, fun h => h.elim⟩
    rw [FVal.rat_fin, ← mul_assoc, signRat_natAbs]

/-- The exact product of two finite numbers. -/
theorem mulFin_rat (n1 : Bool) (m1 : Nat) (e1 : Int) (n2 : Bool) (m2 : Nat) (e2 : Int) :
    (FVal.fin (n1 != n2) (m1 * m2) (e1 + e2)).rat = some (signRat n1 * (m1 * (2 : Rat) ^ e1) * (signRat n2 * (m2 * (2 : Rat) ^ e2))) := by
  rw [FVal.rat_fin, signRat_bne, two_zpow_add]
  push_cast
  congr 1
  ring

theorem Fmt.fmaVals_fin (f : Fmt) (mode : Nat) (n1 : Bool) (m1 : Nat) (e1 : Int) (n2 : Bool) (m2 : Nat) (e2 : Int) (n3 : Bool)
    (m3 : Nat) (e3 : Int) : f.fmaVals mode (.fin n1 m1 e1) (.fin n2 m2 e2) (.fin n3 m3 e3) =
      f.round mode false 0 (addFin mode (n1 != n2) (m1 * m2) (e1 + e2) n3 m3 e3) := by
  simp [Fmt.fmaVals, mulInvalid, FVal.isInf, FVal.mul, Fmt.addVals, sigFlag, FVal.isSig]

theorem Fmt.mulVals_fin (f : Fmt) (mode : Nat) (n1 : Bool) (m1 : Nat) (e1 : Int) (n2 : Bool) (m2 : Nat) (e2 : Int) :
    f.mulVals mode (.fin n1 m1 e1) (.fin n2 m2 e2) = f.round mode false 0 ⟨n1 != n2, m1 * m2, e1 + e2, false⟩ := by
  simp [Fmt.mulVals, mulInvalid, FVal.isInf, FVal.mul]

/-! ## NaN operands and invalid products (R39, R110) -/

theorem FVal.isNan_iff {x : FVal} : x.isNan = true ↔ ∃ g, x = .nan g := by
  cases x <;> simp [FVal.isNan]

/-- One of two operands is a NaN. -/
def OneNan (x y : FVal) : Prop := (∃ g, x = .nan g) ∨ ∃ g, y = .nan g

theorem oneNan_of_isNan {x y : FVal} (h : (x.isNan || y.isNan) = true) : OneNan x y := by
  rwa [Bool.or_eq_true, FVal.isNan_iff, FVal.isNan_iff] at h

section
variable {x y : FVal} (h : OneNan x y)
include h

theorem mulInvalid_of_nan : mulInvalid x y = false := by
  obtain ⟨g, rfl⟩ | ⟨g, rfl⟩ := h
  · cases y <;> rfl
  · cases x <;> simp [mulInvalid, FVal.isZero, FVal.isInf]

theorem FVal.mul_of_nan : x.mul y = none := by
  obtain ⟨g, rfl⟩ | ⟨g, rfl⟩ := h
  · cases y <;> rfl
  · cases x <;> rfl

theorem Fmt.addVals_of_nan (f : Fmt) (mode : Nat) : f.addVals mode x y = ⟨f.nan, sigFlag [x, y]⟩ := by
  obtain ⟨g, rfl⟩ | ⟨g, rfl⟩ := h
  · cases y <;> rfl
  · cases x <;> rfl

theorem Fmt.divVals_of_nan (f : Fmt) (mode : Nat) : f.divVals mode x y = ⟨f.nan, sigFlag [x, y]⟩ := by
  obtain ⟨g, rfl⟩ | ⟨g, rfl⟩ := h
  · cases y <;> rfl
  · cases x <;> rfl

theorem Fmt.mulVals_of_nan (f : Fmt) (mode : Nat) : f.mulVals mode x y = ⟨f.nan, sigFlag [x, y]⟩ := by
  simp [Fmt.mulVals, mulInvalid_of_nan h, FVal.mul_of_nan h, Fmt.nanRes]

theorem Fmt.fmaVals_of_nan (f : Fmt) (mode : Nat) (z : FVal) : f.fmaVals mode x y z = ⟨f.nan, sigFlag [x, y, z]⟩ := by
  simp [Fmt.fmaVals, mulInvalid_of_nan h, FVal.mul_of_nan h, Fmt.nanRes]

end

/-- A valid product of numbers is a number. -/
theorem FVal.mul_of_numbers {x y : FVal} (h : ¬ OneNan x y) (valid : mulInvalid x y = false) : ∃ p, x.mul y = some p ∧ p.isSig = false := by
  cases x with
  | nan g => exact absurd (.inl ⟨g, rfl⟩) h
  | inf a => cases y with
    | nan g => exact absurd (.inr ⟨g, rfl⟩) h
    | inf b => exact ⟨_, rfl, rfl⟩
    | fin b m e =>
      have : m ≠ 0 := by simpa [mulInvalid, FVal.isZero, FVal.isInf] using valid
      exact ⟨.inf (a != b), by simp [FVal.mul, this], rfl⟩
  | fin a m e => cases y with
    | nan g => exact absurd (.inr ⟨g, rfl⟩) h
    | inf b =>
      have : m ≠ 0 := by simpa [mulInvalid, FVal.isZero, FVal.isInf] using valid
      exact ⟨.inf (a != b), by simp [FVal.mul, this], rfl⟩
    | fin b n g => exact ⟨_, rfl, rfl⟩

theorem isSig_of_number {x y : FVal} (h : ¬ OneNan x y) : x.isSig = false ∧ y.isSig = false := by
  constructor
  · cases x with
    | nan g => exact absurd (.inl ⟨g, rfl⟩) h
    | _ => rfl
  · cases y with
    | nan g => exact absurd (.inr ⟨g, rfl⟩) h
    | _ => rfl

/-- A NaN addend of a valid product gives the canonical NaN. -/
theorem Fmt.fmaVals_of_nan_addend (f : Fmt) (mode : Nat) {x y z : FVal} (hz : z.isNan = true) (valid : mulInvalid x y = false) :
    f.fmaVals mode x y z = ⟨f.nan, sigFlag [x, y, z]⟩ := by
  by_cases h : OneNan x y
  · exact f.fmaVals_of_nan h mode z
  · obtain ⟨p, hp, quiet⟩ := FVal.mul_of_numbers h valid
    obtain ⟨qx, qy⟩ := isSig_of_number h
    have sum := f.addVals_of_nan (x := p) (.inr (FVal.isNan_iff.mp hz)) mode
    simp [Fmt.fmaVals, valid, hp, sum, sigFlag, quiet, qx, qy]

/-- Zero times infinity is invalid with every addend (R110). -/
theorem Fmt.invalid_product (f : Fmt) (mode : Nat) {x y : FVal} (h : mulInvalid x y = true) (z : FVal) :
    f.mulVals mode x y = ⟨f.nan, fNV⟩ ∧ f.fmaVals mode x y z = ⟨f.nan, fNV⟩ := by
  simp [Fmt.mulVals, Fmt.fmaVals, h, Fmt.nanRes]

/-- Settles O7: `addFin_spec` and `mulFin_rat` for what is rounded, the lemmas about `OneNan` for NaN operands and
`Fmt.invalid_product` for zero times infinity. -/
theorem exactSumsAndNans : Obligations.ExactSumsAndNans := by
  unfold Obligations.ExactSumsAndNans
  refine ⟨fun f _ mode _ a b c x y z ha hb hc => ?_, fun f _ mode _ x y z => ⟨fun h => ?_, fun h => ?_, fun h valid => ?_, fun n => ?_,
    fun n m e => ?_⟩⟩
  · obtain ⟨n1, m1, e1, da, rfl⟩ := FVal.fin_of_rat ha
    obtain ⟨n2, m2, e2, db, rfl⟩ := FVal.fin_of_rat hb
    obtain ⟨n3, m3, e3, dc, rfl⟩ := FVal.fin_of_rat hc
    rw [da, db, dc]
    refine ⟨?_, ?_, ?_⟩
    · obtain ⟨exact, value, sign⟩ := addFin_spec mode n1 m1 e1 n2 m2 e2
      exact ⟨_, exact, value, rfl, sign⟩
    · exact ⟨⟨n1 != n2, m1 * m2, e1 + e2, false⟩, rfl, mulFin_rat n1 m1 e1 n2 m2 e2, f.mulVals_fin mode n1 m1 e1 n2 m2 e2, rfl⟩
    · obtain ⟨exact, value, -⟩ := addFin_spec mode (n1 != n2) (m1 * m2) (e1 + e2) n3 m3 e3
      have product := Option.some.inj ((FVal.rat_fin _ _ _).symm.trans (mulFin_rat n1 m1 e1 n2 m2 e2))
      rw [product] at value
      exact ⟨_, exact, value, f.fmaVals_fin mode n1 m1 e1 n2 m2 e2 n3 m3 e3⟩
  · have h := oneNan_of_isNan h
    exact ⟨f.addVals_of_nan h mode, f.mulVals_of_nan h mode, f.divVals_of_nan h mode, f.fmaVals_of_nan h mode z⟩
  · obtain ⟨g, rfl⟩ := FVal.isNan_iff.mp h
    cases g <;> rfl
  · exact f.fmaVals_of_nan_addend mode h valid
  · cases n <;> rfl
  · have left : mulInvalid (.inf n) (.fin m 0 e) = true := rfl
    have right : mulInvalid (.fin m 0 e) (.inf n) = true := rfl
    exact ⟨(f.invalid_product mode left (.nan false)).1, (f.invalid_product mode right (.nan false)).1,
      (f.invalid_product mode left (.nan false)).2, (f.invalid_product mode right (.nan false)).2⟩

end Sys2Proof.Machine

namespace Sys2Proof.Machine

/-! ## What a conversion writes in its lanes (R20, R52, R57) -/

/-- A lane that takes words at a destination, flags and a generator. -/
def Lane.takeCvt (x : Lane) (d : Operand) (r : List Word × CvtAcc) : Lane :=
  { x.writeDst d r.1 with fpx := x.fpx ||| r.2.fl, gen := r.2.gen }

theorem Lane.takeCvt_eq (x : Lane) (d : Operand) (r : List Word × CvtAcc) :
    ∃ m, x.takeCvt d r = { x with regs := m, fpx := x.fpx ||| r.2.fl, gen := r.2.gen } := by
  obtain ⟨m, h⟩ := x.writeDst_rest d r.1
  exact ⟨m, by rw [Lane.takeCvt, h]⟩

section
variable {s : State} {i : Instr} {c : Cur} {w : Warp} (h : Issuing s i c w)
include h

theorem Issuing.laneAt_eq (l : Nat) : s.laneAt c.wid l = w.lane l := by
  obtain ⟨v, hv, -, hl⟩ := h.found
  rw [State.laneAt, hv, Option.map_some, Option.getD_some, Warp.lane_eq, Warp.lane_eq, hl]

/-- The lanes after a conversion: each active one takes what its generator at issue gives. -/
theorem Issuing.laneAt_perCvt (f : Nat → Word → List Word × CvtAcc) (v l : Nat) :
    ((s.advance c).perCvt (s.env i c w) f).laneAt v l = if v = c.wid ∧ l ∈ activeLanes s i c w then
      ((s.advance c).laneAt v l).takeCvt i.operands.d (f l (w.lane l).gen) else (s.advance c).laneAt v l := by
  obtain ⟨w', hw', hlen⟩ := h.found_advance
  exact State.laneAt_foldl (s.advance c) c.wid (activeLanes s i c w) (fun l x => x.takeCvt i.operands.d (f l (w.lane l).gen)) w' hw'
    (activeLanes_nodup h) (fun l hl => by rw [hlen]; exact activeLanes_lt h l hl) v l

/-- Writing words, flags and a generator in each lane, as a relation. -/
theorem Issuing.converts (f : Nat → Word → List Word × CvtAcc) (n : Nat) (R : Nat → Word → List Word → BitVec 6 → Word → Prop)
    (hn : ∀ l g, (f l g).1.length ≤ n)
    (hR : ∀ l ∈ activeLanes s i c w, ∀ g, R l g (f l g).1 (f l g).2.fl (f l g).2.gen) :
    Converts s ((s.advance c).perCvt (s.env i c w) f) i c w n R where
  frame := by
    obtain ⟨w', hw', hlen⟩ := h.found_advance
    refine (s.registersOnly_advance c _ _).trans (State.registersOnly_foldl _ _ _
      (fun l x => x.takeCvt i.operands.d (f l (w.lane l).gen)) w' _ hw' (activeLanes_nodup h)
      (fun l hl => by rw [hlen]; exact activeLanes_lt h l hl) (fun l x => ?_) (fun l x k hk => ?_))
    · obtain ⟨m, hm⟩ := x.takeCvt_eq i.operands.d (f l (w.lane l).gen)
      rw [hm]
      rfl
    · exact Lane.reg_writeDst_other x _ _ k n (hn l _) hk
  moved := (State.moved_advance h).congr fun v l => by
    rw [h.laneAt_perCvt]
    split
    · obtain ⟨m, hm⟩ := ((s.advance c).laneAt v l).takeCvt_eq i.operands.d (f l (w.lane l).gen)
      rw [hm]
      exact ⟨rfl, rfl, rfl⟩
    · exact ⟨rfl, rfl, rfl⟩
  words l hl := by
    have lane := h.laneAt_perCvt f c.wid l
    rw [if_pos ⟨rfl, hl⟩, ← h.laneAt_eq] at lane
    obtain ⟨p, q, r, adv⟩ := s.laneAt_advance c c.wid l
    refine ⟨(f l (s.laneAt c.wid l).gen).1, (f l (s.laneAt c.wid l).gen).2.fl, ?_, ?_, ?_⟩
    · rw [lane]
      exact hR l hl _
    · rw [State.fpxAt, lane, Lane.takeCvt, adv]
      rfl
    · intro b hb k hk
      rw [State.regAt, lane, hb]
      exact Lane.reg_writeDst _ b _ k hk

end

/-- A conversion that leaves every generator writes words and flags. -/
theorem Converts.writes {s t : State} {i : Instr} {c : Cur} {w : Warp} {n : Nat} {R : Nat → List Word → BitVec 6 → Prop}
    (h : Converts s t i c w n (fun l gen ws fl gen' => gen' = gen ∧ R l ws fl)) : Writes s t i c w n R where
  frame := h.frame
  moved := h.moved
  words l hl := by
    obtain ⟨ws, fl, ⟨gen, rel⟩, flags, regs⟩ := h.words l hl
    exact ⟨ws, fl, rel, flags, gen, regs⟩

/-! ## Elements converted in order (R52) -/

/-- The generator after k elements of a conversion. -/
def generatorAfter (sr : Bool) (g : Word) : Nat → Word
  | 0 => g
  | k + 1 => if sr then advance (generatorAfter sr g k) else generatorAfter sr g k

/-- Result k of a conversion: the generator has moved k + 1 times. -/
def convertedAt {α : Type} (sr : Bool) (f : Nat → α → FRes) (g : Word) (xs : List α) (k : Nat) : FRes :=
  (xs[k]?).map (f (generatorAfter sr g (k + 1)).toNat) |>.getD ⟨0, 0⟩

theorem cvtAll_snoc {α : Type} (sr : Bool) (f : Nat → α → FRes) (g : Word) (xs : List α) (x : α) :
    cvtAll sr f g (xs ++ [x]) = (cvtAll sr f g xs).step sr f x := by
  simp [cvtAll]

/-- What a conversion of several elements gives: the results in order, the union of their flags, and the generator moved once per
element under .sr. -/
theorem cvtAll_eq {α : Type} (sr : Bool) (f : Nat → α → FRes) (g : Word) (xs : List α) :
    let rs := (List.range xs.length).map (convertedAt sr f g xs)
    cvtAll sr f g xs = { gen := generatorAfter sr g xs.length, fl := (rs.map (·.fl)).foldl (· ||| ·) 0, outs := rs.map (·.bits) } := by
  induction xs using List.reverseRecOn with
  | nil => rfl
  | append_singleton xs x ih =>
    have before : (List.range xs.length).map (convertedAt sr f g (xs ++ [x])) = (List.range xs.length).map (convertedAt sr f g xs) :=
      List.map_congr_left fun k hk => by
        rw [convertedAt, List.getElem?_append_left (List.mem_range.mp hk)]
        rfl
    have last : convertedAt sr f g (xs ++ [x]) xs.length = f (generatorAfter sr g (xs.length + 1)).toNat x := by
      simp [convertedAt]
    rw [cvtAll_snoc, ih]
    simp only [List.length_append, List.length_singleton, List.range_succ, List.map_append, List.map_singleton, before, last,
      CvtAcc.step, List.foldl_append, List.foldl_cons, List.foldl_nil]
    rfl

/-- An instruction whose effect is to convert elements in each lane and to write them packed. -/
theorem givesConversion_perCvt {mk : Operands → Instr} {n : Nat} {α : Type} {xs : State → Operands → Cur → Warp → Nat → List α}
    {steps : Operands → Bool} {g : Operands → Nat → Nat → α → FRes} {pack : Operands → Sources → List Nat → List Word}
    (body : Env → State → Nat → Word → List Word × CvtAcc)
    (he : ∀ o s, exec (mk o) s = issue (mk o) s (fun e s => s.perCvt e (body e s)))
    (hb : ∀ s o c w l gen, body (s.env (mk o) c w) (s.advance c) l gen =
      let mode := (s.env (mk o) c w).cvtMode
      let r := cvtAll (mode == rmSr && steps o) (g o mode) gen (xs s o c w l)
      (pack o (s.sources o c w l) r.outs, r))
    (hn : ∀ o x ys, (pack o x ys).length ≤ n) : GivesConversion mk n α xs steps g pack := by
  intro s o c w h
  refine ⟨_, by rw [he, issue_next h], h.converts _ _ _ (fun l gen => ?_) (fun l _ gen => ?_)⟩
  · rw [hb]
    exact hn _ _ _
  · rw [hb]
    intro mode sr
    have gens (k : Nat) (hk : k ≤ (xs s o c w l).length) :
        ((List.range ((xs s o c w l).length + 1)).map (generatorAfter sr gen)).getD k 0 = generatorAfter sr gen k := by
      simp [Nat.lt_succ_of_le hk]
    refine ⟨(List.range ((xs s o c w l).length + 1)).map (generatorAfter sr gen), by simp, gens 0 (Nat.zero_le _), ?_, fun k hk => ?_, ?_⟩
    · simp [List.getLastD_eq_getLast?, List.range_succ, cvtAll_eq, sr, mode]
    · rw [gens (k + 1) hk, gens k hk.le, generatorAfter]
    · have results : ((List.range (xs s o c w l).length).map fun k => ((xs s o c w l)[k]?).map (g o mode
          (((List.range ((xs s o c w l).length + 1)).map (generatorAfter sr gen)).getD (k + 1) 0).toNat) |>.getD ⟨0, 0⟩) =
          (List.range (xs s o c w l).length).map (convertedAt sr (g o mode) gen (xs s o c w l)) :=
        List.map_congr_left fun k hk => by rw [gens (k + 1) (List.mem_range.mp hk), convertedAt]
      simp only [results, cvtAll_eq]
      exact ⟨rfl, rfl⟩

end Sys2Proof.Machine

namespace Sys2Proof.Machine

/-! ## The conversions of Table 4.10 -/

theorem putFields_word (x : Nat) : putFields 0 32 0 [x] = BitVec.ofNat 32 x := by
  simp [putFields]

/-- Elements read after the advance of their issue are those at issue. -/
theorem Env.cvtElems_advance (s : State) (i : Instr) (c : Cur) (w : Warp) (four : Bool) (l : Nat) :
    (s.env i c w).cvtElems (s.advance c) four l = (s.env i c w).cvtElems s four l := by
  simp only [Env.cvtElems, Env.word_advance']

/-- A narrow conversion whose words come from the fields, the operand words and the results. -/
theorem givesConversion_narrow {mk : Operands → Instr} {f : Fmt} {four : Bool} {pack : Operands → Sources → List Nat → List Word}
    (ho : ∀ o, (mk o).operands = o)
    (words : Env → State → Nat → List Nat → List Word)
    (he : ∀ o s, exec (mk o) s = issue (mk o) s (fun e s => s.perCvt e (fun l gen =>
      let r := e.cvtTo f gen (e.cvtElems s four l)
      (words e s l r.outs, r))))
    (hw : ∀ (s : State) (o : Operands) (c : Cur) (w : Warp) (l : Nat) (ys : List Nat),
      words (s.env (mk o) c w) (s.advance c) l ys = pack o (s.sources o c w l) ys)
    (hn : ∀ o x ys, (pack o x ys).length ≤ 1) :
    GivesConversion mk 1 FVal (fun s o c w l => (s.env (mk o) c w).cvtElems s four l) (fun o => !isWidening (cvtS o) f)
      (fun o mode rnd x => f.convert (if isWidening (cvtS o) f then 0 else mode) (o.modBit 3) rnd x) pack := by
  refine givesConversion_perCvt _ he (fun s o c w l gen => ?_) hn
  simp only [Env.cvtElems_advance, hw, Env.cvtTo, State.env_o, ho]
  rfl

/-- The bytes of an 8-bit conversion, by the number of its results. -/
theorem State.cvtBytes_eq (s : State) (e : Env) (f : Fmt) : s.cvtBytes e f = s.perCvt e (fun l gen =>
    let r := e.cvtTo f gen (e.cvtElems s true l)
    ([if r.outs.length = 4 then putFields 0 8 0 r.outs else putFields (e.d s l) 8 (2 * cvtEl e.o) r.outs], r)) := by
  unfold State.cvtBytes
  congr 1
  funext l gen
  simp only [beq_iff_eq]
  split <;> rfl

theorem narrow_conversions (mk : Operands → Instr) (f : Fmt) (four : Bool) (pack : Operands → Sources → List Nat → List Word)
    (h : (mk, f, four, pack) ∈ conversionTable) :
    GivesConversion mk 1 FVal (fun s o c w l => (s.env (mk o) c w).cvtElems s four l) (fun o => !isWidening (cvtS o) f)
      (fun o mode rnd x => f.convert (if isWidening (cvtS o) f then 0 else mode) (o.modBit 3) rnd x) pack := by
  simp only [conversionTable, List.mem_cons, Prod.mk.injEq, List.not_mem_nil, or_false] at h
  obtain ⟨rfl, rfl, rfl, rfl⟩ | ⟨rfl, rfl, rfl, rfl⟩ | ⟨rfl, rfl, rfl, rfl⟩ | ⟨rfl, rfl, rfl, rfl⟩ | ⟨rfl, rfl, rfl, rfl⟩ := h
  · exact givesConversion_narrow (fun _ => rfl) (fun _ _ _ ys => [putFields 0 16 0 ys]) (fun _ _ => rfl) (fun _ _ _ _ _ _ => rfl)
      (fun _ _ _ => Nat.le_refl 1)
  · exact givesConversion_narrow (fun _ => rfl) (fun _ _ _ ys => [putFields 0 16 0 ys]) (fun _ _ => rfl) (fun _ _ _ _ _ _ => rfl)
      (fun _ _ _ => Nat.le_refl 1)
  · exact givesConversion_narrow (fun _ => rfl)
      (fun e s l ys => [if ys.length = 4 then putFields 0 8 0 ys else putFields (e.d s l) 8 (2 * cvtEl e.o) ys])
      (fun o s => congrArg (issue (.cvtE4m3 o) s) (funext₂ fun e s => s.cvtBytes_eq e _)) (fun _ _ _ _ _ _ => by rw [Env.d_advance]; rfl)
      (fun _ _ _ => Nat.le_refl 1)
  · exact givesConversion_narrow (fun _ => rfl)
      (fun e s l ys => [if ys.length = 4 then putFields 0 8 0 ys else putFields (e.d s l) 8 (2 * cvtEl e.o) ys])
      (fun o s => congrArg (issue (.cvtE5m2 o) s) (funext₂ fun e s => s.cvtBytes_eq e _)) (fun _ _ _ _ _ _ => by rw [Env.d_advance]; rfl)
      (fun _ _ _ => Nat.le_refl 1)
  · exact givesConversion_narrow (fun _ => rfl) (fun e s l ys => [putFields (e.d s l) 4 (ys.length * cvtEl e.o) ys]) (fun _ _ => rfl)
      (fun _ _ _ _ _ _ => by rw [Env.d_advance]; rfl) (fun _ _ _ => Nat.le_refl 1)

/-- A conversion of one element to a word. -/
theorem givesConversion_word {mk : Operands → Instr} {α : Type} {x : State → Operands → Cur → Warp → Nat → α}
    {steps : Operands → Bool} {g : Operands → Nat → Nat → α → FRes} (acc : Env → State → Nat → Word → CvtAcc)
    (he : ∀ o s, exec (mk o) s = issue (mk o) s (fun e s => s.perCvt e (fun l gen =>
      let r := acc e s l gen
      ([putFields 0 32 0 r.outs], r))))
    (ha : ∀ (s : State) (o : Operands) (c : Cur) (w : Warp) (l : Nat) (gen : Word), acc (s.env (mk o) c w) (s.advance c) l gen =
      cvtAll ((s.env (mk o) c w).cvtMode == rmSr && steps o) (g o (s.env (mk o) c w).cvtMode) gen [x s o c w l]) :
    GivesConversion mk 1 α (fun s o c w l => [x s o c w l]) steps g (fun _ _ xs => [BitVec.ofNat 32 (xs.getD 0 0)]) := by
  refine givesConversion_perCvt _ he (fun s o c w l gen => ?_) (fun _ _ _ => Nat.le_refl 1)
  simp only [ha]
  exact Prod.ext (congrArg (fun v => [v]) (putFields_word _)) rfl

theorem cvtF32_converts : GivesConversion .cvtF32 1 FVal
    (fun s o c w l => [cvtVal (cvtS o) (operandWord s w c.lanes l (cvtTy (cvtS o)) o.b) (cvtEl o)])
    (fun o => !isWidening (cvtS o) fmtF32)
    (fun o mode rnd x => fmtF32.convert (if isWidening (cvtS o) fmtF32 then 0 else mode) (o.modBit 3) rnd x)
    (fun _ _ xs => [BitVec.ofNat 32 (xs.getD 0 0)]) := by
  refine givesConversion_word
    (fun e s l gen => e.cvtTo fmtF32 gen [cvtVal (cvtS e.o) (e.word s (cvtTy (cvtS e.o)) e.o.b l) (cvtEl e.o)])
    (fun _ _ => rfl) (fun s o c w l gen => ?_)
  rw [Env.word_advance]
  rfl

theorem cvtInt_converts : GivesConversion .cvtInt 1 FVal
    (fun s o c w l => [cvtVal (cvtS o) (operandWord s w c.lanes l (cvtTy (cvtS o)) o.b) (cvtEl o)]) (fun _ => true)
    (fun o mode rnd x => toIntType (cvtIt o) mode rnd x) (fun _ _ xs => [BitVec.ofNat 32 (xs.getD 0 0)]) := by
  refine givesConversion_word
    (fun e s l gen => cvtAll (e.cvtMode == rmSr) (toIntType (cvtIt e.o) e.cvtMode) gen
      [cvtVal (cvtS e.o) (e.word s (cvtTy (cvtS e.o)) e.o.b l) (cvtEl e.o)])
    (fun _ _ => rfl) (fun s o c w l gen => ?_)
  rw [Env.word_advance, Bool.and_true]
  rfl

theorem cvtRgb_converts : GivesConversion .cvtRgb 1 (Fmt × FVal)
    (fun s o c w l => [(fmtColour6, fmtF32.decode (operandWord s w c.lanes l .f32 o.a).toNat),
      (fmtColour6, fmtF32.decode (operandWord s w c.lanes l .f32 o.b).toNat),
      (fmtColour5, fmtF32.decode (operandWord s w c.lanes l .f32 o.c).toNat)]) (fun _ => true)
    (fun o mode rnd x => colourChannel x.1 mode (o.modBit 3) rnd x.2)
    (fun _ _ xs => [BitVec.ofNat 32 (xs.getD 0 0 + xs.getD 1 0 * 2 ^ 11 + xs.getD 2 0 * 2 ^ 22)]) := by
  refine givesConversion_perCvt (fun e s l gen =>
    let r := cvtAll (e.cvtMode == rmSr) (fun rnd (p : Fmt × FVal) => colourChannel p.1 e.cvtMode (e.o.modBit 3) rnd p.2) gen
      [(fmtColour6, fmtF32.decode (e.word s .f32 e.o.a l).toNat), (fmtColour6, fmtF32.decode (e.word s .f32 e.o.b l).toNat),
        (fmtColour5, fmtF32.decode (e.word s .f32 e.o.c l).toNat)]
    ([BitVec.ofNat 32 (r.outs.getD 0 0 + r.outs.getD 1 0 * 2 ^ 11 + r.outs.getD 2 0 * 2 ^ 22)], r))
    (fun _ _ => rfl) (fun s o c w l gen => ?_) (fun _ _ _ => Nat.le_refl 1)
  simp only [Env.word_advance, Bool.and_true]
  rfl

/-- Settles O11: what `Issuing.converts` says of the lanes, with the elements in order by `cvtAll_eq`. -/
theorem conversionResults : Obligations.ConversionResults :=
  ⟨narrow_conversions, cvtF32_converts, cvtInt_converts, cvtRgb_converts⟩

end Sys2Proof.Machine

namespace Sys2Proof.Machine

/-! ## Block conversions (R123, R124) and channels of packed colour -/

theorem length_packWords (n : Nat) (xs : List Nat) (k : Nat) : (packWords n xs k).length = k := by
  induction k generalizing xs with
  | zero => rfl
  | succ k ih => rw [packWords, List.length_cons, ih]

/-- The window of a block read after the advance of its issue. -/
theorem Env.window32_advance (s : State) (i : Instr) (c : Cur) (w : Warp) (l : Nat) :
    (s.env i c w).window32 (s.advance c) l = (operandWords s w c.lanes l 32 false i.operands.a).map (fun v => fmtF32.decode v.toNat) := by
  rw [Env.window32, Env.words_advance]
  rfl

/-- A block conversion writes the packed elements and then the scale. -/
theorem block_converts {mk : Operands → Instr} (ho : ∀ o, (mk o).operands = o) (bits regs : Nat)
    (conv : Nat → Bool → Word → List FVal → Nat × CvtAcc)
    (he : ∀ o s, exec (mk o) s = issue (mk o) s (fun e s => s.perCvt e (fun l gen =>
      let r := conv e.cvtMode (e.o.modBit 3) gen (e.window32 s l)
      (packWords bits r.2.outs regs ++ [BitVec.ofNat 32 r.1], r.2))))
    {s : State} {o : Operands} {c : Cur} {w : Warp} (h : Issuing s (mk o) c w) :
    ∃ t, exec (mk o) s = .next t ∧ Converts s t (mk o) c w (regs + 1) (fun l gen ws fl gen' =>
      let xs := (operandWords s w c.lanes l 32 false o.a).map (fun v => fmtF32.decode v.toNat)
      let r := conv (s.env (mk o) c w).cvtMode (o.modBit 3) gen xs
      ws = packWords bits r.2.outs regs ++ [BitVec.ofNat 32 r.1] ∧ fl = r.2.fl ∧ gen' = r.2.gen) := by
  refine ⟨_, by rw [he, issue_next h], h.converts _ _ _ (fun l gen => ?_) (fun l _ gen => ?_)⟩
  · simp [length_packWords]
  · simp only [Env.window32_advance, State.env_o, ho]
    exact ⟨trivial, trivial, trivial⟩

theorem cvtUnmx_converts : GivesConversion .cvtUnmx 1 (Nat × List Word)
    (fun s o c w l => [((s.sources o c w l).b.toNat % 32, operandWords s w c.lanes l 9 false o.a)]) (fun o => cvtS o == 0)
    (fun o mode rnd x => unmxWord (cvtS o) x.1 mode (o.modBit 3) rnd x.2) (fun _ _ xs => [BitVec.ofNat 32 (xs.getD 0 0)]) := by
  refine givesConversion_word
    (fun e s l gen => cvtAll (e.cvtMode == rmSr && cvtS e.o == 0)
      (fun rnd k => unmxWord (cvtS e.o) k e.cvtMode (e.o.modBit 3) rnd (e.words s 9 false e.o.a l)) gen [(e.b s l).toNat % 32])
    (fun _ _ => rfl) (fun s o c w l gen => ?_)
  rw [Env.b_advance, Env.words_advance]
  rfl

/-- A channel of packed colour, and whether an infinite one becomes the largest finite value (assumption log 24). -/
theorem unrgbChannel_eq (f : Fmt) (v : Nat) (sat : Bool) : unrgbChannel f v sat =
    if sat = true ∧ (f.decode v = .inf true ∨ f.decode v = .inf false) then
      ⟨if (f.decode v).neg then 0xFF7FFFFF else 0x7F7FFFFF, fST⟩
    else ⟨f.widen v, 0⟩ := by
  unfold unrgbChannel Fmt.widen
  cases f.decode v with
  | nan _ => simp
  | fin _ _ _ => simp
  | inf n => cases sat <;> cases n <;> rfl

/-- The field of a word that a channel number names (R46). -/
def colourField (o : Operands) (b : Nat) : Fmt × Nat :=
  match cvtEl o with
  | 0 => (fmtColour6, b % 2 ^ 11)
  | 1 => (fmtColour6, b / 2 ^ 11 % 2 ^ 11)
  | _ => (fmtColour5, b / 2 ^ 22)

/-- What `cvt.unrgb` writes in a lane. -/
def unrgbLane (e : Env) (s : State) (l : Nat) (gen : Word) : List Word × CvtAcc :=
  let r := cvtAll false (fun _ (x : Fmt × Nat) => unrgbChannel x.1 x.2 (e.o.modBit 3)) gen [colourField e.o (e.b s l).toNat]
  ([putFields 0 32 0 r.outs], r)

theorem unrgbLane_eq (e : Env) (s : State) (l : Nat) (gen : Word) : unrgbLane e s l gen =
    let x := colourField e.o (e.b s l).toNat
    let r := unrgbChannel x.1 x.2 (e.o.modBit 3)
    ([BitVec.ofNat 32 r.bits], { gen := gen, fl := r.fl, outs := [r.bits] }) := by
  refine Prod.ext (congrArg (fun v => [v]) (putFields_word _)) ?_
  simp [unrgbLane, cvtAll, CvtAcc.step]

theorem cvtUnrgb_gives : Gives .cvtUnrgb (fun _ => 1) (fun s o c w l ws fl =>
    let x := colourField o (s.sources o c w l).b.toNat
    if o.modBit 3 = true ∧ (x.1.decode x.2 = .inf true ∨ x.1.decode x.2 = .inf false) then
      fl = fST ∧ ws = [if (x.1.decode x.2).neg then 0xFF7FFFFF else 0x7F7FFFFF]
    else fl = 0 ∧ ws = [BitVec.ofNat 32 (x.1.widen x.2)]) := by
  intro s o c w h
  have run : exec (.cvtUnrgb o) s = issue (.cvtUnrgb o) s (fun e s => s.perCvt e (unrgbLane e s)) := rfl
  refine ⟨_, by rw [run, issue_next h], (h.converts _ _ _ (fun _ _ => Nat.le_refl 1) (fun l _ gen => ⟨rfl, ?_⟩)).writes⟩
  simp only [unrgbLane_eq, State.env_o, Env.b_advance, show (Instr.cvtUnrgb o).operands = o from rfl, unrgbChannel_eq]
  split
  · refine ⟨rfl, ?_⟩
    split <;> rfl
  · exact ⟨rfl, rfl⟩

/-- Settles O12: `block_converts` for the windows of 32, `cvtUnmx_converts` for elements of blocks and `unrgbChannel_eq` for the
channels of packed colour. -/
theorem blockConversionResults : Obligations.BlockConversionResults := by
  unfold Obligations.BlockConversionResults
  refine ⟨?_, ?_, ?_, cvtUnmx_converts, cvtUnrgb_gives⟩
  · exact fun s o c w h => block_converts (fun _ => rfl) 4 4 mxBlock (fun _ _ => rfl) h
  · exact fun s o c w h => block_converts (fun _ => rfl) 8 8 (mxiBlock 127) (fun _ _ => rfl) h
  · exact fun s o c w h => block_converts (fun _ => rfl) 4 4 (mxiBlock 7) (fun _ _ => rfl) h

end Sys2Proof.Machine

namespace Sys2Proof.Machine

/-! ## One word from the operand words of a lane (R92) -/

/-- The operand words of a lane as an instruction reads them after its advance. -/
def Env.sources (e : Env) (s : State) (l : Nat) : Sources := ⟨e.a s l, e.b s l, e.cc s l, e.d s l⟩

/-- They are those at issue. -/
theorem Env.sources_advance (s : State) (i : Instr) (c : Cur) (w : Warp) (l : Nat) :
    (s.env i c w).sources (s.advance c) l = s.sources i.operands c w l := by
  rw [Env.sources, Env.a_advance, Env.b_advance, Env.cc_advance, Env.d_advance]

/-- An instruction that writes one word, which its fields and operand words determine. -/
theorem givesWord_of_word {mk : Operands → Instr} {f : Operands → Sources → Word} (g : Operands → Sources → Word)
    (he : ∀ o s, exec (mk o) s = issue (mk o) s (fun e s => s.perWord e (fun l => g e.o (e.sources s l))))
    (ho : ∀ o, (mk o).operands = o) (hg : ∀ o x, g o x = f o x) : GivesWord mk f :=
  givesWord_perWord (fun e s l => g e.o (e.sources s l)) he ho
    (fun s o c w l => by rw [Env.sources_advance, State.env_o, ho, hg])

/-- An instruction that writes one word, which a relation describes. -/
theorem givesRel_of_word {mk : Operands → Instr} {R : Operands → Sources → Word → BitVec 6 → Prop}
    (g : Operands → Sources → Word)
    (he : ∀ o s, exec (mk o) s = issue (mk o) s (fun e s => s.perWord e (fun l => g e.o (e.sources s l))))
    (ho : ∀ o, (mk o).operands = o) (hR : ∀ o x, R o x (g o x) 0) : GivesRel mk R :=
  givesRel_perLane (fun o x => (g o x, 0)) he ho hR

/-! ## Bits of words -/

/-- A bit of a number made of positions. -/
theorem testBit_maskOf (ls : List Nat) (i : Nat) : (maskOf ls).testBit i = decide (i ∈ ls) := by
  have fold (ls : List Nat) (m : Nat) :
      (ls.foldl (fun m l => m ||| 2 ^ l) m).testBit i = (m.testBit i || decide (i ∈ ls)) := by
    induction ls generalizing m with
    | nil => simp
    | cons l ls ih =>
      rw [List.foldl_cons, ih, Nat.testBit_or, Nat.testBit_two_pow, Bool.or_assoc]
      simp [eq_comm]
  rw [maskOf, fold, Nat.zero_testBit, Bool.false_or]

/-- A position of a word is among its bits that are set. -/
theorem mem_bitsSet {b : Word} {i : Nat} (hi : i < 32) : i ∈ bitsSet b.toNat 32 ↔ b.getLsbD i = true := by
  simp [bitsSet, hi, BitVec.getLsbD, Nat.testBit_eq_decide_div_mod_eq]

/-- A word with one bit set. -/
theorem getLsbD_bit (k : Nat) {i : Nat} (hi : i < 32) : (BitVec.ofNat 32 (2 ^ k)).getLsbD i = decide (i = k) := by
  rw [BitVec.getLsbD_ofNat, Nat.testBit_two_pow, decide_eq_true hi, Bool.true_and]
  exact decide_eq_decide.mpr eq_comm

/-- One bit replaced, the others kept (R101). -/
theorem getLsbD_setBit (w : Word) (k : Nat) (v : Bool) {i : Nat} (hi : i < 32) :
    (setBit w k v).getLsbD i = if i = k then v else w.getLsbD i := by
  cases v
  · simp only [setBit, Bool.false_eq_true, if_false, BitVec.getLsbD_and, BitVec.getLsbD_not, getLsbD_bit k hi, hi]
    by_cases h : i = k
    · simp [h]
    · simp [h]
  · simp only [setBit, if_true, BitVec.getLsbD_or, getLsbD_bit k hi]
    by_cases h : i = k
    · simp [h]
    · simp [h]

theorem popCount_eq (b : Word) : popCount b = (List.range 32).countP (fun i => b.getLsbD i) := by
  rw [popCount, List.countP_eq_length_filter, bitsSet]
  congr 1
  refine List.filter_congr fun i _ => ?_
  rw [BitVec.getLsbD, Nat.testBit_eq_decide_div_mod_eq, beq_eq_decide]

/-- The leading bit of a word that is not 0 is the one that the number of leading zeros leaves (Table 4.3). -/
theorem clzWord_spec (b : Word) : (clzWord b).toNat ≤ 32 ∧ b.toNat < 2 ^ (32 - (clzWord b).toNat) ∧
    (b = 0 → clzWord b = 32) ∧ (b ≠ 0 → 2 ^ (31 - (clzWord b).toNat) ≤ b.toNat ∧ (clzWord b).toNat < 32) := by
  by_cases h : b = 0
  · subst h
    exact ⟨by decide, by decide, fun _ => by decide, fun g => absurd rfl g⟩
  · have pos : b.toNat ≠ 0 := fun g => h (BitVec.eq_of_toNat_eq g)
    have top : Nat.log2 b.toNat < 32 := (Nat.log2_lt pos).mpr b.isLt
    have value : (clzWord b).toNat = 31 - Nat.log2 b.toNat := by
      simp only [clzWord, beq_iff_eq, h, if_false, BitVec.toNat_ofNat]
      omega
    rw [value, show 32 - (31 - Nat.log2 b.toNat) = Nat.log2 b.toNat + 1 by omega,
      show 31 - (31 - Nat.log2 b.toNat) = Nat.log2 b.toNat by omega]
    exact ⟨by omega, Nat.lt_log2_self, fun g => absurd g h, fun _ => ⟨Nat.log2_self_le pos, by omega⟩⟩

/-- Bit i of the reversed word is bit 31 - i. -/
theorem getLsbD_brevWord (b : Word) {i : Nat} (hi : i < 32) : (brevWord b).getLsbD i = b.getLsbD (31 - i) := by
  rw [brevWord, BitVec.getLsbD_ofNat, testBit_maskOf, Bool.eq_iff_iff, ← mem_bitsSet (by omega)]
  simp only [hi, decide_true, Bool.true_and, decide_eq_true_eq, List.mem_map]
  constructor
  · rintro ⟨k, hk, rfl⟩
    have : k < 32 := by simpa [bitsSet] using (List.mem_filter.mp hk).1
    rwa [show 31 - (31 - k) = k by omega]
  · exact fun h => ⟨31 - i, h, by omega⟩

/-- Settles O1: every instruction writes one word of its operand words, and the lemmas about `setBit`, `popCount`, `clzWord` and
`brevWord` say which. -/
theorem integerLogicResults : Obligations.IntegerLogicResults := by
  unfold Obligations.IntegerLogicResults
  refine ⟨⟨?_, ?_, ?_, ?_, ?_, ?_, ?_, ?_, ?_⟩, ⟨?_, ?_, ?_⟩, ?_, ?_, ?_, ?_⟩
  · exact givesWord_of_word (fun _ x => x.a &&& x.b) (fun _ _ => rfl) (fun _ => rfl) (fun _ _ => rfl)
  · exact givesWord_of_word (fun _ x => x.a ||| x.b) (fun _ _ => rfl) (fun _ => rfl) (fun _ _ => rfl)
  · exact givesWord_of_word (fun _ x => x.a ^^^ x.b) (fun _ _ => rfl) (fun _ => rfl) (fun _ _ => rfl)
  · exact givesWord_of_word (fun _ x => x.a &&& ~~~x.b) (fun _ _ => rfl) (fun _ => rfl) (fun _ _ => rfl)
  · exact givesWord_of_word (fun _ x => x.a ||| ~~~x.b) (fun _ _ => rfl) (fun _ => rfl) (fun _ _ => rfl)
  · exact givesWord_of_word (fun _ x => x.b) (fun _ _ => rfl) (fun _ => rfl) (fun _ _ => rfl)
  · exact givesWord_of_word (fun o x => if x.c.getLsbD (bitsOf o.xm 10 5) then x.a else x.b) (fun _ _ => rfl) (fun _ => rfl) (fun _ _ => rfl)
  · exact givesWord_of_word (fun _ x => setBit x.a (x.b.toNat % 32) true) (fun _ _ => rfl) (fun _ => rfl) (fun _ _ => rfl)
  · exact givesWord_of_word (fun _ x => setBit x.a (x.b.toNat % 32) false) (fun _ _ => rfl) (fun _ => rfl) (fun _ _ => rfl)
  · exact givesWord_of_word (fun _ x => BitVec.ofNat 32 (popCount x.b)) (fun _ _ => rfl) (fun _ => rfl)
      (fun _ x => by rw [popCount_eq])
  · exact givesRel_of_word (fun _ x => clzWord x.b) (fun _ _ => rfl) (fun _ => rfl) (fun _ x => ⟨rfl, clzWord_spec x.b⟩)
  · exact givesRel_of_word (fun _ x => brevWord x.b) (fun _ _ => rfl) (fun _ => rfl)
      (fun _ x => ⟨rfl, fun i hi => getLsbD_brevWord x.b hi⟩)
  · exact givesWord_of_word (fun o x => if intOf (o.modBit 0) x.b < intOf (o.modBit 0) x.a then x.b else x.a) (fun _ _ => rfl)
      (fun _ => rfl) (fun _ _ => by simp only [← not_le, ite_not])
  · exact givesWord_of_word (fun o x => if intOf (o.modBit 0) x.a < intOf (o.modBit 0) x.b then x.b else x.a) (fun _ _ => rfl)
      (fun _ => rfl) (fun _ _ => by simp only [← not_le, ite_not])
  · exact givesRel_of_word (fun o x => setBit x.d (bitsOf o.xm 0 5)
      (icond (o.mods 0 3) (intOf (o.modBit 3) x.a) (intOf (o.modBit 3) x.b))) (fun _ _ => rfl) (fun _ => rfl)
      (fun _ _ => ⟨rfl, fun i hi => getLsbD_setBit _ _ _ hi⟩)
  · exact givesWord_of_word (fun o x => BitVec.ofInt 32 (intOf (o.modBit 0) x.a * intOf (o.modBit 0) x.b / 2 ^ 32)) (fun _ _ => rfl)
      (fun _ => rfl) (fun _ _ => by rw [Int.fdiv_eq_ediv_of_nonneg _ (by decide)])

/-! ## Arithmetic with .sat (R99) -/

/-- An exact result as `narrow` writes it is that of R99. -/
theorem satResult_narrow (n sat : Bool) (r : Int) : ∃ v, (narrow n sat r).1 = [v] ∧ SatResult n sat r v (narrow n sat r).2 := by
  have least : satMin n = if n then 0 else -(2 ^ 31) := rfl
  have greatest : satMax n = if n then 2 ^ 32 - 1 else 2 ^ 31 - 1 := rfl
  simp only [SatResult, narrow, ← least, ← greatest, Bool.and_eq_true, decide_eq_true_eq]
  by_cases low : sat = true ∧ r < satMin n
  · simp only [if_pos low]
    exact ⟨_, rfl, rfl, trivial⟩
  · by_cases high : sat = true ∧ satMax n < r
    · simp only [if_neg low, if_pos high]
      exact ⟨_, rfl, rfl, trivial⟩
    · simp only [if_neg low, if_neg high]
      exact ⟨_, rfl, rfl, trivial⟩

/-- An instruction that writes an exact result by R99. -/
theorem givesRel_of_narrow {mk : Operands → Instr} (n : Operands → Bool) (f : Operands → Sources → Int)
    (he : ∀ o s, exec (mk o) s = issue (mk o) s (fun e s => s.perLane e (fun l =>
      narrow (n e.o) (e.o.modBit 1) (f e.o (e.sources s l)))))
    (ho : ∀ o, (mk o).operands = o) : GivesRel mk (fun o x v fl => SatResult (n o) (o.modBit 1) (f o x) v fl) := by
  have one (o : Operands) (x : Sources) : (narrow (n o) (o.modBit 1) (f o x)).1.length ≤ 1 := by
    obtain ⟨v, e, -⟩ := satResult_narrow (n o) (o.modBit 1) (f o x)
    rw [e]
    exact Nat.le_refl 1
  refine gives_perLane _ he (fun e s l _ => one _ _) ho (fun s o c w _ l _ => ?_)
  rw [Env.sources_advance, State.env_o, ho]
  exact satResult_narrow _ _ _

/-- Settles O2: each instruction writes an exact result by `narrow`. -/
theorem saturatingArithmetic : Obligations.SaturatingArithmetic :=
  ⟨givesRel_of_narrow (·.modBit 0) (fun o x => intOf (o.modBit 0) x.a + intOf (o.modBit 0) x.b) (fun _ _ => rfl) (fun _ => rfl),
    givesRel_of_narrow (·.modBit 0) (fun o x => intOf (o.modBit 0) x.a - intOf (o.modBit 0) x.b) (fun _ _ => rfl) (fun _ => rfl),
    givesRel_of_narrow (·.modBit 0) (fun o x => intOf (o.modBit 0) x.a * intOf (o.modBit 0) x.b) (fun _ _ => rfl) (fun _ => rfl),
    givesRel_of_narrow (·.modBit 0) (fun o x => intOf (o.modBit 0) x.a * intOf (o.modBit 0) x.b + intOf (o.modBit 0) x.c)
      (fun _ _ => rfl) (fun _ => rfl),
    givesRel_of_narrow (fun _ => false) (fun _ x => (x.b.toInt.natAbs : Int)) (fun _ _ => rfl) (fun _ => rfl)⟩

end Sys2Proof.Machine

namespace Sys2Proof.Machine

/-! ## Wide words and division (R100, R102, R108) -/

/-- Two words hold a number modulo 2^64. -/
theorem pair_ofInt (v : Int) :
    (((BitVec.ofInt 32 v).toNat + 2 ^ 32 * (BitVec.ofInt 32 (v / 2 ^ 32)).toNat : Nat) : Int) = v % 2 ^ 64 := by
  simp only [BitVec.toNat_ofInt]
  omega

theorem vaOf_lt (ws : List Word) : vaOf ws < 2 ^ 72 := by
  have := (ws.getD 0 0).isLt
  have := (ws.getD 1 0).isLt
  simp only [vaOf]
  omega

/-- The triple of a number of 72 bits (R23). -/
theorem isTriple_vaWords {n : Nat} (h : n < 2 ^ 72) : IsTriple (vaWords n) n := by
  refine ⟨_, _, _, rfl, ?_, ?_⟩
  · simp only [BitVec.toNat_ofNat]
    omega
  · simp only [BitVec.toNat_ofNat]
    omega

@[simp] theorem ofInt_intOf (n : Bool) (w : Word) : BitVec.ofInt 32 (intOf n w) = w := by
  cases n
  · exact BitVec.ofInt_toInt
  · exact (BitVec.ofInt_natCast 32 _).trans ((BitVec.ofNat_toNat 32 w).trans (BitVec.setWidth_eq w))

/-- The quotient rounded toward zero is the division of words (R102). -/
theorem idivWord_eq (n : Bool) (a b : Word) :
    idivWord n a b = if b = 0 then 0xFFFFFFFF else if n then a / b else BitVec.sdiv a b := by
  simp only [idivWord, beq_iff_eq]
  by_cases zero : b = 0
  · rw [if_pos zero, if_pos zero]
  · rw [if_neg zero, if_neg zero]
    cases n
    · refine BitVec.eq_of_toInt_eq ?_
      rw [BitVec.toInt_ofInt, if_neg Bool.false_ne_true, BitVec.toInt_sdiv]
      rfl
    · refine BitVec.eq_of_toNat_eq ?_
      have le : a.toNat / b.toNat < 2 ^ 32 := (Nat.div_le_self _ _).trans_lt a.isLt
      simp only [intOf, if_true, ← Int.ofNat_tdiv, BitVec.ofInt_natCast, BitVec.toNat_ofNat, BitVec.toNat_udiv]
      exact Nat.mod_eq_of_lt le

/-- The remainder is the dividend minus the divisor times the quotient. -/
theorem iremWord_eq_sub {b : Word} (h : b ≠ 0) (n : Bool) (a : Word) : iremWord n a b = a - b * idivWord n a b := by
  simp only [iremWord, idivWord, beq_iff_eq, h, if_false, Int.sub_eq_add_neg, BitVec.ofInt_add, BitVec.ofInt_neg, BitVec.ofInt_mul,
    ofInt_intOf, BitVec.sub_eq_add_neg]

theorem iremWord_eq (n : Bool) (a b : Word) : iremWord n a b = if b = 0 then a else if n then a % b else BitVec.srem a b := by
  simp only [iremWord, beq_iff_eq]
  by_cases zero : b = 0
  · rw [if_pos zero, if_pos zero]
  · have rest : intOf n a - intOf n b * (intOf n a).tdiv (intOf n b) = (intOf n a).tmod (intOf n b) := by
      have := Int.mul_tdiv_add_tmod (intOf n a) (intOf n b)
      linarith
    rw [if_neg zero, if_neg zero, rest]
    cases n
    · rw [if_neg Bool.false_ne_true, ← BitVec.ofInt_toInt (x := a.srem b), BitVec.toInt_srem]
      rfl
    · refine BitVec.eq_of_toNat_eq ?_
      have lt : a.toNat % b.toNat < 2 ^ 32 := (Nat.mod_le _ _).trans_lt a.isLt
      simp only [intOf, if_true, ← Int.ofNat_tmod, BitVec.ofInt_natCast, BitVec.toNat_ofNat, BitVec.toNat_umod]
      exact Nat.mod_eq_of_lt lt

/-- The sum of three words, of which the third counts its lowest bit, modulo 2^32 (R100). -/
theorem ofNat_sum_bit (a b c : Word) : BitVec.ofNat 32 (a.toNat + b.toNat + c.toNat % 2) = a + b + (c &&& 1) := by
  refine BitVec.eq_of_toNat_eq ?_
  have one : (1 : Word).toNat = 1 := rfl
  rw [BitVec.toNat_add, BitVec.toNat_add, BitVec.toNat_and, one, Nat.and_one_is_mod, BitVec.toNat_ofNat]
  omega

theorem imadw_gives : Gives .imadw (fun _ => 2) (fun s o c w l ws fl => fl = 0 ∧
    ∃ lo hi : Word, ws = [lo, hi] ∧
      ((lo.toNat + 2 ^ 32 * hi.toNat : Nat) : Int) =
        (intOf (o.modBit 0) (s.sources o c w l).a * intOf (o.modBit 0) (s.sources o c w l).b +
          (((operandWords s w c.lanes l 2 (!o.modBit 0) o.c).getD 0 0).toNat : Int) +
          2 ^ 32 * (((operandWords s w c.lanes l 2 (!o.modBit 0) o.c).getD 1 0).toNat : Int)) % 2 ^ 64) := by
  refine gives_perLane (fun e s l =>
    let c := e.words s 2 (!e.o.modBit 0) e.o.c l
    let v := intOf (e.o.modBit 0) (e.a s l) * intOf (e.o.modBit 0) (e.b s l) + ((c.getD 0 0).toNat + (c.getD 1 0).toNat * 2 ^ 32 : Nat)
    ([BitVec.ofInt 32 v, BitVec.ofInt 32 (v / 2 ^ 32)], 0))
    (fun _ _ => rfl) (fun _ _ _ _ => Nat.le_refl 2) (fun _ => rfl) (fun s o c w _ l _ => ⟨rfl, _, _, rfl, ?_⟩)
  rw [pair_ofInt, Env.words_advance, Env.a_advance, Env.b_advance, State.env_o, show (Instr.imadw o).operands = o from rfl]
  congr 1
  push_cast
  ring

/-- An instruction that writes a triple (R108). -/
theorem gives_triple {mk : Operands → Instr} {v : State → Operands → Cur → Warp → Nat → Int} (g : Env → State → Nat → Nat)
    (he : ∀ o s, exec (mk o) s = issue (mk o) s (fun e s => s.perLane e (fun l => (vaWords (g e s l), 0))))
    (ho : ∀ o, (mk o).operands = o)
    (hg : ∀ (s : State) (o : Operands) (c : Cur) (w : Warp) (l : Nat), g (s.env (mk o) c w) (s.advance c) l < 2 ^ 72 ∧
      (g (s.env (mk o) c w) (s.advance c) l : Int) = v s o c w l) :
    Gives mk (fun _ => 3) (fun s o c w l ws fl => fl = 0 ∧ IsTriple ws (v s o c w l)) :=
  gives_perLane (fun e s l => (vaWords (g e s l), 0)) he (fun _ _ _ _ => Nat.le_refl 3) ho
    (fun s o c w _ l _ => ⟨rfl, (hg s o c w l).2 ▸ isTriple_vaWords (hg s o c w l).1⟩)

theorem vaAdd_gives : Gives .vaAdd (fun _ => 3) (fun s o c w l ws fl => fl = 0 ∧ IsTriple ws
    (((vaOf (operandWords s w c.lanes l 3 (!o.modBit 0) o.a) : Int) + intOf (o.modBit 0) (s.sources o c w l).b) % 2 ^ 72)) := by
  refine gives_triple (fun e s l => (vaOf (e.words s 3 (!e.o.modBit 0) e.o.a l) + (intOf (e.o.modBit 0) (e.b s l) % 2 ^ 72).toNat) % 2 ^ 72)
    (fun o s => by change execVaAdd o s = _; unfold execVaAdd; rfl) (fun _ => rfl) (fun s o c w l => ⟨Nat.mod_lt _ (by decide), ?_⟩)
  rw [Env.words_advance, Env.b_advance, State.env_o, show (Instr.vaAdd o).operands = o from rfl]
  omega

theorem vaSub_gives : Gives .vaSub (fun _ => 3) (fun s o c w l ws fl => fl = 0 ∧ IsTriple ws
    (((vaOf (operandWords s w c.lanes l 3 true o.a) : Int) - vaOf (operandWords s w c.lanes l 3 true o.b)) % 2 ^ 72)) := by
  refine gives_triple (fun e s l => (vaOf (e.words s 3 true e.o.a l) + 2 ^ 72 - vaOf (e.words s 3 true e.o.b l)) % 2 ^ 72)
    (fun _ _ => rfl) (fun _ => rfl) (fun s o c w l => ⟨Nat.mod_lt _ (by decide), ?_⟩)
  have lt := vaOf_lt (operandWords s w c.lanes l 3 true o.b)
  rw [Env.words_advance, Env.words_advance, State.env_o, show (Instr.vaSub o).operands = o from rfl]
  omega

theorem vaMov_gives : Gives .vaMov (fun _ => 3) (fun s o c w l ws fl => fl = 0 ∧
    IsTriple ws (vaOf (operandWords s w c.lanes l 3 true o.b))) :=
  gives_triple (fun e s l => vaOf (e.words s 3 true e.o.b l)) (fun _ _ => rfl) (fun _ => rfl)
    (fun s o c w l => by rw [Env.words_advance]; exact ⟨vaOf_lt _, rfl⟩)

theorem vaCmp_gives : Gives .vaCmp (fun _ => 1) (fun s o c w l ws fl => fl = 0 ∧ ∃ v : Word, ws = [v] ∧ ∀ i < 32, v.getLsbD i =
    if i = bitsOf o.xm 0 5 then
      icond (o.mods 0 3) (vaOf (operandWords s w c.lanes l 3 true o.a)) (vaOf (operandWords s w c.lanes l 3 true o.b))
    else (s.sources o c w l).d.getLsbD i) := by
  refine gives_perLane (fun e s l => ([setBit (e.d s l) (bitsOf e.o.xm 0 5)
    (icond (e.o.mods 0 3) (vaOf (e.words s 3 true e.o.a l)) (vaOf (e.words s 3 true e.o.b l)))], 0))
    (fun _ _ => rfl) (fun _ _ _ _ => Nat.le_refl 1) (fun _ => rfl) (fun s o c w _ l _ => ⟨rfl, _, rfl, fun i hi => ?_⟩)
  rw [getLsbD_setBit _ _ _ hi, Env.words_advance, Env.words_advance, Env.d_advance]
  rfl

/-- Settles O3: pairs by `pair_ofInt`, triples by `isTriple_vaWords`, and the words of idiv and irem by `idivWord_eq` and
`iremWord_eq`. -/
theorem wideArithmeticAndDivision : Obligations.WideArithmeticAndDivision := by
  unfold Obligations.WideArithmeticAndDivision
  refine ⟨⟨imadw_gives, ?_⟩, ⟨?_, ?_, by decide, by decide, fun n a b h => ?_⟩, vaAdd_gives, vaSub_gives, vaMov_gives, vaCmp_gives⟩
  · refine givesWord_of_word (fun o x =>
      let t := x.a.toNat + x.b.toNat + x.c.toNat % 2
      BitVec.ofNat 32 (if o.modBit 2 then t / 2 ^ 32 else t)) (fun _ _ => rfl) (fun _ => rfl) (fun o x => ?_)
    dsimp only
    split
    · rfl
    · exact ofNat_sum_bit x.a x.b x.c
  · exact givesWord_of_word (fun o x => idivWord (o.modBit 0) x.a x.b) (fun _ _ => rfl) (fun _ => rfl) (fun _ _ => idivWord_eq _ _ _)
  · exact givesWord_of_word (fun o x => iremWord (o.modBit 0) x.a x.b) (fun _ _ => rfl) (fun _ => rfl) (fun _ _ => iremWord_eq _ _ _)
  · have rest := iremWord_eq_sub h n a
    rwa [iremWord_eq, idivWord_eq, if_neg h, if_neg h] at rest

/-! ## Bits of integers -/

/-- Bit i of an integer in two's complement. -/
def intBit (z : Int) (i : Nat) : Bool := z / 2 ^ i % 2 == 1

/-- Bits below w depend on an integer modulo 2^w alone. -/
theorem intBit_add_mul (z q : Int) {w i : Nat} (hi : i < w) : intBit (z + 2 ^ w * q) i = intBit z i := by
  obtain ⟨k, rfl⟩ : ∃ k, w = i + 1 + k := ⟨w - (i + 1), by omega⟩
  have : z + 2 ^ (i + 1 + k) * q = z + 2 ^ i * (2 * (2 ^ k * q)) := by ring
  rw [intBit, this, Int.add_mul_ediv_left _ _ (by positivity), Int.add_mul_emod_self_left, intBit]

theorem intBit_emod (z : Int) {w i : Nat} (hi : i < w) : intBit (z % 2 ^ w) i = intBit z i := by
  conv_rhs => rw [← Int.emod_add_mul_ediv z (2 ^ w)]
  exact (intBit_add_mul _ _ hi).symm

theorem intBit_natCast (n i : Nat) : intBit n i = n.testBit i := by
  rw [intBit, Nat.testBit_eq_decide_div_mod_eq, beq_eq_decide]
  exact decide_eq_decide.mpr (by exact_mod_cast Iff.rfl)

/-- Bit p + i of an integer is bit i of what a shift by p leaves. -/
theorem intBit_ediv (z : Int) (p i : Nat) : intBit (z / (2 ^ p : Nat)) i = intBit z (p + i) := by
  rw [intBit, intBit, pow_add, ← Int.ediv_ediv_of_nonneg (by positivity)]
  push_cast
  rfl

theorem getLsbD_ofInt {n : Nat} (z : Int) {i : Nat} (hi : i < n) : (BitVec.ofInt n z).getLsbD i = intBit z i := by
  have nonneg : 0 ≤ z % (2 ^ n : Nat) := Int.emod_nonneg _ (by positivity)
  rw [BitVec.getLsbD, BitVec.toNat_ofInt, ← intBit_natCast, Int.toNat_of_nonneg nonneg]
  push_cast
  exact intBit_emod z hi

theorem intBit_toInt (a : Word) (p : Nat) : intBit a.toInt p = if p < 32 then a.getLsbD p else a.getLsbD 31 := by
  have := BitVec.getLsbD_signExtend a (v := p + 1) (i := p)
  rw [BitVec.signExtend, getLsbD_ofInt _ (Nat.lt_succ_self p)] at this
  simpa [BitVec.msb_eq_getLsbD_last] using this

/-- From the width on, a number of w bits has no bit, and 2^w less has them all. -/
theorem intBit_of_width_le {f : Int} {w i : Nat} (h0 : 0 ≤ f) (hf : f < 2 ^ w) (hi : w ≤ i) :
    intBit f i = false ∧ intBit (f - 2 ^ w) i = true := by
  have pow : (2 : Int) ^ w ≤ 2 ^ i := pow_le_pow_right₀ (by decide) hi
  have below : f / 2 ^ i = 0 := Int.ediv_eq_zero_of_lt h0 (hf.trans_le pow)
  have above : (f - 2 ^ w) / 2 ^ i = -1 := Int.ediv_eq_neg_one_of_neg_of_le (by omega) (by omega)
  simp [intBit, below, above]

/-- A number of w bits has its top bit from half of its range on. -/
theorem intBit_top {f : Int} {w : Nat} (hw : w ≠ 0) (h0 : 0 ≤ f) (hf : f < 2 ^ w) :
    intBit f (w - 1) = decide (((2 ^ (w - 1) : Nat) : Int) ≤ f) := by
  obtain ⟨k, rfl⟩ := Nat.exists_eq_succ_of_ne_zero hw
  have double : (2 : Int) ^ k.succ = 2 * 2 ^ k := pow_succ' 2 k
  have pos : (0 : Int) < 2 ^ k := by positivity
  rw [intBit, beq_eq_decide]
  simp only [Nat.cast_pow, Nat.cast_ofNat, Nat.succ_sub_one]
  by_cases h : (2 : Int) ^ k ≤ f
  · have one : f / 2 ^ k = 1 := (Int.ediv_eq_iff_of_pos pos).mpr ⟨by omega, by omega⟩
    simp [one, h]
  · have zero : f / 2 ^ k = 0 := Int.ediv_eq_zero_of_lt h0 (not_le.mp h)
    simp [zero, h]

/-! ## Shifts, rotates and bit fields (R104 to R107) -/

/-- A bit of a number extended by its sign, or by 0. -/
def extBit (signed : Bool) (a : Word) (p : Nat) : Bool := if p < 32 then a.getLsbD p else signed && a.getLsbD 31

theorem intBit_ext (signed : Bool) (a : Word) (p : Nat) :
    intBit (if signed then a.toInt else (a.toNat : Int)) p = extBit signed a p := by
  cases signed
  · rw [if_neg Bool.false_ne_true, intBit_natCast, ← BitVec.getLsbD, extBit]
    split
    · rfl
    · exact BitVec.getLsbD_of_ge a p (by omega)
  · rw [if_pos rfl, intBit_toInt, extBit, Bool.true_and]

/-- The bits of bfx: those of the field, and above it 0 or its top bit (R107). -/
theorem getLsbD_bfxWord (signed : Bool) (a b : Word) {i : Nat} (hi : i < 32) : (bfxWord signed a b).getLsbD i =
    if i < fieldWidth b then extBit signed a (fieldPos b + i)
    else signed && fieldWidth b != 0 && extBit signed a (fieldPos b + (fieldWidth b - 1)) := by
  have bits (k : Nat) : intBit ((if signed then a.toInt else (a.toNat : Int)) / (2 ^ fieldPos b : Nat)) k =
      extBit signed a (fieldPos b + k) := by rw [intBit_ediv, intBit_ext]
  simp only [bfxWord, ← bits]
  generalize (if signed then a.toInt else (a.toNat : Int)) / (2 ^ fieldPos b : Nat) = v
  generalize fieldWidth b = w
  by_cases zero : w = 0
  · simp [zero]
  · have f0 : 0 ≤ v % (2 ^ w : Nat) := Int.emod_nonneg _ (by positivity)
    have f1 : v % (2 ^ w : Nat) < 2 ^ w := by exact_mod_cast Int.emod_lt_of_pos v (by positivity)
    have field {k : Nat} (hk : k < w) : intBit (v % (2 ^ w : Nat)) k = intBit v k := by
      push_cast
      exact intBit_emod v hk
    have top := intBit_top zero f0 f1
    rw [field (by omega)] at top
    simp only [beq_iff_eq, zero, if_false, ← top, (bne_iff_ne (a := w) (b := 0)).mpr zero, Bool.and_true]
    generalize v % (2 ^ w : Nat) = f at *
    by_cases inside : i < w
    · have same : intBit (f - (2 ^ w : Nat)) i = intBit f i := by
        have := intBit_add_mul f (-1) inside
        rw [← this]
        congr 1
        push_cast
        ring
      rw [if_pos inside, ← field inside]
      split
      · rw [getLsbD_ofInt _ hi, same]
      · rw [getLsbD_ofInt _ hi]
    · obtain ⟨below, above⟩ := intBit_of_width_le f0 f1 (not_lt.mp inside)
      rw [if_neg inside]
      split
      · next negative =>
        rw [getLsbD_ofInt _ hi, negative]
        push_cast
        exact above
      · next positive =>
        rw [getLsbD_ofInt _ hi, below, Bool.eq_false_of_not_eq_true positive]

/-- The bits of bfi: those of the field come from a (R107). -/
theorem getLsbD_bfiWord (a b c : Word) {i : Nat} (hi : i < 32) : (bfiWord a b c).getLsbD i =
    if fieldPos b ≤ i ∧ i < fieldPos b + fieldWidth b then a.getLsbD (i - fieldPos b) else c.getLsbD i := by
  have mask : (BitVec.ofNat 32 ((2 ^ fieldWidth b - 1) * 2 ^ fieldPos b)).getLsbD i =
      decide (fieldPos b ≤ i ∧ i < fieldPos b + fieldWidth b) := by
    rw [BitVec.getLsbD_ofNat, Nat.testBit_mul_two_pow, Nat.testBit_two_pow_sub_one, Bool.eq_iff_iff]
    simp only [Bool.and_eq_true, decide_eq_true_eq, hi, true_and]
    omega
  have value : (BitVec.ofNat 32 (a.toNat * 2 ^ fieldPos b)).getLsbD i = (decide (fieldPos b ≤ i) && a.getLsbD (i - fieldPos b)) := by
    rw [BitVec.getLsbD_ofNat, Nat.testBit_mul_two_pow, decide_eq_true hi, Bool.true_and]
    rfl
  simp only [bfiWord, BitVec.getLsbD_or, BitVec.getLsbD_and, BitVec.getLsbD_not, mask, value, hi, decide_true, Bool.true_and]
  by_cases inside : fieldPos b ≤ i ∧ i < fieldPos b + fieldWidth b
  · simp [inside]
  · simp [inside]

/-- A bit of lgc3's word (R104). -/
theorem getLsbD_lgcWord (fn : Nat) (a b c : Word) {i : Nat} (hi : i < 32) : (lgcWord fn a b c).getLsbD i =
    lgcBit fn (a.getLsbD i) (b.getLsbD i) (c.getLsbD i) := by
  rw [lgcWord, BitVec.getLsbD_ofNat, testBit_maskOf]
  simp [hi]

/-- The funnel shift takes its word from both operands one after the other (R106). -/
theorem fshWord_eq (left : Bool) (a b c : Word) : fshWord left a b c =
    if left then ((a ++ c : BitVec 64) <<< (b.toNat % 32)).extractLsb' 32 32
    else ((c ++ a : BitVec 64) >>> (b.toNat % 32)).extractLsb' 0 32 := by
  have joined (x y : Word) : (x ++ y : BitVec 64).toNat = x.toNat * 2 ^ 32 + y.toNat := by
    rw [BitVec.toNat_append, ← Nat.shiftLeft_add_eq_or_of_lt y.isLt, Nat.shiftLeft_eq]
  cases left
  · refine BitVec.eq_of_toNat_eq ?_
    simp only [fshWord, Bool.false_eq_true, if_false, BitVec.extractLsb'_toNat, BitVec.toNat_ushiftRight, joined,
      Nat.shiftRight_eq_div_pow, BitVec.toNat_ofNat, pow_zero, Nat.div_one]
  · refine BitVec.eq_of_toNat_eq ?_
    simp only [fshWord, if_true, BitVec.extractLsb'_toNat, BitVec.toNat_shiftLeft, joined,
      Nat.shiftRight_eq_div_pow, Nat.shiftLeft_eq, BitVec.toNat_ofNat]
    omega

/-- Settles O4: the shifts are those of words, and the lemmas above say the bits of fields, logic and funnel. -/
theorem shiftsRotatesAndFields : Obligations.ShiftsRotatesAndFields := by
  unfold Obligations.ShiftsRotatesAndFields
  refine ⟨⟨?_, ?_, ?_, ?_, ?_, ?_⟩, ⟨?_, ?_⟩, ?_⟩
  · refine givesWord_of_word (fun _ x => shlWord x.a x.b) (fun _ _ => rfl) (fun _ => rfl) (fun _ x => ?_)
    split
    · rfl
    · exact BitVec.shiftLeft_eq_zero (by omega)
  · refine givesWord_of_word (fun _ x => shrWord x.a x.b) (fun _ _ => rfl) (fun _ => rfl) (fun _ x => ?_)
    split
    · rfl
    · exact BitVec.ushiftRight_eq_zero (by omega)
  · exact givesWord_of_word (fun _ x => sarWord x.a x.b) (fun _ _ => rfl) (fun _ => rfl) (fun _ _ => rfl)
  · refine givesRel_of_word (fun _ x => x.a.rotateLeft (x.b.toNat % 32)) (fun _ _ => rfl) (fun _ => rfl)
      (fun _ x => ⟨rfl, fun i hi => ?_⟩)
    rw [BitVec.getLsbD_rotateLeft]
    by_cases wraps : (i + x.b.toNat) % 32 < x.b.toNat % 32 % 32
    · simp only [wraps, decide_true, cond_true]
      congr 1
      omega
    · have : (i + x.b.toNat) % 32 - x.b.toNat % 32 % 32 = i := by omega
      simp only [wraps, decide_false, cond_false, this, Nat.mod_lt _ (show 32 > 0 by decide), decide_true, Bool.true_and]
  · refine givesRel_of_word (fun _ x => x.a.rotateRight (x.b.toNat % 32)) (fun _ _ => rfl) (fun _ => rfl)
      (fun _ x => ⟨rfl, fun i hi => ?_⟩)
    rw [BitVec.getLsbD_rotateRight]
    by_cases stays : i < 32 - x.b.toNat % 32 % 32
    · simp only [stays, decide_true, cond_true]
      congr 1
      omega
    · simp only [stays, decide_false, cond_false, hi, decide_true, Bool.true_and]
      congr 1
      omega
  · exact givesWord_of_word (fun o x => fshWord (o.modBit 0) x.a x.b x.c) (fun _ _ => rfl) (fun _ => rfl) (fun _ _ => fshWord_eq _ _ _ _)
  · exact givesRel_of_word (fun o x => bfxWord (o.modBit 0) x.a x.b) (fun _ _ => rfl) (fun _ => rfl)
      (fun _ _ => ⟨rfl, fun i hi => getLsbD_bfxWord _ _ _ hi⟩)
  · exact givesRel_of_word (fun _ x => bfiWord x.a x.b x.c) (fun _ _ => rfl) (fun _ => rfl)
      (fun _ _ => ⟨rfl, fun i hi => getLsbD_bfiWord _ _ _ hi⟩)
  · refine givesRel_of_word (fun o x => lgcWord (bitsOf o.xm 10 8) x.a x.b x.c) (fun _ _ => rfl) (fun _ => rfl)
      (fun _ x => ⟨rfl, fun i hi => ?_⟩)
    rw [getLsbD_lgcWord _ _ _ _ hi, lgcBit]
    simp only [mul_ite, mul_one, mul_zero]

end Sys2Proof.Machine

namespace Sys2Proof.Machine

/-! ## Elements of a lane (R96, R97) -/

/-- Elements read after the advance are those at issue. -/
theorem Env.felems_advance (s : State) (i : Instr) (c : Cur) (w : Warp) (x : Operand) (k l : Nat) :
    (s.env i c w).felems (s.advance c) x k l = (s.env i c w).felems s x k l := by
  rw [Env.felems, Env.word_advance']
  rfl

theorem Env.fa_advance (s : State) (i : Instr) (c : Cur) (w : Warp) (l : Nat) :
    (s.env i c w).fa (s.advance c) l = s.elemsA i c w l := Env.felems_advance s i c w _ _ l
theorem Env.fb_advance (s : State) (i : Instr) (c : Cur) (w : Warp) (l : Nat) :
    (s.env i c w).fb (s.advance c) l = s.elemsB i c w l := Env.felems_advance s i c w _ _ l
theorem Env.fc_advance (s : State) (i : Instr) (c : Cur) (w : Warp) (l : Nat) :
    (s.env i c w).fc (s.advance c) l = s.elemsC i c w l := Env.felems_advance s i c w _ _ l

/-- An instruction whose effect is an operation on elements gives its results (R97). -/
theorem givesElems_of_fop {mk : Operands → Instr} {g : Operands → Fmt → Nat → Nat → Nat → Nat → FRes}
    (he : ∀ o s, exec (mk o) s = issue (mk o) s (fun e s => s.fop e (g e.o))) (ho : ∀ o, (mk o).operands = o) :
    GivesElems mk g := by
  refine gives_perLane _ he (fun _ _ _ _ => Nat.le_refl 1) ho (fun s o c w _ l _ => ?_)
  simp only [Env.fa_advance, Env.fb_advance, Env.fc_advance, packResults, State.env_o, ho, List.foldl_map, and_self]

/-- An instruction that writes the bits of one result in each lane. -/
theorem gives_result {mk : Operands → Instr} {r : State → Operands → Cur → Warp → Nat → FRes} (g : Env → State → Nat → FRes)
    (he : ∀ o s, exec (mk o) s = issue (mk o) s (fun e s => s.perLane e (fun l => packResults 0 [g e s l])))
    (ho : ∀ o, (mk o).operands = o)
    (hg : ∀ (s : State) (o : Operands) (c : Cur) (w : Warp) (l : Nat), g (s.env (mk o) c w) (s.advance c) l = r s o c w l) :
    Gives mk (fun _ => 1) (fun s o c w l ws fl => ws = [BitVec.ofNat 32 (r s o c w l).bits] ∧ fl = (r s o c w l).fl) :=
  gives_perLane (fun e s l => packResults 0 [g e s l]) he (fun _ _ _ _ => Nat.le_refl 1) ho
    (fun s o c w _ l _ => by rw [hg]; exact ⟨rfl, BitVec.zero_or⟩)

/-! ## What a finite encoding holds -/

/-- The significand and exponent of a finite encoding lie in the format's ranges, and a subnormal one has the lowest place. -/
theorem Fmt.Ieee.fin_bounds {f : Fmt} (hf : f.Ieee) {b : Nat} {n : Bool} {m : Nat} {e : Int} (h : f.decode b = .fin n m e) :
    f.lo ≤ e ∧ e ≤ f.bias - f.mb ∧ m < 2 ^ (f.mb + 1) ∧ (e ≠ f.lo → 2 ^ f.mb ≤ m) := by
  have sig : b % 2 ^ f.mb < 2 ^ f.mb := Nat.mod_lt _ (Nat.two_pow_pos _)
  have double : 2 ^ (f.mb + 1) = 2 * 2 ^ f.mb := Nat.pow_succ'
  have expo : b / 2 ^ f.mb % 2 ^ f.eb < 2 ^ f.eb := Nat.mod_lt _ (Nat.two_pow_pos _)
  have top := hf.top_eq
  have bias := hf.bias_pos
  have lo : f.lo = 1 - f.bias - f.mb := rfl
  simp only [Fmt.decode, hf.sp, beq_iff_eq] at h
  split at h
  · split at h <;> cases h
  · next finite =>
    split at h
    · cases h
      exact ⟨le_rfl, by omega, by omega, fun ne => absurd rfl ne⟩
    · cases h
      exact ⟨by omega, by omega, by omega, fun _ => by omega⟩

section
variable {f : Fmt} {a : Rat} {l : Int} {k : Nat} {t : Rat} (h : f.Places a l k t)
include h

/-- The neighbour taken has at most the significand of a carry. -/
theorem Fmt.Places.taken_le (up : Bool) : (if up then k + 1 else k) ≤ 2 ^ (f.mb + 1) := by
  have := h.lt_carry
  split <;> omega

theorem Fmt.Places.taken_normal (up : Bool) (hq : f.quantum l ≠ f.lo) : 2 ^ f.mb ≤ if up then k + 1 else k := by
  have := h.normal hq
  split <;> omega
end

/-! ## Roundings far outside the range of a format -/

section
variable {f : Fmt} (hf : f.Ieee) {mode : Nat} (hm : mode < 4) (neg : Bool) {m : Nat} (hm0 : m ≠ 0) {e : Int}
include hf hm hm0

/-- From 2^(bias + 1) on, a rounding overflows whatever the number. -/
theorem Fmt.Ieee.round_of_large (large : f.bias < Nat.log2 m + e) :
    f.round mode false 0 ⟨neg, m, e, false⟩ = f.overflow mode neg false := by
  obtain ⟨k, t, up, h, -, result⟩ := f.round_eq hm neg hm0 e
  have big : (2 : Rat) ^ (f.bias + 1) ≤ m * 2 ^ e := (two_zpow_le.mpr (by omega)).trans h.low
  have taken : (k : Rat) * 2 ^ f.quantum (Nat.log2 m + e) ≤ (if up then k + 1 else k : Nat) * 2 ^ f.quantum (Nat.log2 m + e) := by
    refine mul_le_mul_of_nonneg_right ?_ (two_zpow_pos _).le
    cases up <;> simp
  have beyond := (hf.maxBits_lt_encodeMag (h.taken_le up) (f.lo_le_quantum _) (h.taken_normal up)).mpr
    ((h.floor_beyond hf big).trans taken)
  rw [result]
  exact if_pos beyond

/-- Below half the least magnitude, a rounding gives a zero or the least magnitude, by the mode and the sign alone. -/
theorem Fmt.Ieee.round_of_small (small : Nat.log2 m + e + 1 < f.lo) :
    f.round mode false 0 ⟨neg, m, e, false⟩ = ⟨(if neg then f.signBit else 0) +
      (if mode = 2 ∧ neg = false ∨ mode = 3 ∧ neg = true then 1 else 0), fNX ||| fUF⟩ := by
  obtain ⟨k, t, up, h, hup, result⟩ := f.round_eq hm neg hm0 e
  have lo : f.lo = 1 - f.bias - f.mb := rfl
  have place : f.quantum (Nat.log2 m + e) = f.lo := by
    simp only [Fmt.quantum, lo]
    omega
  have half : (2 : Rat) ^ f.lo = 2 * 2 ^ (f.lo - 1) := by rw [← zpow_one_add₀ two_ne_zero]; congr 1; ring
  have below : (m : Rat) * 2 ^ e < 2 ^ (f.lo - 1) := h.high.trans_le (two_zpow_le.mpr (by omega))
  have unit := two_zpow_pos (f.lo - 1)
  have value := h.eq
  rw [place] at value
  obtain rfl : k = 0 := by
    by_contra ne
    have one : (1 : Rat) ≤ k := by exact_mod_cast Nat.one_le_iff_ne_zero.mpr ne
    nlinarith [h.nonneg]
  have t1 : t < 2⁻¹ := by
    rw [Nat.cast_zero, zero_add, half] at value
    nlinarith
  have t0 : t ≠ 0 := by
    rintro rfl
    have := h.pos
    rw [value] at this
    simp at this
  have up_iff : up = true ↔ mode = 2 ∧ neg = false ∨ mode = 3 ∧ neg = true := by
    rw [hup]
    obtain rfl | rfl | rfl | rfl : mode = 0 ∨ mode = 1 ∨ mode = 2 ∨ mode = 3 := by omega
    · simp [GoesUp, t1.le, t1.ne]
    · simp [GoesUp]
    · simp [GoesUp, t0]
    · simp [GoesUp, t0]
  have bits : f.encodeMag (if up then 0 + 1 else 0) f.lo = if up then 1 else 0 := by
    have : 1 < 2 ^ f.mb := Nat.one_lt_two_pow (by have := hf.mb; omega)
    rw [Fmt.encodeMag, if_pos (by split <;> omega)]
  have least : ¬ f.maxBits < if up then 1 else 0 := by
    have top := hf.top_eq
    have bias := hf.bias_pos
    have : 1 * 2 ≤ (2 ^ f.eb - 1) * 2 ^ f.mb := Nat.mul_le_mul (by omega) (Nat.pow_le_pow_right two_pos hf.mb)
    simp only [Fmt.maxBits, hf.sp, Fmt.infBits]
    split <;> omega
  have tiny : (Nat.log2 m : Int) + e < 1 - f.bias := by omega
  simp only [result, place, bits, if_neg least, if_neg t0, if_pos tiny]
  simp only [up_iff]
end

/-- An exact number rounded by a mode: one rounding, or a zero. -/
theorem Fmt.Ieee.round_exact {f : Fmt} (hf : f.Ieee) {mode : Nat} (hm : mode < 4) {u : Exact} (exact : u.sticky = false) {x : Rat}
    (value : (FVal.fin u.neg u.m u.e).rat = some x) :
    (x ≠ 0 → RoundedOnce f mode x (f.round mode false 0 u)) ∧
      (x = 0 → (f.decode (f.round mode false 0 u).bits).isZero = true ∧ (f.round mode false 0 u).fl = 0) := by
  obtain ⟨neg, m, e, sticky⟩ := u
  obtain rfl : sticky = false := exact
  rw [FVal.rat_fin, Option.some.injEq] at value
  subst value
  by_cases zero : m = 0
  · subst zero
    refine ⟨fun ne => absurd (by simp) ne, fun _ => ⟨?_, rfl⟩⟩
    have top := hf.top_eq
    have bias := hf.bias_pos
    have decoded := hf.decode_fields neg (E := 0) (M := 0) (by omega) (Nat.two_pow_pos _)
    rw [Nat.zero_mul, Nat.add_zero, if_pos rfl] at decoded
    rw [show f.round mode false 0 ⟨neg, 0, e, false⟩ = ⟨if neg then f.signBit else 0, 0⟩ from rfl, decoded]
    rfl
  · refine ⟨fun _ => hf.roundedOnce hm neg zero e, fun h => ?_⟩
    have pos : (0 : Rat) < m * 2 ^ e := mul_pos (by exact_mod_cast Nat.pos_of_ne_zero zero) (two_zpow_pos e)
    cases neg
    · rw [signRat_false, one_mul] at h
      exact absurd h pos.ne'
    · rw [signRat_true, neg_one_mul, neg_eq_zero] at h
      exact absurd h pos.ne'

/-! ## fscale (R110) -/

theorem ieee_f32 : fmtF32.Ieee := Fmt.ieee_of_mem (by simp)

/-- The amount of fscale beyond 600 places either way does not matter. -/
theorem fscale_clamp {mode : Nat} (hm : mode < 4) {a : Nat} {n : Bool} {m : Nat} {e : Int} (ha : fmtF32.decode a = .fin n m e)
    (hm0 : m ≠ 0) (b : Int) : fmtF32.round mode false 0 ⟨n, m, e + max (-600) (min 600 b), false⟩ =
      fmtF32.round mode false 0 ⟨n, m, e + b, false⟩ := by
  obtain ⟨low, high, sig, -⟩ := ieee_f32.fin_bounds ha
  have lo : fmtF32.lo = -149 := by decide
  have bias : fmtF32.bias = 127 := by decide
  have mb : fmtF32.mb = 23 := rfl
  have log : Nat.log2 m < 24 := (Nat.log2_lt hm0).mpr (by simpa [mb] using sig)
  rw [lo] at low
  rw [bias, mb] at high
  by_cases large : 600 < b
  · rw [ieee_f32.round_of_large hm n hm0 (by rw [bias]; omega), ieee_f32.round_of_large hm n hm0 (by rw [bias]; omega)]
  · by_cases small : b < -600
    · rw [ieee_f32.round_of_small hm n hm0 (by rw [lo]; omega), ieee_f32.round_of_small hm n hm0 (by rw [lo]; omega)]
    · rw [show max (-600) (min 600 b) = b by omega]

theorem fscaleEl_spec {mode : Nat} (hm : mode < 4) (a : Nat) (b : Word) : let r := fscaleEl mode a b
    (∀ q, (fmtF32.decode a).rat = some q → q ≠ 0 → RoundedOnce fmtF32 mode (q * (2 : Rat) ^ b.toInt) r) ∧
    ((fmtF32.decode a).isZero = true ∨ (fmtF32.decode a).isInf = true → r = ⟨a, 0⟩) ∧
    ∀ g, fmtF32.decode a = .nan g → r = ⟨fmtF32.nan, if g then fNV else 0⟩ := by
  intro r
  have hr : r = fscaleEl mode a b := rfl
  rw [fscaleEl] at hr
  cases ha : fmtF32.decode a with
  | nan s =>
    rw [ha] at hr
    refine ⟨fun q hq => (by cases hq), fun h => (by simp [FVal.isZero, FVal.isInf] at h), fun g hg => ?_⟩
    cases hg
    exact hr
  | inf n =>
    rw [ha] at hr
    exact ⟨fun q hq => (by cases hq), fun _ => hr, fun g hg => (by cases hg)⟩
  | fin n m e =>
    rw [ha] at hr
    by_cases zero : m = 0
    · subst zero
      refine ⟨fun q hq ne => absurd ?_ ne, fun _ => hr, fun g hg => by cases hg⟩
      rw [FVal.rat_fin, Option.some.injEq] at hq
      simp [← hq]
    · simp only [beq_iff_eq, zero, if_false] at hr
      refine ⟨fun q hq _ => ?_, fun h => by simp [FVal.isZero, FVal.isInf, zero] at h, fun g hg => by cases hg⟩
      rw [FVal.rat_fin, Option.some.injEq] at hq
      rw [hr, fscale_clamp hm ha zero, ← hq, mul_assoc, mul_assoc, ← two_zpow_add]
      exact ieee_f32.roundedOnce hm n zero _

/-! ## fdot2 (R110, R115) -/

/-- Flags that only FPX.NV can be among. -/
def nvIf (b : Bool) : BitVec 6 := if b then fNV else 0

theorem FRes.or_no_flag (r : FRes) : (⟨r.bits, r.fl ||| 0⟩ : FRes) = r := by
  simp

@[simp] theorem nvIf_or (a b : Bool) : nvIf a ||| nvIf b = nvIf (a || b) := by
  cases a <;> cases b <;> decide

theorem sigFlag_eq (xs : List FVal) : sigFlag xs = nvIf (xs.any FVal.isSig) := rfl

/-- The exact sum of the two products of fdot2. -/
def dotSum (x0 x1 y0 y1 : FVal) : FVal := sumProducts (x0.mul y0) (x1.mul y1)

/-- What makes fdot2 invalid but a sum of opposite infinities with its addend (R110). -/
def dotInvalid (x0 x1 y0 y1 : FVal) : Bool :=
  mulInvalid x0 y0 || mulInvalid x1 y1 || ((dotSum x0 x1 y0 y1).isNan && !([x0, x1, y0, y1].any FVal.isNan))

theorem fdot2El_eq (f : Fmt) (mode a0 a1 b0 b1 c : Nat) : fdot2El f mode [a0, a1] [b0, b1] c =
    let x0 := f.decode a0
    let x1 := f.decode a1
    let y0 := f.decode b0
    let y1 := f.decode b1
    let z := fmtF32.decode c
    let fl := nvIf (dotInvalid x0 x1 y0 y1) ||| sigFlag [z, x0, x1, y0, y1]
    if (dotSum x0 x1 y0 y1).isNan then ⟨fmtF32.nan, fl⟩
    else ⟨(fmtF32.addVals mode (dotSum x0 x1 y0 y1) z).bits, (fmtF32.addVals mode (dotSum x0 x1 y0 y1) z).fl ||| fl⟩ := rfl

theorem mul_of_mulInvalid {x y : FVal} (h : mulInvalid x y = true) : x.mul y = none := by
  cases x with
  | nan g => rfl
  | inf a => cases y with
    | nan g => rfl
    | inf b => simp [mulInvalid, FVal.isZero, FVal.isInf] at h
    | fin b m e =>
      have : m = 0 := by simpa [mulInvalid, FVal.isZero, FVal.isInf] using h
      simp [FVal.mul, this]
  | fin a m e => cases y with
    | nan g => rfl
    | inf b =>
      have : m = 0 := by simpa [mulInvalid, FVal.isZero, FVal.isInf] using h
      simp [FVal.mul, this]
    | fin b k g => simp [mulInvalid, FVal.isInf] at h

/-- A valid product of numbers is infinite exactly where a factor is. -/
theorem mul_of_valid {x y : FVal} (hx : x.isNan = false) (hy : y.isNan = false) (valid : mulInvalid x y = false) :
    ∃ p, x.mul y = some p ∧ p.isNan = false ∧ p.isInf = (x.isInf || y.isInf) ∧ p.neg = (x.neg != y.neg) := by
  cases x with
  | nan g => cases hx
  | inf a => cases y with
    | nan g => cases hy
    | inf b => exact ⟨_, rfl, rfl, rfl, rfl⟩
    | fin b m e =>
      have : m ≠ 0 := by simpa [mulInvalid, FVal.isZero, FVal.isInf] using valid
      exact ⟨.inf (a != b), by simp [FVal.mul, this], rfl, rfl, rfl⟩
  | fin a m e => cases y with
    | nan g => cases hy
    | inf b =>
      have : m ≠ 0 := by simpa [mulInvalid, FVal.isZero, FVal.isInf] using valid
      exact ⟨.inf (a != b), by simp [FVal.mul, this], rfl, rfl, rfl⟩
    | fin b k g => exact ⟨_, rfl, rfl, rfl, rfl⟩

@[simp] theorem sumProducts_none_left (q : Option FVal) : sumProducts none q = .nan false := by
  cases q <;> rfl
@[simp] theorem sumProducts_none_right (p : Option FVal) : sumProducts p none = .nan false := by
  rcases p with _ | x
  · rfl
  · cases x <;> rfl

/-- Among the operands of the products, a NaN leaves no sum. -/
theorem dotSum_of_nan {x0 x1 y0 y1 : FVal} (h : [x0, x1, y0, y1].any FVal.isNan = true) : dotSum x0 x1 y0 y1 = .nan false := by
  simp only [List.any_cons, List.any_nil, Bool.or_false, Bool.or_eq_true, FVal.isNan_iff] at h
  have left (g : OneNan x0 y0) : dotSum x0 x1 y0 y1 = .nan false := by rw [dotSum, FVal.mul_of_nan g, sumProducts_none_left]
  have right (g : OneNan x1 y1) : dotSum x0 x1 y0 y1 = .nan false := by rw [dotSum, FVal.mul_of_nan g, sumProducts_none_right]
  rcases h with h | h | h | h
  · exact left (.inl h)
  · exact right (.inl h)
  · exact left (.inr h)
  · exact right (.inr h)

/-- An invalid product leaves no sum. -/
theorem dotSum_of_invalid {x0 x1 y0 y1 : FVal} (h : (mulInvalid x0 y0 || mulInvalid x1 y1) = true) :
    dotSum x0 x1 y0 y1 = .nan false := by
  rw [Bool.or_eq_true] at h
  rcases h with h | h
  · rw [dotSum, mul_of_mulInvalid h, sumProducts_none_left]
  · rw [dotSum, mul_of_mulInvalid h, sumProducts_none_right]

theorem dotSum_not_sig (x0 x1 y0 y1 : FVal) : (dotSum x0 x1 y0 y1).isSig = false := by
  unfold dotSum sumProducts
  split
  · split <;> rfl
  all_goals rfl

section
variable (f : Fmt) (mode : Nat) {a0 a1 b0 b1 c : Nat}

/-- One rounding of the exact sum of both products and the addend. -/
theorem fdot2El_finite (hm : mode < 4) {p0 p1 q0 q1 z : Rat} (ha0 : (f.decode a0).rat = some p0) (ha1 : (f.decode a1).rat = some p1)
    (hb0 : (f.decode b0).rat = some q0) (hb1 : (f.decode b1).rat = some q1) (hc : (fmtF32.decode c).rat = some z) :
    let r := fdot2El f mode [a0, a1] [b0, b1] c
    (p0 * q0 + p1 * q1 + z ≠ 0 → RoundedOnce fmtF32 mode (p0 * q0 + p1 * q1 + z) r) ∧
      (p0 * q0 + p1 * q1 + z = 0 → (fmtF32.decode r.bits).isZero = true ∧ r.fl = 0) := by
  obtain ⟨n0, m0, e0, da0, rfl⟩ := FVal.fin_of_rat ha0
  obtain ⟨n1, m1, e1, da1, rfl⟩ := FVal.fin_of_rat ha1
  obtain ⟨k0, l0, g0, db0, rfl⟩ := FVal.fin_of_rat hb0
  obtain ⟨k1, l1, g1, db1, rfl⟩ := FVal.fin_of_rat hb1
  obtain ⟨n, m, e, dc, rfl⟩ := FVal.fin_of_rat hc
  obtain ⟨-, products, -⟩ := addFin_spec rmRn (n0 != k0) (m0 * l0) (e0 + g0) (n1 != k1) (m1 * l1) (e1 + g1)
  let u := addFin rmRn (n0 != k0) (m0 * l0) (e0 + g0) (n1 != k1) (m1 * l1) (e1 + g1)
  obtain ⟨exact, value, -⟩ := addFin_spec mode u.neg u.m u.e n m e
  have sum := Option.some.inj ((FVal.rat_fin _ _ _).symm.trans products)
  have product0 := Option.some.inj ((FVal.rat_fin _ _ _).symm.trans (mulFin_rat n0 m0 e0 k0 l0 g0))
  have product1 := Option.some.inj ((FVal.rat_fin _ _ _).symm.trans (mulFin_rat n1 m1 e1 k1 l1 g1))
  rw [product0, product1] at sum
  rw [sum] at value
  have result : fdot2El f mode [a0, a1] [b0, b1] c = fmtF32.round mode false 0 (addFin mode u.neg u.m u.e n m e) := by
    have flags : nvIf (dotInvalid (.fin n0 m0 e0) (.fin n1 m1 e1) (.fin k0 l0 g0) (.fin k1 l1 g1)) |||
        sigFlag [.fin n m e, .fin n0 m0 e0, .fin n1 m1 e1, .fin k0 l0 g0, .fin k1 l1 g1] = 0 := by
      simp [dotInvalid, mulInvalid, dotSum, FVal.mul, sumProducts, FVal.isInf, FVal.isNan, sigFlag, FVal.isSig, nvIf]
    rw [fdot2El_eq, da0, da1, db0, db1, dc]
    simp only [flags]
    exact FRes.or_no_flag _
  rw [result]
  exact ieee_f32.round_exact hm exact value

theorem fdot2El_nan (h : [f.decode a0, f.decode a1, f.decode b0, f.decode b1, fmtF32.decode c].any FVal.isNan = true) :
    let r := fdot2El f mode [a0, a1] [b0, b1] c
    r.bits = fmtF32.nan ∧ ([f.decode a0, f.decode a1, f.decode b0, f.decode b1, fmtF32.decode c].any FVal.isSig = true ∨
      (mulInvalid (f.decode a0) (f.decode b0) || mulInvalid (f.decode a1) (f.decode b1)) = true → r.fl = fNV) := by
  rw [fdot2El_eq]
  generalize f.decode a0 = x0 at *
  generalize f.decode a1 = x1 at *
  generalize f.decode b0 = y0 at *
  generalize f.decode b1 = y1 at *
  generalize fmtF32.decode c = z at *
  have set (g : [x0, x1, y0, y1, z].any FVal.isSig = true ∨ (mulInvalid x0 y0 || mulInvalid x1 y1) = true) :
      nvIf (dotInvalid x0 x1 y0 y1) ||| sigFlag [z, x0, x1, y0, y1] = fNV := by
    rw [sigFlag_eq, nvIf_or]
    refine if_pos ?_
    simp only [dotInvalid, List.any_cons, List.any_nil, Bool.or_false, Bool.or_eq_true] at g ⊢
    tauto
  by_cases none_ : (dotSum x0 x1 y0 y1).isNan = true
  · simp only [none_, if_true]
    exact ⟨trivial, set⟩
  · have quiet : [x0, x1, y0, y1].any FVal.isNan = false := by
      by_contra g
      exact none_ (by rw [dotSum_of_nan (Bool.eq_true_of_not_eq_false g)]; rfl)
    have addend : z.isNan = true := by
      simp only [List.any_cons, List.any_nil, Bool.or_false, Bool.or_eq_true, Bool.or_eq_false_iff] at h quiet
      simpa [quiet] using h
    have sum := fmtF32.addVals_of_nan (x := dotSum x0 x1 y0 y1) (.inr (FVal.isNan_iff.mp addend)) mode
    simp only [none_, sum]
    refine ⟨rfl, fun g => ?_⟩
    change _ ||| (nvIf (dotInvalid x0 x1 y0 y1) ||| sigFlag [z, x0, x1, y0, y1]) = _
    rw [set g, sigFlag_eq]
    exact nvIf_or _ true |>.trans (by rw [Bool.or_true]; rfl)

/-- Zero times infinity makes the whole invalid. -/
theorem fdot2El_invalid (h : (mulInvalid (f.decode a0) (f.decode b0) || mulInvalid (f.decode a1) (f.decode b1)) = true) :
    fdot2El f mode [a0, a1] [b0, b1] c = ⟨fmtF32.nan, fNV⟩ := by
  have invalid : dotInvalid (f.decode a0) (f.decode a1) (f.decode b0) (f.decode b1) = true := by rw [dotInvalid, h, Bool.true_or]
  rw [fdot2El_eq]
  simp only [dotSum_of_invalid h, invalid, sigFlag_eq, nvIf_or, Bool.true_or]
  rfl
end

/-! ### Infinite sums -/

theorem isInf_and_neg_iff (v : FVal) (n : Bool) : (v.isInf && v.neg == n) = true ↔ v = .inf n := by
  cases v <;> simp [FVal.isInf, FVal.neg]

section
variable {p q z : FVal} (hp : p.isNan = false) (hq : q.isNan = false) (hz : z.isNan = false) (n : Bool)
include hp hq

/-- A sum with an infinity is that infinity, unless the other one is in it too. -/
theorem sumProducts_inf (h : p = .inf n ∨ q = .inf n) :
    ((p = .inf !n ∨ q = .inf !n) → sumProducts (some p) (some q) = .nan false) ∧
      (¬ (p = .inf !n ∨ q = .inf !n) → sumProducts (some p) (some q) = .inf n) := by
  obtain rfl | rfl := h
  · cases q with
    | nan g => cases hq
    | inf b => cases n <;> cases b <;> simp [sumProducts]
    | fin b m e => simp [sumProducts]
  · cases p with
    | nan g => cases hp
    | inf b => cases n <;> cases b <;> simp [sumProducts]
    | fin b m e => simp [sumProducts]

theorem sumProducts_fin (h : ∀ n, p ≠ .inf n ∧ q ≠ .inf n) : ∃ b m e, sumProducts (some p) (some q) = .fin b m e := by
  cases p with
  | nan g => cases hp
  | inf b => exact absurd rfl (h b).1
  | fin b m e => cases q with
    | nan g => cases hq
    | inf b => exact absurd rfl (h b).2
    | fin b m e => exact ⟨_, _, _, rfl⟩

theorem addVals_inf (mode : Nat) (h : p = .inf n ∨ q = .inf n) :
    ((p = .inf !n ∨ q = .inf !n) → fmtF32.addVals mode p q = ⟨fmtF32.nan, fNV⟩) ∧
      (¬ (p = .inf !n ∨ q = .inf !n) → fmtF32.addVals mode p q = fmtF32.inf n) := by
  obtain rfl | rfl := h
  · cases q with
    | nan g => cases hq
    | inf b => cases n <;> cases b <;> simp [Fmt.addVals, Fmt.nanRes]
    | fin b m e => simp [Fmt.addVals]
  · cases p with
    | nan g => cases hp
    | inf b => cases n <;> cases b <;> simp [Fmt.addVals, Fmt.nanRes]
    | fin b m e => simp [Fmt.addVals]

include hz

/-- The sum of two products with an addend, one of which is an infinity: that infinity, or invalid where another one is in it too. -/
theorem dot_infinite (mode : Nat) (h : p = .inf n ∨ q = .inf n ∨ z = .inf n) :
    let s := sumProducts (some p) (some q)
    ((p = .inf !n ∨ q = .inf !n ∨ z = .inf !n) →
      s = .nan false ∨ s.isNan = false ∧ fmtF32.addVals mode s z = ⟨fmtF32.nan, fNV⟩) ∧
    (¬ (p = .inf !n ∨ q = .inf !n ∨ z = .inf !n) → s.isNan = false ∧ fmtF32.addVals mode s z = fmtF32.inf n) := by
  intro s
  by_cases same : p = .inf n ∨ q = .inf n
  · obtain ⟨clash, plain⟩ := sumProducts_inf hp hq n same
    by_cases other : p = .inf !n ∨ q = .inf !n
    · exact ⟨fun _ => .inl (clash other), fun g => absurd (other.imp_right .inl) g⟩
    · have sum : s = .inf n := plain other
      obtain ⟨clash, plain⟩ := addVals_inf (p := s) (by rw [sum]; rfl) hz n mode (.inl sum)
      refine ⟨fun g => .inr ⟨by rw [sum]; rfl, clash (.inr ?_)⟩, fun g => ⟨by rw [sum]; rfl, plain ?_⟩⟩
      · tauto
      · rintro (e | e)
        · rw [sum] at e
          cases n <;> cases e
        · exact g (.inr (.inr e))
  · have addend : z = .inf n := by tauto
    by_cases other : p = .inf !n ∨ q = .inf !n
    · have sum : s = .inf !n := (sumProducts_inf hp hq (!n) other).2 (by rwa [Bool.not_not])
      obtain ⟨clash, -⟩ := addVals_inf (p := s) (by rw [sum]; rfl) hz n mode (.inr addend)
      exact ⟨fun _ => .inr ⟨by rw [sum]; rfl, clash (.inl sum)⟩, fun g => absurd (other.imp_right .inl) g⟩
    · have finite (k : Bool) : p ≠ .inf k ∧ q ≠ .inf k := by
        rw [not_or] at same other
        cases n <;> cases k <;> tauto
      obtain ⟨b, m, e, sum⟩ := sumProducts_fin hp hq finite
      obtain ⟨-, plain⟩ := addVals_inf (p := s) (by rw [show s = _ from sum]; rfl) hz n mode (.inr addend)
      refine ⟨fun g => ?_, fun g => ⟨by rw [show s = _ from sum]; rfl, plain ?_⟩⟩
      · rw [addend] at g
        rcases g with g | g | g
        · exact absurd g (finite _).1
        · exact absurd g (finite _).2
        · cases n <;> cases g
      · rw [show s = _ from sum, addend]
        cases n <;> simp
end

/-- fdot2 with an infinite product or addend. -/
theorem fdot2El_infinite (f : Fmt) (mode : Nat) {a0 a1 b0 b1 c : Nat}
    (numbers : [f.decode a0, f.decode a1, f.decode b0, f.decode b1, fmtF32.decode c].any FVal.isNan = false)
    (valid : (mulInvalid (f.decode a0) (f.decode b0) || mulInvalid (f.decode a1) (f.decode b1)) = false) (infinite : Bool → Bool)
    (hi : ∀ n, infinite n = (((f.decode a0).isInf || (f.decode b0).isInf) && ((f.decode a0).neg != (f.decode b0).neg) == n ||
      ((f.decode a1).isInf || (f.decode b1).isInf) && ((f.decode a1).neg != (f.decode b1).neg) == n ||
      (fmtF32.decode c).isInf && (fmtF32.decode c).neg == n)) (n : Bool) (some_ : infinite n = true) :
    (infinite (!n) = true → fdot2El f mode [a0, a1] [b0, b1] c = ⟨fmtF32.nan, fNV⟩) ∧
      (infinite (!n) = false → fdot2El f mode [a0, a1] [b0, b1] c = ⟨(if n then fmtF32.signBit else 0) + fmtF32.infBits, 0⟩) := by
  rw [fdot2El_eq]
  generalize f.decode a0 = x0 at *
  generalize f.decode a1 = x1 at *
  generalize f.decode b0 = y0 at *
  generalize f.decode b1 = y1 at *
  generalize fmtF32.decode c = z at *
  simp only [List.any_cons, List.any_nil, Bool.or_false, Bool.or_eq_false_iff] at numbers
  obtain ⟨hx0, hx1, hy0, hy1, hz⟩ := numbers
  obtain ⟨valid0, valid1⟩ := Bool.or_eq_false_iff.mp valid
  obtain ⟨p, hp, p0, p1, p2⟩ := mul_of_valid hx0 hy0 valid0
  obtain ⟨q, hq, q0, q1, q2⟩ := mul_of_valid hx1 hy1 valid1
  have which (k : Bool) : infinite k = true ↔ p = .inf k ∨ q = .inf k ∨ z = .inf k := by
    rw [hi, ← p1, ← p2, ← q1, ← q2, Bool.or_eq_true, Bool.or_eq_true, isInf_and_neg_iff, isInf_and_neg_iff, isInf_and_neg_iff, or_assoc]
  have quiet {v : FVal} (h : v.isNan = false) : v.isSig = false := by
    cases v with
    | nan g => cases h
    | _ => rfl
  have flags : nvIf (dotInvalid x0 x1 y0 y1) ||| sigFlag [z, x0, x1, y0, y1] = nvIf (dotSum x0 x1 y0 y1).isNan := by
    simp [dotInvalid, valid0, valid1, hx0, hx1, hy0, hy1, sigFlag_eq, quiet hx0, quiet hx1, quiet hy0, quiet hy1, quiet hz]
  obtain ⟨clash, plain⟩ := dot_infinite p0 q0 hz n mode ((which n).mp some_)
  have sum : dotSum x0 x1 y0 y1 = sumProducts (some p) (some q) := by rw [dotSum, hp, hq]
  simp only [flags, sum]
  constructor
  · intro g
    rcases clash ((which _).mp g) with s | ⟨s, added⟩
    · rw [s]
      rfl
    · simp only [s, added]
      rfl
  · intro g
    obtain ⟨s, added⟩ := plain (fun e => by rw [(which _).mpr e] at g; cases g)
    simp only [s, added]
    exact FRes.or_no_flag (fmtF32.inf n)

/-- Settles O5: the elements of `State.fop`, `fscaleEl_spec` by roundings far outside the range, and fdot2 by what its exact sum is. -/
theorem floatArithmeticResults : Obligations.FloatArithmeticResults := by
  unfold Obligations.FloatArithmeticResults
  refine ⟨?_, ?_, ?_, ?_, ?_, ?_, ?_, ?_, fun mode hm a b => fscaleEl_spec hm a b, fun f _ mode hm a0 a1 b0 b1 c => ?_⟩
  · exact givesElems_of_fop (fun _ _ => rfl) (fun _ => rfl)
  · exact givesElems_of_fop (fun _ _ => rfl) (fun _ => rfl)
  · exact givesElems_of_fop (fun _ _ => rfl) (fun _ => rfl)
  · exact givesElems_of_fop (fun _ _ => rfl) (fun _ => rfl)
  · exact givesElems_of_fop (fun _ _ => rfl) (fun _ => rfl)
  · exact givesElems_of_fop (fun _ _ => rfl) (fun _ => rfl)
  · refine gives_result (fun e s l => fscaleEl e.rm ((e.fa s l).getD 0 0) (e.b s l)) (fun _ _ => rfl) (fun _ => rfl) (fun s o c w l => ?_)
    rw [Env.fa_advance, Env.b_advance]
    rfl
  · refine gives_result (fun e s l => fdot2El (fmtOfTy e.ty) e.rm (e.fa s l) (e.fb s l)
      (fmtF32.signMod e.o.xm 14 (e.word s .f32 e.o.c l).toNat)) (fun _ _ => rfl) (fun _ => rfl) (fun s o c w l => ?_)
    rw [Env.fa_advance, Env.fb_advance, Env.word_advance]
    rfl
  · exact ⟨fun p0 p1 q0 q1 z ha0 ha1 hb0 hb1 hc => fdot2El_finite f mode hm ha0 ha1 hb0 hb1 hc, fdot2El_nan f mode, fdot2El_invalid f mode,
      fun numbers valid pos neg => (fdot2El_infinite f mode numbers valid _ (fun _ => rfl) true pos).1 neg,
      fun numbers valid n some_ none_ => (fdot2El_infinite f mode numbers valid _ (fun _ => rfl) n some_).2 none_⟩

end Sys2Proof.Machine

namespace Sys2Proof.Machine

/-! ## Special functions (R126 to R128) -/

/-- An instruction whose effect is a special function gives its results (R126, R127). -/
theorem gives_sfun {mk : Operands → Instr} (g : SFun) (he : ∀ o s, exec (mk o) s = issue (mk o) s (fun e s => s.sfun e g))
    (ho : ∀ o, (mk o).operands = o) : Gives mk (fun _ => 1) (fun s o c w l ws fl =>
      let e := s.env (mk o) c w
      let mode := if o.modBit 5 = true ∧ (g = .sqrt ∨ g = .fdiv) then e.rm else 0
      let rs := (List.range (s.elemsB (mk o) c w l).length).map (fun k =>
        g.apply (fmtOfTy e.ty) (o.modBit 5) mode e.ty ((s.elemsA (mk o) c w l).getD k 0) ((s.elemsB (mk o) c w l).getD k 0))
      ws = [ofElems e.ty (rs.map (·.bits))] ∧ fl = (rs.map (·.fl)).foldl (· ||| ·) 0) := by
  refine gives_perLane _ he (fun _ _ _ _ => Nat.le_refl 1) ho (fun s o c w _ l _ => ?_)
  simp only [Env.fa_advance, Env.fb_advance, packResults, State.env_o, ho, List.foldl_map, Bool.and_eq_true, Bool.or_eq_true,
    beq_iff_eq, rmRn, and_self]

section
variable {g : SFun} {f : Fmt} {a b : Nat} (exact : Bool) (mode ty : Nat)

/-- A special value is the result in both forms and every mode. -/
theorem SFun.apply_of_special {r : FRes} (h : g.eval f (f.decode a) (f.decode b) = .special r) : g.apply f exact mode ty a b = r := by
  rw [SFun.apply, h]

/-- What must be exact is so in both forms. -/
theorem SFun.apply_of_exact {x : Exact} (h : g.eval f (f.decode a) (f.decode b) = .value x) (must : g.mustBeExact f x = true) :
    g.apply f exact mode ty a b = f.round mode false 0 x := by
  simp only [SFun.apply, h, must, Bool.or_true, if_true]
end

/-- One, minus one and a half as FP32, FP16 and BF16 encode them. -/
structure Fmt.Units (f : Fmt) : Prop where
  one : f.one false = ⟨f.bias.toNat * 2 ^ f.mb, 0⟩
  negOne : f.one true = ⟨f.signBit + f.bias.toNat * 2 ^ f.mb, 0⟩
  half : f.round rmRn false 0 ⟨false, 1, -1, false⟩ = ⟨(f.bias.toNat - 1) * 2 ^ f.mb, 0⟩
  decodeOne : f.decode (f.bias.toNat * 2 ^ f.mb) = .fin false (2 ^ f.mb) (-f.mb)

theorem Fmt.units_of_mem {f : Fmt} (h : f ∈ [fmtF32, fmtF16, fmtBf16]) : f.Units := by
  simp only [List.mem_cons, List.not_mem_nil, or_false] at h
  obtain rfl | rfl | rfl := h
  · exact ⟨by decide, by decide, by decide, by decide⟩
  · exact ⟨by decide, by decide, by decide, by decide⟩
  · exact ⟨by decide, by decide, by decide, by decide⟩

section
variable {f : Fmt} (u : f.Units) (exact : Bool) (mode ty a : Nat) {b : Nat}

theorem special_of_nan {sig : Bool} (h : f.decode b = .nan sig) (g : SFun)
    (hg : g ∈ [SFun.rcp, .rsqrt, .sqrt, .exp2, .log2, .sin, .cos, .tanh, .sigm]) :
    g.apply f exact mode ty a b = ⟨f.nan, if sig then fNV else 0⟩ := by
  refine SFun.apply_of_special exact mode ty ?_
  rw [h]
  cases g with
  | fdiv => simp at hg
  | _ => rfl

include u

/-- The functions of minus infinity (Table 4.12). -/
theorem special_of_negInf (h : f.decode b = .inf true) :
    let ap (g : SFun) : FRes := g.apply f exact mode ty a b
    let invalid : FRes := ⟨f.nan, fNV⟩
    ap .rcp = ⟨f.signBit, 0⟩ ∧ ap .rsqrt = invalid ∧ ap .sqrt = invalid ∧ ap .exp2 = ⟨0, 0⟩ ∧ ap .log2 = invalid ∧
      ap .sin = invalid ∧ ap .cos = invalid ∧ ap .tanh = ⟨f.signBit + f.bias.toNat * 2 ^ f.mb, 0⟩ ∧ ap .sigm = ⟨0, 0⟩ := by
  have value (g : SFun) {r : FRes} (e : g.eval f (f.decode a) (.inf true) = .special r) : g.apply f exact mode ty a b = r :=
    SFun.apply_of_special exact mode ty (h ▸ e)
  exact ⟨value _ rfl, value _ rfl, value _ rfl, value _ rfl, value _ rfl, value _ rfl, value _ rfl, (value _ rfl).trans u.negOne,
    value _ rfl⟩

/-- The functions of plus infinity (Table 4.12). -/
theorem special_of_posInf (h : f.decode b = .inf false) :
    let ap (g : SFun) : FRes := g.apply f exact mode ty a b
    let invalid : FRes := ⟨f.nan, fNV⟩
    ap .rcp = ⟨0, 0⟩ ∧ ap .rsqrt = ⟨0, 0⟩ ∧ ap .sqrt = ⟨f.infBits, 0⟩ ∧ ap .exp2 = ⟨f.infBits, 0⟩ ∧ ap .log2 = ⟨f.infBits, 0⟩ ∧
      ap .sin = invalid ∧ ap .cos = invalid ∧ ap .tanh = ⟨f.bias.toNat * 2 ^ f.mb, 0⟩ ∧ ap .sigm = ⟨f.bias.toNat * 2 ^ f.mb, 0⟩ := by
  have value (g : SFun) {r : FRes} (e : g.eval f (f.decode a) (.inf false) = .special r) : g.apply f exact mode ty a b = r :=
    SFun.apply_of_special exact mode ty (h ▸ e)
  have inf : f.inf false = ⟨f.infBits, 0⟩ := by simp [Fmt.inf]
  exact ⟨value _ rfl, value _ rfl, (value _ rfl).trans inf, (value _ rfl).trans inf, (value _ rfl).trans inf, value _ rfl,
    value _ rfl, (value _ rfl).trans u.one, (value _ rfl).trans u.one⟩

/-- The functions of the zeros (Table 4.12). -/
theorem special_of_zero {n : Bool} {e : Int} (h : f.decode b = .fin n 0 e) :
    let ap (g : SFun) : FRes := g.apply f exact mode ty a b
    let sg (n : Bool) : Nat := if n then f.signBit else 0
    let one : Nat := f.bias.toNat * 2 ^ f.mb
    ap .rcp = ⟨sg n + f.infBits, fDZ⟩ ∧ ap .rsqrt = ⟨sg n + f.infBits, fDZ⟩ ∧
      ap .sqrt = ⟨sg n, 0⟩ ∧ ap .exp2 = ⟨one, 0⟩ ∧ ap .log2 = ⟨sg true + f.infBits, fDZ⟩ ∧ ap .sin = ⟨sg n, 0⟩ ∧
      ap .cos = ⟨one, 0⟩ ∧ ap .tanh = ⟨sg n, 0⟩ ∧ ap .sigm = ⟨(f.bias.toNat - 1) * 2 ^ f.mb, 0⟩ := by
  have value (g : SFun) {r : FRes} (z : g.eval f (f.decode a) (.fin n 0 e) = .special r) : g.apply f exact mode ty a b = r :=
    SFun.apply_of_special exact mode ty (h ▸ z)
  exact ⟨value _ rfl, value _ rfl, value _ rfl, (value _ rfl).trans u.one, value _ rfl, value _ rfl, (value _ rfl).trans u.one,
    value _ rfl, (value _ rfl).trans u.half⟩

/-- log2 of 1 is +0, also in the approximate form (R128). -/
theorem log2_one : SFun.log2.apply f exact mode ty a (f.bias.toNat * 2 ^ f.mb) = ⟨0, 0⟩ := by
  have log : log2Exact (2 ^ f.mb) (-f.mb) = ⟨false, 0, 0, false⟩ := by
    simp [log2Exact, Nat.log2_two_pow]
  have value : SFun.log2.eval f (f.decode a) (f.decode (f.bias.toNat * 2 ^ f.mb)) = .value ⟨false, 0, 0, false⟩ := by
    rw [u.decodeOne, ← log]
    simp [SFun.eval]
  rw [SFun.apply_of_exact exact mode ty value (by simp [SFun.mustBeExact])]
  rfl
end

section
variable {f : Fmt} (exact : Bool) (mode ty : Nat) {a b : Nat}

/-- The functions of a negative number that have none (Table 4.12). -/
theorem special_of_negative {m : Nat} {e : Int} (hm : m ≠ 0) (h : f.decode b = .fin true m e) (g : SFun)
    (hg : g = .rsqrt ∨ g = .sqrt ∨ g = .log2) : g.apply f exact mode ty a b = ⟨f.nan, fNV⟩ := by
  refine SFun.apply_of_special exact mode ty ?_
  rw [h]
  obtain rfl | rfl | rfl := hg
  · simp [SFun.eval, hm, Fmt.nanRes]
  · simp [SFun.eval, hm, Fmt.nanRes]
  · simp [SFun.eval, hm, Fmt.nanRes]

/-- fdiv is special but for two nonzero numbers (R128). -/
theorem fdiv_special (h : ∀ x m e y n k, f.decode a = .fin x m e → f.decode b = .fin y n k → m = 0 ∨ n = 0) :
    SFun.fdiv.apply f exact mode ty a b = f.divVals rmRn (f.decode a) (f.decode b) := by
  refine SFun.apply_of_special exact mode ty ?_
  cases ha : f.decode a with
  | nan g => rfl
  | inf x => rfl
  | fin x m e => cases hb : f.decode b with
    | nan g => rfl
    | inf y => rfl
    | fin y n k =>
      have zero : (n == 0 || m == 0) = true := by simpa [or_comm] using h x m e y n k ha hb
      simp only [SFun.eval, zero, if_true]
end

/-- Settles O10: `gives_sfun` for the elements, and the special values of Table 4.12 by what is decoded. -/
theorem specialFunctionResults : Obligations.SpecialFunctionResults := by
  unfold Obligations.SpecialFunctionResults
  refine ⟨⟨?_, ?_, ?_, ?_, ?_, ?_, ?_, ?_, ?_, ?_⟩, fun f hf exact mode ty a b => ?_⟩
  · exact gives_sfun .rcp (fun _ _ => rfl) (fun _ => rfl)
  · exact gives_sfun .rsqrt (fun _ _ => rfl) (fun _ => rfl)
  · exact gives_sfun .sqrt (fun _ _ => rfl) (fun _ => rfl)
  · exact gives_sfun .exp2 (fun _ _ => rfl) (fun _ => rfl)
  · exact gives_sfun .log2 (fun _ _ => rfl) (fun _ => rfl)
  · exact gives_sfun .sin (fun _ _ => rfl) (fun _ => rfl)
  · exact gives_sfun .cos (fun _ _ => rfl) (fun _ => rfl)
  · exact gives_sfun .tanh (fun _ _ => rfl) (fun _ => rfl)
  · exact gives_sfun .fdiv (fun _ _ => rfl) (fun _ => rfl)
  · exact gives_sfun .sigm (fun _ _ => rfl) (fun _ => rfl)
  · have u := Fmt.units_of_mem hf
    refine ⟨fun sig h => special_of_nan exact mode ty a h, fun h => ?_, special_of_negInf u exact mode ty a, special_of_posInf u exact mode ty a,
      fun n e => special_of_zero u exact mode ty a, fun m e hm h => ?_, fun h => ?_, fun x y ha hb => ?_, fun x y k m e g ha hb zero => ?_,
      fun x y m e ha hb => ?_⟩
    · refine (fdiv_special exact mode ty (fun x m e y n k ha hb => ?_)).trans (f.divVals_of_nan (oneNan_of_isNan h) _)
      rw [ha, hb] at h
      cases h
    · have invalid := special_of_negative (a := a) exact mode ty hm h
      exact ⟨invalid _ (.inl rfl), invalid _ (.inr (.inl rfl)), invalid _ (.inr (.inr rfl))⟩
    · rw [h]
      exact log2_one u exact mode ty a
    · refine (fdiv_special exact mode ty (by simp [ha])).trans ?_
      rw [ha, hb]
      rfl
    · subst zero
      refine (fdiv_special exact mode ty (fun _ _ _ _ _ _ _ h => .inr ?_)).trans ?_
      · rw [hb] at h
        cases h
        rfl
      rw [ha, hb]
      by_cases zero : m = 0
      · subst zero
        rfl
      · simp [Fmt.divVals, zero, Fmt.inf]
    · refine (fdiv_special exact mode ty (by simp [hb])).trans ?_
      rw [ha, hb]
      rfl

end Sys2Proof.Machine

namespace Sys2Proof.Machine

/-! ## The order of numbers (R112) -/

/-- A number in the order of the extended rationals; a NaN has no place there. -/
def FVal.rank : FVal → WithBot (WithTop Rat)
  | .inf true | .nan _ => ⊥
  | .inf false => ((⊤ : WithTop Rat) : WithBot (WithTop Rat))
  | .fin n m e => ((signRat n * (m * (2 : Rat) ^ e) : Rat) : WithTop Rat)

theorem two_zpow_shift {e g : Int} (h : g ≤ e) : (2 : Rat) ^ e = (2 ^ (e - g).toNat : Nat) * 2 ^ g := by
  rw [← two_zpow_nat, ← two_zpow_add]
  congr 1
  omega

/-- A magnitude at a lower place. -/
theorem magnitude_shift (m : Nat) {e g : Int} (h : g ≤ e) : (m : Rat) * 2 ^ e = (m * 2 ^ (e - g).toNat : Nat) * (2 : Rat) ^ g := by
  rw [two_zpow_shift h, Nat.cast_mul, mul_assoc]

theorem magLt_iff (m1 : Nat) (e1 : Int) (m2 : Nat) (e2 : Int) : magLt m1 e1 m2 e2 = true ↔ (m1 : Rat) * 2 ^ e1 < m2 * 2 ^ e2 := by
  rw [magnitude_shift m1 (min_le_left e1 e2), magnitude_shift m2 (min_le_right e1 e2), mul_lt_mul_iff_left₀ (two_zpow_pos _), Nat.cast_lt]
  exact decide_eq_true_iff

theorem FVal.fin_lt_iff (n1 : Bool) (m1 : Nat) (e1 : Int) (n2 : Bool) (m2 : Nat) (e2 : Int) :
    (FVal.fin n1 m1 e1).lt (.fin n2 m2 e2) = true ↔ signRat n1 * (m1 * (2 : Rat) ^ e1) < signRat n2 * (m2 * (2 : Rat) ^ e2) := by
  have nonneg (m : Nat) (e : Int) : (0 : Rat) ≤ m * 2 ^ e := mul_nonneg m.cast_nonneg (two_zpow_pos e).le
  have zero (m : Nat) (e : Int) : (m : Rat) * 2 ^ e = 0 ↔ m = 0 := by simp [(two_zpow_pos e).ne']
  have x := nonneg m1 e1
  have y := nonneg m2 e2
  by_cases both : m1 = 0 ∧ m2 = 0
  · simp [FVal.lt, both]
  · have step : (FVal.fin n1 m1 e1).lt (.fin n2 m2 e2) = match n1, n2 with
        | true, false => true
        | false, true => false
        | false, false => magLt m1 e1 m2 e2
        | true, true => magLt m2 e2 m1 e1 := by
      exact if_neg (by simpa using both)
    rw [step]
    cases n1 <;> cases n2
    · simpa using magLt_iff m1 e1 m2 e2
    · simp only [Bool.false_eq_true, signRat_false, signRat_true, false_iff, not_lt]
      linarith
    · simp only [signRat_false, signRat_true, true_iff]
      rw [← zero m1 e1, ← zero m2 e2] at both
      by_contra le
      exact both ⟨by linarith, by linarith⟩
    · simpa using magLt_iff m2 e2 m1 e1

/-- Numbers compare by their places in the order. -/
theorem FVal.lt_iff_rank {x y : FVal} (hx : x.isNan = false) (hy : y.isNan = false) : x.lt y = true ↔ x.rank < y.rank := by
  cases x with
  | nan g => cases hx
  | inf a => cases y with
    | nan g => cases hy
    | inf b => cases a <;> cases b <;> simp [FVal.lt, FVal.rank]
    | fin b m e =>
      cases a
      · simp [FVal.lt, FVal.rank]
      · exact iff_of_true rfl (WithBot.bot_lt_coe _)
  | fin a m e => cases y with
    | nan g => cases hy
    | inf b =>
      cases b
      · exact iff_of_true rfl (WithBot.coe_lt_coe.mpr (WithTop.coe_lt_top _))
      · simp [FVal.lt, FVal.rank]
    | fin b k g =>
      rw [FVal.fin_lt_iff, FVal.rank, FVal.rank, WithBot.coe_lt_coe, WithTop.coe_lt_coe]

/-! ## fcmp.ax decides as fcmp does (R116, R117) -/

/-- reduce(x, q) is off by less than one of its units. -/
theorem axcReduce_near (n : Bool) (m : Nat) (e q : Int) : (axcReduce n m e q).2 = axcEx m e - q + 1 ∧
    |signRat n * (m * (2 : Rat) ^ e) - (axcReduce n m e q).1 * 2 ^ (axcReduce n m e q).2| < 2 ^ (axcReduce n m e q).2 := by
  refine ⟨rfl, ?_⟩
  have magnitude (u : Int) : |(m : Rat) * 2 ^ e - (if u ≤ e then m * 2 ^ (e - u).toNat else m / 2 ^ (u - e).toNat : Nat) * 2 ^ u| < 2 ^ u := by
    by_cases h : u ≤ e
    · rw [if_pos h, ← magnitude_shift m h, sub_self, abs_zero]
      exact two_zpow_pos u
    · rw [if_neg h]
      have place := two_zpow_shift (not_le.mp h).le
      have split : ((2 ^ (u - e).toNat : Nat) : Rat) * (m / 2 ^ (u - e).toNat : Nat) + (m % 2 ^ (u - e).toNat : Nat) = m := by
        exact_mod_cast Nat.div_add_mod m _
      have rest : ((m % 2 ^ (u - e).toNat : Nat) : Rat) < (2 ^ (u - e).toNat : Nat) := by
        exact_mod_cast Nat.mod_lt m (Nat.two_pow_pos _)
      have difference : (m : Rat) * 2 ^ e - (m / 2 ^ (u - e).toNat : Nat) * 2 ^ u = (m % 2 ^ (u - e).toNat : Nat) * 2 ^ e := by
        rw [place]
        linear_combination (-(2 : Rat) ^ e) * split
      rw [difference, abs_of_nonneg (mul_nonneg (Nat.cast_nonneg _) (two_zpow_pos e).le), place]
      exact mul_lt_mul_of_pos_right rest (two_zpow_pos e)
  have signed : (((axcReduce n m e q).1 : Int) : Rat) = signRat n * (if axcEx m e - q + 1 ≤ e then
      m * 2 ^ (e - (axcEx m e - q + 1)).toNat else m / 2 ^ (axcEx m e - q + 1 - e).toNat : Nat) := by
    cases n
    · rw [signRat_false, one_mul]
      exact Int.cast_natCast _
    · rw [signRat_true, neg_one_mul]
      exact (Int.cast_neg _).trans (congrArg _ (Int.cast_natCast _))
  rw [signed, mul_assoc, ← mul_sub, abs_signRat_mul]
  exact magnitude _

/-- A comparison of numbers depends on their order alone. -/
theorem fcond_congr (cond : Nat) {x y a b : FVal} (hx : x.isNan = false) (hy : y.isNan = false) (ha : a.isNan = false) (hb : b.isNan = false)
    (lt : x.lt y = a.lt b) (gt : y.lt x = b.lt a) : fcond cond x y = fcond cond a b := by
  have quiet {v : FVal} (h : v.isNan = false) : v.isSig = false := by
    cases v with
    | nan g => cases h
    | _ => rfl
  simp only [fcond, FVal.eq, FVal.le, hx, hy, ha, hb, lt, gt, quiet hx, quiet hy, quiet ha, quiet hb]

/-- The reduced operands decide as the operands do where they differ by more than the guard band. -/
theorem near_lt_iff {x y a b u v g : Rat} (hx : |x - a| < u) (hy : |y - b| < v) (hu : 2 * u ≤ g) (hv : 2 * v ≤ g) (far : g < |a - b|) :
    a < b ↔ x < y := by
  obtain ⟨x1, x2⟩ := abs_lt.mp hx
  obtain ⟨y1, y2⟩ := abs_lt.mp hy
  rcases lt_abs.mp far with h | h
  · exact ⟨fun _ => by linarith, fun _ => by linarith⟩
  · exact ⟨fun _ => by linarith, fun _ => by linarith⟩

/-- fcmp.ax decides as fcmp does, at every level (R117). -/
theorem axcmp_eq (cond level : Nat) (a b : FVal) : axcmp cond level a b = fcond cond a b := by
  cases a with
  | nan g => rfl
  | inf n => rfl
  | fin n1 m1 e1 => cases b with
    | nan g => rfl
    | inf n => rfl
    | fin n2 m2 e2 =>
      obtain ⟨xu, xnear⟩ := axcReduce_near n1 m1 e1 (axcBits level)
      obtain ⟨yu, ynear⟩ := axcReduce_near n2 m2 e2 (axcBits level)
      simp only [axcmp]
      generalize axcReduce n1 m1 e1 (axcBits level) = x at *
      generalize axcReduce n2 m2 e2 (axcBits level) = y at *
      generalize hg : max (axcEx m1 e1) (axcEx m2 e2) - axcBits level + 2 = g
      generalize hk : min (min x.2 y.2) g = k
      split
      · rfl
      · next far =>
        have scaled (v : Int × Int) (h : k ≤ v.2) : ((v.1 * 2 ^ (v.2 - k).toNat : Int) : Rat) * 2 ^ k = v.1 * 2 ^ v.2 := by
          rw [two_zpow_shift h]
          push_cast
          ring
        have xs := scaled x (by omega)
        have ys := scaled y (by omega)
        generalize x.1 * 2 ^ (x.2 - k).toNat = p at *
        generalize y.1 * 2 ^ (y.2 - k).toNat = q at *
        have band : (2 : Rat) ^ g < |(x.1 : Rat) * 2 ^ x.2 - y.1 * 2 ^ y.2| := by
          rw [← xs, ← ys, ← sub_mul, abs_mul, abs_of_pos (two_zpow_pos k), two_zpow_shift (g := k) (by omega),
            ← Int.cast_sub, ← Int.cast_abs, Int.abs_eq_natAbs, Int.cast_natCast]
          exact mul_lt_mul_of_pos_right (by exact_mod_cast not_le.mp far) (two_zpow_pos k)
        have unit {u : Int} (h : u + 1 ≤ g) : 2 * (2 : Rat) ^ u ≤ 2 ^ g := by
          rw [← zpow_one_add₀ two_ne_zero, two_zpow_le]
          omega
        have ux := unit (u := x.2) (by omega)
        have uy := unit (u := y.2) (by omega)
        refine fcond_congr cond rfl rfl rfl rfl ?_ ?_
        · rw [Bool.eq_iff_iff, FVal.fin_lt_iff, FVal.fin_lt_iff, ← mul_assoc, ← mul_assoc, signRat_natAbs, signRat_natAbs, xs, ys]
          exact near_lt_iff xnear ynear ux uy band
        · rw [Bool.eq_iff_iff, FVal.fin_lt_iff, FVal.fin_lt_iff, ← mul_assoc, ← mul_assoc, signRat_natAbs, signRat_natAbs, xs, ys]
          exact near_lt_iff ynear xnear uy ux (by rwa [abs_sub_comm])

/-! ## The bits of D (R112) -/

/-- Consecutive bits replaced, the others kept. -/
theorem getLsbD_foldl_setBit (w : Word) (k n : Nat) (g : Nat → Bool) {i : Nat} (hi : i < 32) :
    ((List.range n).foldl (fun w j => setBit w (k + j) (g j)) w).getLsbD i = if k ≤ i ∧ i < k + n then g (i - k) else w.getLsbD i := by
  induction n with
  | zero => rw [if_neg (by omega)]; rfl
  | succ n ih =>
    rw [List.range_succ, List.foldl_concat, getLsbD_setBit _ _ _ hi, ih]
    by_cases last : i = k + n
    · subst last
      rw [if_pos rfl, if_pos (by omega), Nat.add_sub_cancel_left]
    · rw [if_neg last]
      exact if_congr (by omega) rfl rfl

/-- An instruction that compares elements replaces a bit for each and takes the union of the flags. -/
theorem gives_fcompare {mk : Operands → Instr} (p : Env → FVal → FVal → Bool × Bool)
    (he : ∀ o s, exec (mk o) s = issue (mk o) s (fun e s => s.fcompare e (p e))) (ho : ∀ o, (mk o).operands = o)
    (hp : ∀ e, p e = fcond (e.o.mods 2 3)) :
    Gives mk (fun _ => 1) (fun s o c w l ws fl =>
      let f := fmtOfTy (s.env (mk o) c w).ty
      let xs := (s.elemsA (mk o) c w l).map f.decode
      let ys := (s.elemsB (mk o) c w l).map f.decode
      let k := bitsOf o.xm 0 5
      let r (j : Nat) : Bool × Bool := fcond (o.mods 2 3) (xs.getD j (.nan false)) (ys.getD j (.nan false))
      (∃ v : Word, ws = [v] ∧ ∀ i < 32, v.getLsbD i =
        if k ≤ i ∧ i < k + xs.length then (r (i - k)).1 else (s.sources o c w l).d.getLsbD i) ∧
      fl = if (List.range xs.length).any (fun j => (r j).2) then fNV else 0) := by
  refine gives_perLane _ he (fun _ _ _ _ => Nat.le_refl 1) ho (fun s o c w _ l _ => ?_)
  simp only [Env.fa_advance, Env.fb_advance, Env.d_advance, hp, State.env_o, ho, List.foldl_map, List.any_map]
  exact ⟨⟨_, rfl, fun i hi => getLsbD_foldl_setBit _ _ _ _ hi⟩, rfl⟩

/-- Settles O9: the bits by `gives_fcompare`, and fcmp.ax by `axcmp_eq`. -/
theorem floatCompareResults : Obligations.FloatCompareResults := by
  unfold Obligations.FloatCompareResults
  constructor
  · exact gives_fcompare (fun e => fcond (e.o.mods 2 3)) (fun _ _ => rfl) (fun _ => rfl) (fun _ => rfl)
  · exact gives_fcompare (fun e => axcmp (e.o.mods 2 3) e.w.axc.toNat) (fun _ _ => rfl) (fun _ => rfl)
      (fun e => funext fun a => funext fun b => axcmp_eq _ _ a b)

end Sys2Proof.Machine

namespace Sys2Proof.Machine

/-! ## Minimum and maximum (R111) -/

theorem FVal.lt_asymm {x y : FVal} (h : x.lt y = true) : y.lt x = false := by
  cases hx : x.isNan with
  | true =>
    obtain ⟨g, rfl⟩ := FVal.isNan_iff.mp hx
    cases h
  | false => cases hy : y.isNan with
    | true =>
      obtain ⟨g, rfl⟩ := FVal.isNan_iff.mp hy
      rfl
    | false =>
      rw [← Bool.not_eq_true, FVal.lt_iff_rank hy hx]
      exact ((FVal.lt_iff_rank hx hy).mp h).not_gt

theorem FVal.lt_irrefl (x : FVal) : x.lt x = false := by
  cases h : x.lt x with
  | false => rfl
  | true => exact (FVal.lt_asymm h).symm.trans h |>.symm

/-- What is before another number is not above it, and what is not before it is not below it. -/
theorem FVal.lt_of_before {x y : FVal} : (x.before y = true → y.lt x = false) ∧ (x.before y = false → x.lt y = false) := by
  constructor
  · intro h
    rw [FVal.before, Bool.or_eq_true] at h
    rcases h with h | h
    · exact FVal.lt_asymm h
    · simp only [FVal.eq, Bool.and_eq_true, Bool.not_eq_true'] at h
      exact h.1.1.2
  · intro h
    exact (Bool.or_eq_false_iff.mp h).1

/-- Of two zeros the one with a sign is before the one without. -/
theorem FVal.before_of_zeros {x y : FVal} (hx : x.isZero = true) (hy : y.isZero = true) : x.before y = (x.neg && !y.neg) := by
  cases x with
  | nan g => cases hx
  | inf n => cases hx
  | fin a m e => cases y with
    | nan g => cases hy
    | inf n => cases hy
    | fin b k g =>
      simp only [FVal.isZero, beq_iff_eq] at hx hy
      simp [FVal.before, FVal.eq, FVal.lt, FVal.isNan, hx, hy]

theorem eq_true_of_ne_of_and {x y : Bool} (ne : x ≠ y) (h : (y && !x) = false) : x = true := by
  cases x
  · cases y
    · exact absurd rfl ne
    · cases h
  · rfl

theorem eq_false_of_ne_of_and {x y : Bool} (ne : x ≠ y) (h : (x && !y) = false) : x = false := by
  cases x
  · rfl
  · cases y
    · cases h
    · exact absurd rfl ne

section
variable (f : Fmt) (a b : Nat)

/-- The operand that fmin and fmax select of two numbers. -/
theorem Fmt.minMax_of_numbers (isMax : Bool) (hx : (f.decode a).isNan = false) (hy : (f.decode b).isNan = false) :
    (f.minMax isMax a b).bits =
      if (if isMax then (f.decode a).before (f.decode b) else (f.decode b).before (f.decode a)) then b else a := by
  cases isMax
  · simp [Fmt.minMax, hx, hy]
  · simp [Fmt.minMax, hx, hy]

theorem Fmt.minMax_fl (isMax : Bool) : (f.minMax isMax a b).fl = sigFlag [f.decode a, f.decode b] := by
  simp only [Fmt.minMax]
  split
  · rfl
  · split
    · rfl
    · split
      · rfl
      · split
        · rfl
        · rfl

/-- No operand is above the one that fmax selects, or below the one that fmin does. -/
theorem Fmt.minMax_extreme (isMax : Bool) (hx : (f.decode a).isNan = false) (hy : (f.decode b).isNan = false) :
    let r := (f.minMax isMax a b).bits
    (r = a ∨ r = b) ∧
      (isMax = true → (f.decode r).lt (f.decode a) = false ∧ (f.decode r).lt (f.decode b) = false) ∧
      (isMax = false → (f.decode a).lt (f.decode r) = false ∧ (f.decode b).lt (f.decode r) = false) ∧
      ((f.decode a).isZero = true → (f.decode b).isZero = true → (f.decode a).neg ≠ (f.decode b).neg →
        (f.decode r).neg = !isMax) := by
  intro r
  have hr : r = _ := f.minMax_of_numbers a b isMax hx hy
  clear_value r
  cases isMax with
  | false =>
    obtain ⟨before, after⟩ := FVal.lt_of_before (x := f.decode b) (y := f.decode a)
    simp only [Bool.false_eq_true, if_false] at hr
    cases h : (f.decode b).before (f.decode a) with
    | true =>
      obtain rfl : r = b := by rw [hr, h, if_pos rfl]
      refine ⟨.inr rfl, fun g => (by cases g), fun _ => ⟨before h, FVal.lt_irrefl _⟩, fun za zb _ => ?_⟩
      rw [FVal.before_of_zeros zb za, Bool.and_eq_true] at h
      exact h.1
    | false =>
      obtain rfl : r = a := by rw [hr, h, if_neg Bool.false_ne_true]
      refine ⟨.inl rfl, fun g => (by cases g), fun _ => ⟨FVal.lt_irrefl _, after h⟩, fun za zb ne => ?_⟩
      rw [FVal.before_of_zeros zb za] at h
      exact eq_true_of_ne_of_and ne h
  | true =>
    obtain ⟨before, after⟩ := FVal.lt_of_before (x := f.decode a) (y := f.decode b)
    simp only [if_true] at hr
    cases h : (f.decode a).before (f.decode b) with
    | true =>
      obtain rfl : r = b := by rw [hr, h, if_pos rfl]
      refine ⟨.inr rfl, fun _ => ⟨before h, FVal.lt_irrefl _⟩, fun g => (by cases g), fun za zb _ => ?_⟩
      rw [FVal.before_of_zeros za zb, Bool.and_eq_true] at h
      simpa using h.2
    | false =>
      obtain rfl : r = a := by rw [hr, h, if_neg Bool.false_ne_true]
      refine ⟨.inl rfl, fun _ => ⟨FVal.lt_irrefl _, after h⟩, fun g => (by cases g), fun za zb ne => ?_⟩
      rw [FVal.before_of_zeros za zb] at h
      exact eq_false_of_ne_of_and ne h

/-- A decoded number without its sign. -/
def FVal.mag : FVal → FVal
  | .nan s => .nan s
  | .inf _ => .inf false
  | .fin _ m e => .fin false m e

/-- Without the sign bit an encoding stands for the magnitude. -/
theorem Fmt.decode_clearSign : f.decode (f.clearSign a) = (f.decode a).mag := by
  have split : f.signBit = 2 ^ f.mb * 2 ^ f.eb := by rw [Fmt.signBit, Nat.add_comm, Nat.pow_add]
  have pos : 0 < f.signBit := Nat.two_pow_pos _
  have fields : f.clearSign a / f.signBit % 2 = 0 ∧ f.clearSign a / 2 ^ f.mb % 2 ^ f.eb = a / 2 ^ f.mb % 2 ^ f.eb ∧
      f.clearSign a % 2 ^ f.mb = a % 2 ^ f.mb := by
    rw [Fmt.clearSign]
    by_cases h : a / f.signBit % 2 = 1
    · obtain ⟨x, rfl⟩ : ∃ x, a = x + f.signBit := by
        refine ⟨a - f.signBit, (Nat.sub_add_cancel ?_).symm⟩
        by_contra small
        rw [Nat.div_eq_of_lt (by omega)] at h
        cases h
      rw [if_pos (by simpa using h), Nat.add_sub_cancel]
      rw [Nat.add_div_right _ pos] at h
      refine ⟨by omega, ?_, ?_⟩
      · rw [split, Nat.add_mul_div_left _ _ (Nat.two_pow_pos _), Nat.add_mod_right]
      · rw [split, Nat.add_mul_mod_self_left]
    · rw [if_neg (by simpa using h)]
      exact ⟨by omega, rfl, rfl⟩
  obtain ⟨sign, expo, sigd⟩ := fields
  simp only [Fmt.decode, sign, expo, sigd]
  cases f.sp with
  | ieee =>
    simp only [apply_ite FVal.mag]
    rfl
  | e4m3 =>
    simp only [apply_ite FVal.mag]
    rfl
  | none =>
    simp only [apply_ite FVal.mag]
    rfl

theorem FVal.isNan_mag (v : FVal) : v.mag.isNan = v.isNan := by
  cases v <;> rfl

theorem FVal.rat_mag {v : FVal} {p : Rat} (h : v.rat = some p) : v.mag.rat = some p.abs := by
  obtain ⟨n, m, e, rfl, rfl⟩ := FVal.fin_of_rat h
  rw [FVal.mag, FVal.rat_fin, rat_abs_eq, abs_signRat_mul, signRat_false, one_mul,
    abs_of_nonneg (mul_nonneg m.cast_nonneg (two_zpow_pos e).le)]

/-- fminmag and fmaxmag of a NaN or of equal magnitudes. -/
theorem Fmt.minMaxMag_of_equal (isMax : Bool) (h : (f.decode a).isNan = true ∨ (f.decode b).isNan = true ∨
    (f.decode (f.clearSign a)).eq (f.decode (f.clearSign b)) = true) : f.minMaxMag isMax a b = f.minMax isMax a b := by
  rw [Fmt.minMaxMag, if_pos]
  rwa [f.decode_clearSign, f.decode_clearSign, FVal.isNan_mag, FVal.isNan_mag, Bool.or_eq_true, Bool.or_eq_true, or_assoc,
    ← f.decode_clearSign, ← f.decode_clearSign]

/-- fminmag and fmaxmag of unequal magnitudes. -/
theorem Fmt.minMaxMag_of_lt (isMax : Bool) (hx : (f.decode a).isNan = false) (hy : (f.decode b).isNan = false) :
    ((f.decode (f.clearSign a)).lt (f.decode (f.clearSign b)) = true → f.minMaxMag isMax a b = ⟨if isMax then b else a, 0⟩) ∧
      ((f.decode (f.clearSign b)).lt (f.decode (f.clearSign a)) = true → f.minMaxMag isMax a b = ⟨if isMax then a else b, 0⟩) := by
  have nx : (f.decode (f.clearSign a)).isNan = false := by rw [f.decode_clearSign, FVal.isNan_mag, hx]
  have ny : (f.decode (f.clearSign b)).isNan = false := by rw [f.decode_clearSign, FVal.isNan_mag, hy]
  constructor
  · intro h
    cases isMax
    · simp [Fmt.minMaxMag, nx, ny, FVal.eq, h, FVal.lt_asymm h]
    · simp [Fmt.minMaxMag, nx, ny, FVal.eq, h, FVal.lt_asymm h]
  · intro h
    cases isMax
    · simp [Fmt.minMaxMag, nx, ny, FVal.eq, h, FVal.lt_asymm h]
    · simp [Fmt.minMaxMag, nx, ny, FVal.eq, h, FVal.lt_asymm h]

/-- The selections by operands: NaNs, numbers and magnitudes. -/
theorem minMax_spec (isMax : Bool) :
    let x := f.decode a
    let y := f.decode b
    let r := f.minMax isMax a b
    let v := f.decode r.bits
    r.fl = (if x.isSig || y.isSig then fNV else 0) ∧
    (x.isNan → y.isNan → r.bits = f.nan) ∧ (x.isNan → ¬ y.isNan → r.bits = b) ∧ (¬ x.isNan → y.isNan → r.bits = a) ∧
    (¬ x.isNan → ¬ y.isNan → (r.bits = a ∨ r.bits = b) ∧
      (isMax → ¬ v.lt x ∧ ¬ v.lt y) ∧ (¬ isMax → ¬ x.lt v ∧ ¬ y.lt v) ∧
      (x.isZero → y.isZero → x.neg ≠ y.neg → v.neg = !isMax)) ∧
    (let ax := f.decode (f.clearSign a)
     let ay := f.decode (f.clearSign b)
     (∀ p, x.rat = some p → ax.rat = some p.abs) ∧ (∀ n, x = .inf n → ax = .inf false) ∧
     (x.isNan ∨ y.isNan ∨ ax.eq ay = true → f.minMaxMag isMax a b = f.minMax isMax a b) ∧
     (¬ x.isNan → ¬ y.isNan → (ax.lt ay → f.minMaxMag isMax a b = ⟨if isMax then b else a, 0⟩) ∧
       (ay.lt ax → f.minMaxMag isMax a b = ⟨if isMax then a else b, 0⟩))) := by
  intro x y r v
  simp only [Bool.not_eq_true]
  refine ⟨?_, fun hx hy => ?_, fun hx hy => ?_, fun hx hy => ?_, f.minMax_extreme a b isMax, fun p h => ?_, fun n h => ?_,
    f.minMaxMag_of_equal a b isMax, f.minMaxMag_of_lt a b isMax⟩
  · rw [f.minMax_fl, sigFlag, List.any_cons, List.any_cons, List.any_nil, Bool.or_false]
  · simp [r, Fmt.minMax, show (f.decode a).isNan = true from hx, show (f.decode b).isNan = true from hy]
  · simp [r, Fmt.minMax, show (f.decode a).isNan = true from hx, show (f.decode b).isNan = false from hy]
  · simp [r, Fmt.minMax, show (f.decode a).isNan = false from hx, show (f.decode b).isNan = true from hy]
  · rw [f.decode_clearSign]
    exact FVal.rat_mag h
  · rw [f.decode_clearSign, show f.decode a = _ from h]
    rfl
end

/-! ## Classes (R113) -/

theorem Fmt.Ieee.fclassEl_spec {f : Fmt} (hf : f.Ieee) (x : Nat) : (∀ g, f.decode x = .nan g → fclassEl f x = 2 ^ if g then 8 else 9) ∧
    (∀ n, f.decode x = .inf n → fclassEl f x = 2 ^ if n then 0 else 7) ∧
    ∀ n m e, f.decode x = .fin n m e → fclassEl f x = 2 ^
      if m = 0 then (if n then 3 else 4)
      else if (m : Rat) * 2 ^ e < 2 ^ (1 - f.bias : Int) then (if n then 2 else 5) else if n then 1 else 6 := by
  refine ⟨fun g h => ?_, fun n h => ?_, fun n m e h => ?_⟩
  · cases g <;> simp [fclassEl, h]
  · cases n <;> simp [fclassEl, h]
  · obtain ⟨low, -, -, normal⟩ := hf.fin_bounds h
    have least : (2 : Rat) ^ (1 - f.bias) = (2 ^ f.mb : Nat) * 2 ^ f.lo := by
      rw [← two_zpow_nat, ← two_zpow_add]
      congr 1
      simp only [Fmt.lo]
      ring
    have subnormal : (m : Rat) * 2 ^ e < 2 ^ (1 - f.bias) ↔ m < 2 ^ f.mb := by
      rw [least]
      constructor
      · intro g
        by_contra ge
        have := mul_le_mul (Nat.cast_le (α := Rat).mpr (not_lt.mp ge)) (two_zpow_le.mpr low) (two_zpow_pos _).le m.cast_nonneg
        linarith
      · intro g
        obtain rfl : e = f.lo := by
          by_contra ne
          exact absurd (normal ne) (not_le.mpr g)
        exact mul_lt_mul_of_pos_right (Nat.cast_lt.mpr g) (two_zpow_pos _)
    simp only [fclassEl, h, subnormal, beq_iff_eq]
    split
    · cases n <;> rfl
    · split
      · cases n <;> rfl
      · cases n <;> rfl

/-! ## Values that a format holds round to themselves -/

/-- A normal significand is encoded by its exponent field and the bits after its leading one. -/
theorem Fmt.encodeMag_normal (f : Fmt) {M E : Nat} (hM : M < 2 ^ f.mb) :
    f.encodeMag (M + 2 ^ f.mb) (f.lo + E - 1) = E * 2 ^ f.mb + M := by
  have double : 2 ^ (f.mb + 1) = 2 * 2 ^ f.mb := Nat.pow_succ'
  have field : (f.lo + E - 1 + f.bias + f.mb).toNat = E := by
    simp only [Fmt.lo]
    omega
  rw [Fmt.encodeMag, if_neg (by omega), if_pos (by omega), field, Nat.add_sub_cancel]

namespace Fmt.Ieee

variable {f : Fmt} (hf : f.Ieee)
include hf

/-- An encoding below the next bit after the sign is the sign and the encoded magnitude of what it stands for. -/
theorem eq_encodeMag {b : Nat} (hb : b < 2 * f.signBit) {n : Bool} {m : Nat} {e : Int} (h : f.decode b = .fin n m e) :
    b = (if n then f.signBit else 0) + f.encodeMag m e := by
  have split : f.signBit = 2 ^ f.mb * 2 ^ f.eb := by rw [Fmt.signBit, Nat.add_comm, Nat.pow_add]
  have whole : b = b % 2 ^ f.mb + 2 ^ f.mb * (b / 2 ^ f.mb % 2 ^ f.eb) + f.signBit * (b / f.signBit) := by
    have low := Nat.mod_add_div b (2 ^ f.mb)
    have high := Nat.mod_add_div (b / 2 ^ f.mb) (2 ^ f.eb)
    rw [Nat.div_div_eq_div_mul, ← split] at high
    rw [split, mul_assoc, ← split, add_assoc, ← mul_add, high, low]
  have sign : b / f.signBit < 2 := Nat.div_lt_of_lt_mul (by rwa [mul_comm] at hb)
  have signed : f.signBit * (b / f.signBit) = if (b / f.signBit % 2 == 1) = true then f.signBit else 0 := by
    obtain g | g : b / f.signBit = 0 ∨ b / f.signBit = 1 := by generalize b / f.signBit = x at *; omega
    · simp [g]
    · simp [g]
  have small : b % 2 ^ f.mb < 2 ^ f.mb := Nat.mod_lt _ (Nat.two_pow_pos _)
  rw [signed] at whole
  simp only [Fmt.decode, hf.sp, beq_iff_eq] at h
  split at h
  · split at h <;> cases h
  · split at h
    · next zero =>
      cases h
      rw [Fmt.encodeMag, if_pos small]
      simpa [zero, add_comm] using whole
    · cases h
      rw [show (1 - f.bias - f.mb : Int) = f.lo from rfl, f.encodeMag_normal small, add_comm, mul_comm, add_comm (_ * _)]
      simpa using whole

/-- A lower place holds a smaller magnitude. -/
theorem lt_of_place {b c : Nat} {x y : Bool} {m k : Nat} {e g : Int} (hb : f.decode b = .fin x m e) (hc : f.decode c = .fin y k g)
    (lt : e < g) : (m : Rat) * 2 ^ e < k * 2 ^ g := by
  obtain ⟨low, -, sig, -⟩ := hf.fin_bounds hb
  obtain ⟨-, -, -, normal⟩ := hf.fin_bounds hc
  calc (m : Rat) * 2 ^ e < (2 ^ (f.mb + 1) : Nat) * 2 ^ e := mul_lt_mul_of_pos_right (Nat.cast_lt.mpr sig) (two_zpow_pos e)
    _ = 2 ^ ((f.mb : Int) + (e + 1)) := by
      rw [← two_zpow_nat, ← two_zpow_add]
      congr 1
      push_cast
      ring
    _ ≤ 2 ^ ((f.mb : Int) + g) := two_zpow_le.mpr (by omega)
    _ = (2 ^ f.mb : Nat) * 2 ^ g := by rw [two_zpow_add, two_zpow_nat]
    _ ≤ k * 2 ^ g := mul_le_mul_of_nonneg_right (Nat.cast_le.mpr (normal (by omega))) (two_zpow_pos g).le

/-- A finite value has one encoding. -/
theorem decode_inj {b c : Nat} (hb : b < 2 * f.signBit) (hc : c < 2 * f.signBit) {n : Bool} {m k : Nat} {e g : Int}
    (db : f.decode b = .fin n m e) (dc : f.decode c = .fin n k g) (value : (m : Rat) * 2 ^ e = k * 2 ^ g) : b = c := by
  obtain rfl : e = g := by
    rcases lt_trichotomy e g with lt | same | gt
    · exact absurd value (hf.lt_of_place db dc lt).ne
    · exact same
    · exact absurd value (hf.lt_of_place dc db gt).ne'
  obtain rfl : m = k := by
    have := mul_right_cancel₀ (two_zpow_pos e).ne' value
    exact_mod_cast this
  rw [hf.eq_encodeMag hb db, ← hf.eq_encodeMag hc dc]

/-- A value of the format is rounded to itself, without a flag. -/
theorem round_of_grid (neg : Bool) (m : Nat) (e : Int) (grid : f.OnGrid (m * 2 ^ e)) (small : (m : Rat) * 2 ^ e < 2 ^ (f.bias + 1)) :
    let r := f.round rmRn false 0 ⟨neg, m, e, false⟩
    r.fl = 0 ∧ r.bits < 2 * f.signBit ∧ ∃ k g, f.decode r.bits = .fin neg k g ∧ (k : Rat) * 2 ^ g = m * 2 ^ e := by
  have max : f.maxBits < f.signBit := by
    have top : (2 ^ f.eb - 1) * 2 ^ f.mb ≤ 2 ^ f.eb * 2 ^ f.mb := Nat.mul_le_mul_right _ (Nat.sub_le _ _)
    have pos := Nat.two_pow_pos (f.eb + f.mb)
    simp only [Fmt.maxBits, hf.sp, Fmt.infBits, Fmt.signBit]
    rw [← Nat.pow_add] at top
    omega
  by_cases zero : m = 0
  · subst zero
    have top := hf.top_eq
    have bias := hf.bias_pos
    have decoded := hf.decode_fields neg (E := 0) (M := 0) (by omega) (Nat.two_pow_pos _)
    rw [Nat.zero_mul, Nat.add_zero, if_pos rfl] at decoded
    refine ⟨rfl, ?_, _, _, decoded, by simp⟩
    change (if neg then f.signBit else 0) < _
    split <;> omega
  · obtain ⟨k, t, up, h, hup, result⟩ := f.round_eq (mode := rmRn) (by decide) neg zero e
    have exact : t = 0 := by
      rcases h.gap grid with g | g
      · rw [h.eq] at g
        have := le_of_mul_le_mul_right g (two_zpow_pos _)
        linarith [h.nonneg]
      · exact absurd h.lt_next (not_lt.mpr g)
    have value := (h.taken_eq_iff hup).mpr exact
    have finite : ¬ f.maxBits < f.encodeMag (if up then k + 1 else k) (f.quantum (Nat.log2 m + e)) := by
      rw [hf.maxBits_lt_encodeMag (h.taken_le up) (f.lo_le_quantum _) (h.taken_normal up), value]
      exact not_le.mpr small
    obtain ⟨k', g, decoded, same⟩ := hf.decode_encodeMag (h.taken_le up) (f.lo_le_quantum _) (h.taken_normal up) neg finite
    rw [result]
    simp only [if_neg finite, if_pos exact]
    refine ⟨trivial, ?_, k', g, decoded, same.trans value⟩
    split <;> omega
end Fmt.Ieee

/-! ## Rounding to integers (R55, R114) -/

/-- An integer by its sign and magnitude. -/
def signedInt (n : Bool) (k : Nat) : Int := if n then -k else k

theorem signedInt_cast (n : Bool) (k : Nat) : (signedInt n k : Rat) = signRat n * k := by
  cases n <;> simp [signedInt]

theorem natAbs_signedInt (n : Bool) (k : Nat) : (signedInt n k).natAbs = k := by
  cases n
  · exact Int.natAbs_natCast k
  · exact (Int.natAbs_neg _).trans (Int.natAbs_natCast k)

theorem signedInt_even {n : Bool} {k : Nat} (h : k % 2 = 0) : signedInt n k % 2 = 0 := by
  cases n
  · simp only [signedInt, Bool.false_eq_true, if_false]
    omega
  · simp only [signedInt, if_true]
    omega

section
variable {n : Bool} {N : Nat} {t : Rat} (t0 : 0 ≤ t) (t1 : t < 1) {up : Bool}
include t0 t1

/-- To nearest, the even one of two at the same distance. -/
theorem nearest_integer (hup : up = true ↔ GoesUp 0 n (N % 2 == 1) t) :
    let i := signedInt n (if up then N + 1 else N)
    (signRat n * (N + t) - i).abs ≤ 1 / 2 ∧ ((signRat n * (N + t) - i).abs = 1 / 2 → i % 2 = 0) := by
  simp only [signedInt_cast, ← mul_sub, rat_abs_eq, abs_signRat_mul]
  simp only [GoesUp, beq_iff_eq] at hup
  cases up with
  | false =>
    have down : ¬ (1 / 2 < t ∨ t = 1 / 2 ∧ N % 2 = 1) := fun g => Bool.false_ne_true (hup.mpr g)
    rw [not_or, not_and, not_lt] at down
    rw [if_neg Bool.false_ne_true, add_sub_cancel_left, abs_of_nonneg t0]
    exact ⟨down.1, fun half => signedInt_even (by have := down.2 half; omega)⟩
  | true =>
    have above := hup.mp rfl
    have rest : (N : Rat) + t - (N + 1 : Nat) = -(1 - t) := by push_cast; ring
    rw [if_pos rfl, rest, abs_neg, abs_of_pos (by linarith)]
    constructor
    · rcases above with g | g
      · linarith
      · linarith [g.1]
    · intro half
      have := (above.resolve_left (by linarith)).2
      exact signedInt_even (by omega)

/-- Toward zero. -/
theorem truncated_integer (hup : up = true ↔ GoesUp 1 n (N % 2 == 1) t) :
    let i := signedInt n (if up then N + 1 else N)
    (signRat n * (N + t) - i).abs < 1 ∧ (i : Rat).abs ≤ (signRat n * (N + t)).abs := by
  obtain rfl : up = false := by simpa [GoesUp] using hup
  simp only [signedInt_cast, ← mul_sub, rat_abs_eq, abs_signRat_mul, Bool.false_eq_true, if_false, add_sub_cancel_left]
  rw [abs_of_nonneg t0, abs_of_nonneg (Nat.cast_nonneg N), abs_of_nonneg (add_nonneg N.cast_nonneg t0)]
  exact ⟨t1, by linarith⟩

/-- The multiple taken is the least one from the number on exactly where the mode goes up at any rest. -/
theorem up_bounds (hup : up = true ↔ t ≠ 0) :
    (N : Rat) + t ≤ (if up then N + 1 else N : Nat) ∧ ((if up then N + 1 else N : Nat) : Rat) < N + t + 1 := by
  cases up with
  | false =>
    obtain rfl : t = 0 := by simpa using hup
    simp
  | true =>
    have pos : 0 < t := lt_of_le_of_ne t0 (hup.mp rfl).symm
    rw [if_pos rfl]
    push_cast
    exact ⟨by linarith, by linarith⟩

/-- Upward. -/
theorem ceil_integer (hup : up = true ↔ GoesUp 2 n (N % 2 == 1) t) :
    let i := signedInt n (if up then N + 1 else N)
    signRat n * (N + t) ≤ i ∧ (i : Rat) < signRat n * (N + t) + 1 := by
  simp only [signedInt_cast]
  cases n with
  | false =>
    simp only [signRat_false, one_mul]
    exact up_bounds t0 t1 (by simpa [GoesUp] using hup)
  | true =>
    obtain rfl : up = false := by simpa [GoesUp] using hup
    simp only [signRat_true, neg_one_mul, Bool.false_eq_true, if_false]
    exact ⟨by linarith, by linarith⟩

/-- Downward. -/
theorem floor_integer (hup : up = true ↔ GoesUp 3 n (N % 2 == 1) t) :
    let i := signedInt n (if up then N + 1 else N)
    (i : Rat) ≤ signRat n * (N + t) ∧ signRat n * (N + t) < i + 1 := by
  simp only [signedInt_cast]
  cases n with
  | false =>
    obtain rfl : up = false := by simpa [GoesUp] using hup
    simp only [signRat_false, one_mul, Bool.false_eq_true, if_false]
    exact ⟨by linarith, by linarith⟩
  | true =>
    obtain ⟨low, high⟩ := up_bounds (N := N) t0 t1 (up := up) (by simpa [GoesUp] using hup)
    simp only [signRat_true, neg_one_mul]
    exact ⟨by linarith, by linarith⟩
end

/-- What a mode chooses among the integers (Table 2.3, R114). -/
def IntegerOf (mode : Nat) (q : Rat) (k : Int) : Prop :=
  (mode = 0 → (q - k).abs ≤ 1 / 2 ∧ ((q - k).abs = 1 / 2 → k % 2 = 0)) ∧
  (mode = 1 → (q - k).abs < 1 ∧ (k : Rat).abs ≤ q.abs) ∧ (mode = 2 → q ≤ k ∧ (k : Rat) < q + 1) ∧
  (mode = 3 → (k : Rat) ≤ q ∧ q < k + 1)

/-- An integer is chosen for itself. -/
theorem integerOf_self (mode : Nat) {q : Rat} {k : Int} (h : q = k) : IntegerOf mode q k := by
  subst h
  refine ⟨fun _ => ⟨?_, fun g => ?_⟩, fun _ => ⟨?_, le_rfl⟩, fun _ => ⟨le_rfl, ?_⟩, fun _ => ⟨le_rfl, ?_⟩⟩
  · rw [sub_self, rat_abs_eq, abs_zero]
    norm_num
  · rw [sub_self, rat_abs_eq, abs_zero] at g
    norm_num at g
  · rw [sub_self, rat_abs_eq, abs_zero]
    exact one_pos
  · exact lt_add_one _
  · exact lt_add_one _

/-- A number split at the units, and the integer that a mode takes. -/
theorem roundToInt_spec {mode : Nat} (hm : mode < 4) (n : Bool) (m : Nat) (e : Int) :
    ∃ (N : Nat) (t : Rat) (up : Bool), (m : Rat) * 2 ^ e = N + t ∧ 0 ≤ t ∧ t < 1 ∧ (0 ≤ e → t = 0) ∧ (e < 0 → N ≤ m / 2) ∧
      (up = true ↔ GoesUp mode n (N % 2 == 1) t) ∧
      (roundToInt mode 0 ⟨n, m, e, false⟩).1 = signedInt n (if up then N + 1 else N) := by
  refine ⟨_, _, _, (splitAt_eq m e 0).trans (by rw [zpow_zero, mul_one]), by positivity, ?_, fun h => ?_, fun h => ?_,
    roundsUp_iff hm n _ (splitAt_rest_lt m e 0) 0, rfl⟩
  · rw [div_lt_one (by positivity)]
    exact_mod_cast splitAt_rest_lt m e 0
  · simp [splitAt, h]
  · rw [splitAt, if_neg (not_le.mpr h)]
    exact Nat.div_le_div_left (Nat.le_self_pow (show (0 - e).toNat ≠ 0 by omega) 2) two_pos

theorem roundToInt_integerOf {mode : Nat} (hm : mode < 4) {n up : Bool} {N : Nat} {t : Rat} (t0 : 0 ≤ t) (t1 : t < 1)
    (hup : up = true ↔ GoesUp mode n (N % 2 == 1) t) : IntegerOf mode (signRat n * (N + t)) (signedInt n (if up then N + 1 else N)) := by
  refine ⟨?_, ?_, ?_, ?_⟩
  · rintro rfl
    exact nearest_integer t0 t1 hup
  · rintro rfl
    exact truncated_integer t0 t1 hup
  · rintro rfl
    exact ceil_integer t0 t1 hup
  · rintro rfl
    exact floor_integer t0 t1 hup

/-- At a number without a rest, no mode goes up. -/
theorem not_goesUp_zero {mode : Nat} {n odd : Bool} : ¬ GoesUp mode n odd 0 := by
  unfold GoesUp
  split <;> norm_num

/-- A rest below one that leaves an integer is none. -/
theorem rest_eq_zero {n : Bool} {N : Nat} {t : Rat} (t0 : 0 ≤ t) (t1 : t < 1) {k : Int} (h : signRat n * (N + t) = k) : t = 0 := by
  have whole : t = ((signedInt n 1 * k - N : Int) : Rat) := by
    push_cast
    rw [← h, signedInt_cast, Nat.cast_one, mul_one, signRat_mul_self, add_sub_cancel_left]
  rw [whole] at t0 t1 ⊢
  have : 0 ≤ signedInt n 1 * k - N := by exact_mod_cast t0
  have : signedInt n 1 * k - N < 1 := by exact_mod_cast t1
  rw [show signedInt n 1 * k - N = 0 by omega, Int.cast_zero]

namespace Fmt.Ieee

variable {f : Fmt} (hf : f.Ieee)
include hf

/-- A finite value lies below 2^(bias + 1). -/
theorem value_lt {b : Nat} {n : Bool} {m : Nat} {e : Int} (h : f.decode b = .fin n m e) : (m : Rat) * 2 ^ e < 2 ^ (f.bias + 1) := by
  obtain ⟨-, high, sig, -⟩ := hf.fin_bounds h
  calc (m : Rat) * 2 ^ e < (2 ^ (f.mb + 1) : Nat) * 2 ^ e := mul_lt_mul_of_pos_right (Nat.cast_lt.mpr sig) (two_zpow_pos e)
    _ = 2 ^ (((f.mb + 1 : Nat) : Int) + e) := by rw [two_zpow_add, two_zpow_nat]
    _ ≤ 2 ^ (f.bias + 1) := two_zpow_le.mpr (by push_cast; omega)

/-- A lesser multiple of the place of a value is a value too. -/
theorem onGrid_of_le {b : Nat} {n : Bool} {m k : Nat} {e : Int} (h : f.decode b = .fin n m e) (le : k ≤ m) : f.OnGrid (k * 2 ^ e) := by
  obtain ⟨low, -, sig, -⟩ := hf.fin_bounds h
  exact f.onGrid_fin false (m := k) (by omega) low (by rw [FVal.rat_fin, signRat_false, one_mul])

/-- An integral element and a zero stand, and any other one rounds to an integer of the format (R114). -/
theorem frndEl_spec (wide : (f.mb : Int) ≤ f.bias) {mode : Nat} (hm : mode < 4) {x : Nat} (hx : x < 2 * f.signBit) {n : Bool} {m : Nat} {e : Int}
    (h : f.decode x = .fin n m e) : let r := frndEl f mode x
    let q := signRat n * (m * (2 : Rat) ^ e)
    r.fl = 0 ∧ (f.decode r.bits).neg = n ∧ ((∃ k : Int, q = k) → r.bits = x) ∧
      ∃ k : Int, (f.decode r.bits).rat = some (k : Rat) ∧ IntegerOf mode q k := by
  intro r q
  by_cases zero : m = 0
  · subst zero
    have hr : r = ⟨x, 0⟩ := by simp [r, frndEl, h]
    have value : q = (0 : Int) := by simp [q]
    rw [hr]
    exact ⟨rfl, by rw [h]; rfl, fun _ => rfl, 0, by rw [h, FVal.rat_fin]; exact congrArg some value, integerOf_self mode value⟩
  · obtain ⟨N, t, up, split, t0, t1, whole, small, hup, result⟩ := roundToInt_spec hm n m e
    have magnitude : (roundToInt mode 0 ⟨n, m, e, false⟩).1.natAbs = if up then N + 1 else N := by
      rw [result, natAbs_signedInt]
    have hr : r = ⟨(f.round rmRn false 0 ⟨n, if up then N + 1 else N, 0, false⟩).bits, 0⟩ := by
      simp only [r, frndEl, h, beq_iff_eq, zero, if_false, magnitude]
    have down : t = 0 → up = false := by
      rintro rfl
      exact Bool.eq_false_iff.mpr (fun g => not_goesUp_zero (hup.mp g))
    have bounds : f.OnGrid ((if up then N + 1 else N : Nat) * 2 ^ (0 : Int)) ∧
        ((if up then N + 1 else N : Nat) : Rat) * 2 ^ (0 : Int) < 2 ^ (f.bias + 1) := by
      by_cases rest : t = 0
      · rw [down rest, if_neg Bool.false_ne_true, zpow_zero, mul_one, ← add_zero (N : Rat), ← rest, ← split]
        exact ⟨hf.onGrid_of_le h le_rfl, hf.value_lt h⟩
      · obtain ⟨-, -, sig, -⟩ := hf.fin_bounds h
        have double : 2 ^ (f.mb + 1) = 2 * 2 ^ f.mb := Nat.pow_succ'
        have half : N ≤ m / 2 := small (by by_contra g; exact rest (whole (not_lt.mp g)))
        have le : (if up then N + 1 else N) ≤ 2 ^ f.mb := by
          split <;> omega
        have bias := hf.bias_pos
        have one : 1 ≤ 2 ^ f.mb := Nat.one_le_two_pow
        refine ⟨f.onGrid_fin false (m := if up then N + 1 else N) (e := 0) (by omega) (by simp only [Fmt.lo]; omega)
          (by rw [FVal.rat_fin, signRat_false, one_mul]), ?_⟩
        rw [zpow_zero, mul_one]
        calc ((if up then N + 1 else N : Nat) : Rat) ≤ (2 ^ f.mb : Nat) := Nat.cast_le.mpr le
          _ = 2 ^ (f.mb : Int) := (two_zpow_nat _).symm
          _ < 2 ^ (f.bias + 1) := two_zpow_lt.mpr (by omega)
    obtain ⟨-, encoded, k, g, decoded, value⟩ := hf.round_of_grid n _ 0 bounds.1 bounds.2
    rw [zpow_zero, mul_one] at value
    have value_x : q = signRat n * (N + t) := by simp only [q, split]
    rw [hr]
    refine ⟨rfl, by rw [decoded]; rfl, fun ⟨i, hi⟩ => ?_, signedInt n (if up then N + 1 else N), ?_, ?_⟩
    · have rest := rest_eq_zero t0 t1 (value_x.symm.trans hi)
      refine hf.decode_inj encoded hx decoded h ?_
      rw [value, down rest, if_neg Bool.false_ne_true, split, rest, add_zero]
    · rw [decoded, FVal.rat_fin, value, signedInt_cast]
    · rw [value_x]
      exact roundToInt_integerOf hm t0 t1 hup

/-- frnd by the class of its operand. -/
theorem frndEl_cases (wide : (f.mb : Int) ≤ f.bias) {mode : Nat} (hm : mode < 4) {x : Nat} (hx : x < 2 * f.signBit) : let r := frndEl f mode x
    (∀ g, f.decode x = .nan g → r = ⟨f.nan, if g then fNV else 0⟩) ∧ ((f.decode x).isInf = true → r = ⟨x, 0⟩) ∧
    ∀ q, (f.decode x).rat = some q → r.fl = 0 ∧ (f.decode r.bits).neg = (f.decode x).neg ∧
      ((∃ k : Int, q = k) → r.bits = x) ∧ ∃ k : Int, (f.decode r.bits).rat = some (k : Rat) ∧ IntegerOf mode q k := by
  intro r
  refine ⟨fun g h => ?_, fun h => ?_, fun q h => ?_⟩
  · simp only [r, frndEl, h]
    rfl
  · cases d : f.decode x with
    | inf n => simp only [r, frndEl, d]
    | nan g => rw [d] at h; cases h
    | fin n m e => rw [d] at h; cases h
  · obtain ⟨n, m, e, d, rfl⟩ := FVal.fin_of_rat h
    rw [d]
    exact hf.frndEl_spec wide hm hx d

/-- The fraction of a finite element is exact (R110). -/
theorem ffracEl_spec {x : Nat} {n : Bool} {m : Nat} {e : Int} (h : f.decode x = .fin n m e) : let r := ffracEl f x
    r.fl = 0 ∧ (f.decode r.bits).neg = n ∧ ∃ k : Nat, (f.decode r.bits).rat =
      (f.decode x).rat.map (fun v => v - (if n then -(k : Rat) else k)) ∧ ∀ y, (f.decode r.bits).rat = some y → y.abs < 1 := by
  intro r
  obtain ⟨k, p, hr, split, le, below⟩ : ∃ k p : Nat, r = f.round rmRn false 0 ⟨n, p, e, false⟩ ∧
      (p : Rat) * 2 ^ e = m * 2 ^ e - k ∧ p ≤ m ∧ (p : Rat) * 2 ^ e < 1 := by
    have hr : r = f.round rmRn false 0 ⟨n, if 0 ≤ e then 0 else m % 2 ^ (-e).toNat, e, false⟩ := by
      simp only [r, ffracEl, h]
    by_cases whole : 0 ≤ e
    · rw [if_pos whole] at hr
      refine ⟨m * 2 ^ e.toNat, 0, hr, ?_, Nat.zero_le m, by simp⟩
      have value := magnitude_shift m whole
      rw [sub_zero, zpow_zero, mul_one] at value
      rw [value, sub_self, Nat.cast_zero, zero_mul]
    · rw [if_neg whole] at hr
      have unit : ((2 ^ (-e).toNat : Nat) : Rat) * 2 ^ e = 1 := by
        rw [← two_zpow_nat, ← two_zpow_add, show ((-e).toNat : Int) + e = 0 by omega, zpow_zero]
      refine ⟨m / 2 ^ (-e).toNat, _, hr, ?_, Nat.mod_le _ _, ?_⟩
      · have div : ((2 ^ (-e).toNat : Nat) : Rat) * (m / 2 ^ (-e).toNat : Nat) + (m % 2 ^ (-e).toNat : Nat) = m := by
          exact_mod_cast Nat.div_add_mod m _
        linear_combination (2 : Rat) ^ e * div - ((m / 2 ^ (-e).toNat : Nat) : Rat) * unit
      · rw [← unit]
        exact mul_lt_mul_of_pos_right (by exact_mod_cast Nat.mod_lt m (Nat.two_pow_pos _)) (two_zpow_pos e)
  have small : (p : Rat) * 2 ^ e < 2 ^ (f.bias + 1) :=
    (mul_le_mul_of_nonneg_right (Nat.cast_le.mpr le) (two_zpow_pos e).le).trans_lt (hf.value_lt h)
  obtain ⟨flags, -, i, g, decoded, value⟩ := hf.round_of_grid n p e (hf.onGrid_of_le h le) small
  rw [hr]
  have signed : (if n then -(k : Rat) else k) = signRat n * k := by
    cases n <;> simp
  refine ⟨flags, by rw [decoded]; rfl, k, ?_, fun y hy => ?_⟩
  · rw [decoded, h, FVal.rat_fin, FVal.rat_fin, value, split, Option.map_some, signed, mul_sub]
  · rw [decoded, FVal.rat_fin, value, Option.some.injEq] at hy
    rw [← hy, rat_abs_eq, abs_signRat_mul, abs_of_nonneg (mul_nonneg p.cast_nonneg (two_zpow_pos e).le)]
    exact below
end Fmt.Ieee

/-! ## The instructions -/

/-- The exponent of the leading bit (R114). -/
theorem gives_fgetx : Gives .fgetx (fun _ => 1) (fun s o c w l ws fl =>
    match fmtF32.decode ((s.elemsB (.fgetx o) c w l).getD 0 0) with
    | .nan _ => ws = [0x80000000] ∧ fl = fNV
    | .inf _ => ws = [0x7FFFFFFF] ∧ fl = 0
    | .fin _ m e => (m = 0 → ws = [0x80000000] ∧ fl = fDZ) ∧
        (m ≠ 0 → fl = 0 ∧ ∃ k : Nat, ws = [BitVec.ofInt 32 (k + e)] ∧ 2 ^ k ≤ m ∧ m < 2 ^ (k + 1))) := by
  refine gives_perLane (fun e s l => ([(fgetxEl ((e.fb s l).getD 0 0)).1], (fgetxEl ((e.fb s l).getD 0 0)).2)) (fun _ _ => rfl)
    (fun _ _ _ _ => Nat.le_refl 1) (fun _ => rfl) (fun s o c w _ l _ => ?_)
  simp only [Env.fb_advance]
  generalize (s.elemsB (.fgetx o) c w l).getD 0 0 = x
  rw [fgetxEl]
  cases fmtF32.decode x with
  | nan g => exact ⟨rfl, rfl⟩
  | inf n => exact ⟨rfl, rfl⟩
  | fin n m e =>
    by_cases zero : m = 0
    · simp [zero]
    · simp only [beq_iff_eq, zero, if_false]
      exact ⟨fun g => g.elim, fun _ => ⟨trivial, _, rfl, Nat.log2_self_le zero, Nat.lt_log2_self⟩⟩

/-- A word of elements of B in each lane, without flags. -/
theorem gives_elements {mk : Operands → Instr} (g : Fmt → Nat → Nat)
    (he : ∀ o s, exec (mk o) s = issue (mk o) s (fun e s => s.perWord e (fun l =>
      ofElems e.ty ((e.fb s l).map (g (fmtOfTy e.ty))))))
    (ho : ∀ o, (mk o).operands = o) : Gives mk (fun _ => 1) (fun s o c w l ws fl => fl = 0 ∧
      ws = [ofElems (s.env (mk o) c w).ty ((s.elemsB (mk o) c w l).map (g (fmtOfTy (s.env (mk o) c w).ty)))]) :=
  gives_perLane (fun e s l => ([ofElems e.ty ((e.fb s l).map (g (fmtOfTy e.ty)))], 0)) he (fun _ _ _ _ => Nat.le_refl 1) ho
    (fun s o c w _ l _ => ⟨rfl, by rw [Env.fb_advance]⟩)

/-- Settles O8: the elements of `State.fop`, the order of the numbers for the selections, and for frnd and ffrac that a value of
the format rounds to itself. -/
theorem floatSelectResults : Obligations.FloatSelectResults := by
  unfold Obligations.FloatSelectResults
  have ieee {f : Fmt} (h : f ∈ [fmtF32, fmtF16, fmtBf16]) : f.Ieee ∧ (f.mb : Int) ≤ f.bias := by
    simp only [List.mem_cons, List.not_mem_nil, or_false] at h
    obtain rfl | rfl | rfl := h
    · exact ⟨Fmt.ieee_of_mem (by simp), by decide⟩
    · exact ⟨Fmt.ieee_of_mem (by simp), by decide⟩
    · exact ⟨Fmt.ieee_of_mem (by simp), by decide⟩
  refine ⟨⟨?_, ?_, ?_, ?_, ?_, ?_, fun f _ isMax a b => minMax_spec f a b isMax⟩, ?_, fun f hf x => (ieee hf).1.fclassEl_spec x, ?_,
    fun f hf mode hm x hx => (ieee hf).1.frndEl_cases (ieee hf).2 hm hx, gives_fgetx, ?_, fun f hf x m e n h => (ieee hf).1.ffracEl_spec h⟩
  · exact givesElems_of_fop (fun _ _ => rfl) (fun _ => rfl)
  · exact givesElems_of_fop (fun _ _ => rfl) (fun _ => rfl)
  · exact givesElems_of_fop (fun _ _ => rfl) (fun _ => rfl)
  · exact givesElems_of_fop (fun _ _ => rfl) (fun _ => rfl)
  · exact givesElems_of_fop (fun _ _ => rfl) (fun _ => rfl)
  · refine gives_perLane (fun e s l => ([ofElems e.ty (e.fb s l)], 0)) (fun _ _ => rfl) (fun _ _ _ _ => Nat.le_refl 1) (fun _ => rfl)
      (fun s o c w _ l _ => ⟨rfl, by rw [Env.fb_advance]⟩)
  · exact gives_elements fclassEl (fun _ _ => rfl) (fun _ => rfl)
  · exact givesElems_of_fop (fun _ _ => rfl) (fun _ => rfl)
  · exact givesElems_of_fop (fun _ _ => rfl) (fun _ => rfl)

end Sys2Proof.Machine

namespace Sys2Proof.Machine

/-! ## What a machine's lanes hold, and its memories but the scratchpads -/

/-- Registers, flags and generator of a lane. -/
def Lane.contents (x : Lane) : Cells 32 × BitVec 6 × Word := (x.regs, x.fpx, x.gen)

/-- What a warp's lanes hold. -/
def Warp.contents (w : Warp) : Nat × List (Cells 32 × BitVec 6 × Word) := (w.wid, w.lanes.map Lane.contents)

/-- What the lanes of all warps hold, main and host memory, and each block's shared memory and weight buffer. -/
structure Contents where
  warps : List (Nat × List (Cells 32 × BitVec 6 × Word))
  dram : Memory
  host : Memory
  blocks : List (Nat × Memory × Memory)

def State.contents (s : State) : Contents :=
  ⟨s.warps.map Warp.contents, s.dram, s.hostMem, s.blocks.map (fun b => (b.bid, b.shared, b.wb))⟩

/-- Changes of warps that keep what their lanes hold keep it in the machine. -/
theorem State.contents_modWarp (s : State) (wid : Nat) (f : Warp → Warp) (hf : ∀ w, (f w).contents = w.contents) :
    (s.modWarp wid f).contents = s.contents :=
  congrArg (Contents.mk · s.dram s.hostMem _) (s.map_modWarp wid f Warp.contents hf)

theorem Warp.contents_modLane (w : Warp) (l : Nat) (f : Lane → Lane) (hf : ∀ x, (f x).contents = x.contents) :
    (w.modLane l f).contents = w.contents := by
  refine congrArg (Prod.mk w.wid) (List.ext_getElem? fun i => ?_)
  rw [List.getElem?_map, List.getElem?_map]
  change ((w.lanes.modify l f)[i]?).map _ = _
  rw [List.getElem?_modify]
  cases w.lanes[i]? with
  | none => rfl
  | some x =>
    refine congrArg some ?_
    change (if l = i then f x else x).contents = x.contents
    split
    · exact hf x
    · rfl

theorem State.contents_modLanes (s : State) (wid : Nat) (ls : List Nat) (f : Lane → Lane) (hf : ∀ x, (f x).contents = x.contents) :
    (s.modLanes wid ls f).contents = s.contents :=
  s.contents_modWarp wid _ (fun w => foldl_keeps _ Warp.contents (fun w l => w.contents_modLane l f hf) ls w)

theorem State.contents_advance (s : State) (c : Cur) : (s.advance c).contents = s.contents := by
  obtain ⟨f, hf, h⟩ := s.advance_eq c
  rw [h]
  refine s.contents_modLanes c.wid c.lanes f (fun x => ?_)
  obtain ⟨pc, half, repc, e⟩ := hf x
  rw [e]
  rfl

theorem State.contents_putRecord (s : State) (w : Warp) (r : Record) : (s.putRecord w r).contents = s.contents := by
  unfold State.putRecord
  split <;> rfl

theorem State.contents_updateRecord (s : State) (wid seq : Nat) (f : Record → Record) : (s.updateRecord wid seq f).contents = s.contents := by
  have changed : (s.modRecord wid seq f).contents = s.contents := s.contents_modWarp wid _ (fun _ => by rfl)
  unfold State.updateRecord
  dsimp only
  split
  · exact changed
  · split
    · exact changed
    · split
      · exact changed
      · exact changed
      · exact changed

/-- A record marked as resolved, before it is dropped (R223). -/
def State.resolved (s : State) (wid seq : Nat) : State := s.updateRecord wid seq (fun r => { r with state := .resolved })

/-- A resolution marks a record, and drops it or not. -/
theorem State.resolve_eq (s : State) (wid seq : Nat) : s.resolve wid seq = s.resolved wid seq ∨
    s.resolve wid seq = (s.resolved wid seq).freeRecord wid seq := by
  unfold State.resolve
  dsimp only
  split
  · exact .inl rfl
  · split
    · exact .inl rfl
    · split
      · split
        · exact .inl rfl
        · exact .inr rfl
      · exact .inr rfl

theorem State.contents_resolve (s : State) (wid seq : Nat) : (s.resolve wid seq).contents = s.contents := by
  rcases s.resolve_eq wid seq with h | h
  · rw [h]
    exact s.contents_updateRecord wid seq _
  · rw [h]
    exact (State.contents_modWarp _ wid _ (fun _ => by rfl)).trans (s.contents_updateRecord wid seq _)

theorem State.laneAt_resolve (s : State) (wid seq v l : Nat) : (s.resolve wid seq).laneAt v l = s.laneAt v l := by
  have marked : (s.resolved wid seq).laneAt v l = s.laneAt v l :=
    (State.laneAt_of_warps (s.updateRecord_warps wid seq _) v l).trans
      (s.laneAt_modWarp_of_lanes wid _ (fun _ => by rfl) (fun _ => by rfl) v l)
  rcases s.resolve_eq wid seq with h | h
  · rw [h, marked]
  · rw [h]
    exact (State.laneAt_modWarp_of_lanes _ wid _ (fun _ => by rfl) (fun _ => by rfl) v l).trans marked

theorem State.contents_endLane (s : State) (wid l : Nat) : (s.endLane wid l).contents = s.contents := by
  have ended : (s.modLane wid l Lane.endedOf).contents = s.contents :=
    s.contents_modWarp wid _ (fun w => w.contents_modLane l _ (fun _ => rfl))
  have blocks (t : State) (b : Nat) (f : Block → List Barrier) : (t.modBlock b (fun x => { x with barriers := f x })).contents = t.contents := by
    refine congrArg (Contents.mk _ t.dram t.hostMem) ?_
    simp only [State.modBlock, List.map_map]
    refine List.map_congr_left fun x _ => ?_
    simp only [Function.comp]
    split <;> rfl
  unfold State.endLane
  dsimp only
  split
  · exact ended
  · exact (blocks _ _ _).trans ended

theorem State.contents_killRecord (s : State) (w : Warp) (r : Record) : (s.killRecord w r).contents = s.contents :=
  (State.contents_resolve _ _ _).trans ((State.contents_modWarp _ _ _ (fun _ => by rfl)).trans
    (foldl_keeps _ State.contents (fun s l => s.contents_endLane w.wid l) r.lanes s))

theorem State.contents_returnFrom (s : State) (w : Warp) (r : Record) : (s.returnFrom w r).contents = s.contents :=
  (State.contents_resolve _ _ _).trans (State.contents_modLanes _ _ _ _ (fun _ => by rfl))

theorem State.contents_addRecord (s : State) (wid : Nat) (mk : Nat → Record) : (s.addRecord wid mk).contents = s.contents := by
  unfold State.addRecord
  split
  · rfl
  · exact (State.contents_putRecord _ _ _).trans (State.contents_modWarp _ _ _ (fun _ => by rfl))

theorem State.contents_preemptSet (s : State) (wid : Nat) (x : (Nat × Nat × Nat) × List Nat) : (s.preemptSet wid x).contents = s.contents := by
  unfold State.preemptSet
  split
  · rfl
  · simp only
    split
    · exact (State.contents_modLanes _ _ _ _ (fun _ => by rfl)).trans (State.contents_addRecord _ _ _)
    · exact (State.contents_modLanes _ _ _ _ (fun _ => by rfl)).trans (State.contents_addRecord _ _ _)

theorem State.contents_preemptWarp (s : State) (wid : Nat) : (s.preemptWarp wid).contents = s.contents := by
  unfold State.preemptWarp
  split
  · rfl
  · exact foldl_keeps _ State.contents (fun s x => s.contents_preemptSet wid x) _ _

theorem State.contents_escalate (s : State) (ctx wid seq : Nat) : (s.escalate ctx wid seq).contents = s.contents := by
  unfold State.escalate
  split
  · rfl
  · split
    · rfl
    · exact foldl_keeps _ State.contents (fun s (w : Warp) => s.contents_preemptWarp w.wid) _ _

section
variable {s t : State} (h : t.contents = s.contents)
include h

/-- Machines of the same contents have the same warps, which hold the same. -/
theorem State.warp?_of_contents (v : Nat) : (t.warp? v).map Warp.contents = (s.warp? v).map Warp.contents := by
  have e (u : State) : (u.warp? v).map Warp.contents = (u.warps.map Warp.contents).find? (fun x => x.1 == v) := by
    rw [List.find?_map]
    rfl
  rw [e, e]
  exact congrArg (fun x : Contents => x.warps.find? (fun x => x.1 == v)) h

theorem State.laneAt_of_contents (v l : Nat) : (t.laneAt v l).contents = (s.laneAt v l).contents := by
  have e (u : State) : (u.laneAt v l).contents =
      (((u.warp? v).map Warp.contents).bind (fun x => x.2[l]?)).getD (Lane.contents { st := .ended }) := by
    rw [State.laneAt]
    cases u.warp? v with
    | none => rfl
    | some w =>
      rw [Option.map_some, Option.getD_some, Warp.lane_eq, Option.map_some, Option.bind_some]
      change _ = ((w.lanes.map Lane.contents)[l]?).getD _
      rw [List.getElem?_map]
      cases w.lanes[l]? <;> rfl
  rw [e, e, State.warp?_of_contents h]

theorem State.memories_of_contents : (∀ a, Cells.get t.dram a = Cells.get s.dram a) ∧
    (∀ a, Cells.get t.hostMem a = Cells.get s.hostMem a) ∧ ∀ b a, t.sharedAt b a = s.sharedAt b a ∧ t.weightAt b a = s.weightAt b a := by
  have e (u : State) (b : Nat) : (u.block? b).map (fun x => (x.bid, x.shared, x.wb)) = u.contents.blocks.find? (fun x => x.1 == b) := by
    rw [State.contents, List.find?_map]
    rfl
  have block (b : Nat) : (t.block? b).map (fun x => (x.bid, x.shared, x.wb)) = (s.block? b).map (fun x => (x.bid, x.shared, x.wb)) := by
    rw [e, e, h]
  have shared (u : State) (b a : Nat) : u.sharedAt b a =
      (((u.block? b).map (fun x => (x.bid, x.shared, x.wb))).map (fun x => Cells.get x.2.1 a)).getD 0 := by
    rw [Option.map_map]
    rfl
  have weight (u : State) (b a : Nat) : u.weightAt b a =
      (((u.block? b).map (fun x => (x.bid, x.shared, x.wb))).map (fun x => Cells.get x.2.2 a)).getD 0 := by
    rw [Option.map_map]
    rfl
  exact ⟨fun a => congrArg (fun x : Contents => Cells.get x.dram a) h, fun a => congrArg (fun x : Contents => Cells.get x.host a) h,
    fun b a => ⟨by rw [shared, shared, block], by rw [weight, weight, block]⟩⟩
end

/-! ## The record that a lane names (R139) -/

/-- The first faulted record of a warp whose header slot lies at a byte of the scratchpad. -/
def Warp.faultedSlot (w : Warp) (a : Nat) : Option Record :=
  w.records.find? (fun r => r.state == .faulted && (match r.place with
    | .slot k => w.slotAddr k == a
    | _ => false))

theorem State.faultedAt_eq (s : State) (w : Warp) (o : Nat) : s.faultedAt w o =
    (s.warps.filter (fun x => x.die == w.die && x.ctx == w.ctx)).findSome? (fun x =>
      (x.faultedSlot (s.spaceAddr w false o)).map (fun r => (x, r))) := rfl

/-- Changes of lanes of a warp do not move the faulted records of the machine. -/
theorem State.faultedAt_modLanes (s : State) (wid : Nat) (ls : List Nat) (f : Lane → Lane) (w : Warp) (o : Nat) :
    (s.modLanes wid ls f).faultedAt w o =
      (s.faultedAt w o).map (fun x => (if x.1.wid == wid then x.1.modLanes ls f else x.1, x.2)) := by
  have same (u : Warp) : ∃ m, (if u.wid == wid then u.modLanes ls f else u) = { u with lanes := m } := by
    split
    · exact ⟨_, Warp.eq_of_still (u.still_modLanes ls f)⟩
    · exact ⟨_, rfl⟩
  have filter : ((fun x : Warp => x.die == w.die && x.ctx == w.ctx) ∘ fun u => if u.wid == wid then u.modLanes ls f else u) =
      fun x => x.die == w.die && x.ctx == w.ctx := by
    funext u
    obtain ⟨m, e⟩ := same u
    simp only [Function.comp, e]
  have slot (u : Warp) (a : Nat) : (if u.wid == wid then u.modLanes ls f else u).faultedSlot a = u.faultedSlot a := by
    obtain ⟨m, e⟩ := same u
    rw [e]
    rfl
  have base : (s.modLanes wid ls f).spaceAddr w false o = s.spaceAddr w false o := rfl
  rw [State.faultedAt_eq, State.faultedAt_eq, base, State.modLanes, State.modWarp, List.filter_map, List.findSome?_map, List.map_findSome?,
    filter]
  congr 1
  funext u
  simp only [Function.comp, slot, Option.map_map]
  rfl

/-- The record of another warp that a lane names is the one named at issue. -/
theorem State.faultedAt_advance_some {s : State} {c : Cur} {w v : Warp} {r : Record} {o : Nat} (h : s.faultedAt w o = some (v, r))
    (apart : v.wid ≠ c.wid) : (s.advance c).faultedAt w o = some (v, r) := by
  refine (s.faultedAt_modLanes c.wid c.lanes _ w o).trans ?_
  simp [h, apart]

theorem State.faultedAt_advance_none {s : State} {c : Cur} {w : Warp} {o : Nat} (h : s.faultedAt w o = none) :
    (s.advance c).faultedAt w o = none := by
  refine (s.faultedAt_modLanes c.wid c.lanes _ w o).trans ?_
  rw [h, Option.map_none]

/-! ## The issue -/

/-- A handler instruction in one lane whose offset lies in the window (R139). -/
theorem State.handlerInstr_single {s : State} {e : Env} {l : Nat} (one : e.p = [l])
    (ok : ((s.ctx? e.w.ctx).map (fun c => c.windowOk e.w.die (e.b s l).toNat 1 true)).getD false = true) :
    (s.faultedAt e.w (e.b s l).toNat = none → ∀ act, s.handlerInstr e act = s.writeRegs e.c.wid (dstWrites l e.o.d [1])) ∧
    ∀ v r, s.faultedAt e.w (e.b s l).toNat = some (v, r) →
      s.handlerInstr e .resume = (s.returnFrom v r).writeRegs e.c.wid (dstWrites l e.o.d [0]) ∧
      s.handlerInstr e .kill = (s.killRecord v r).writeRegs e.c.wid (dstWrites l e.o.d [0]) ∧
      s.handlerInstr e .esc = (s.writeRegs e.c.wid (dstWrites l e.o.d [0])).escalate e.w.ctx v.wid r.seq := by
  have quiet (t : State) : t.raise e [] = t := rfl
  refine ⟨fun h act => ?_, fun v r h => ⟨?_, ?_, ?_⟩⟩
  · simp [State.handlerInstr, one, ok, h, quiet]
  · simp [State.handlerInstr, one, ok, h, quiet]
  · simp [State.handlerInstr, one, ok, h, quiet]
  · simp [State.handlerInstr, one, ok, h, quiet]

/-- A word written to a lane's destination: the register takes it, and nothing else of any lane changes. -/
theorem State.writeRegs_single (s : State) {wid l : Nat} {u : Warp} (hu : s.warp? wid = some u) (hl : l < u.lanes.length) (d : Operand)
    (x : Word) : let t := s.writeRegs wid (dstWrites l d [x])
    (∀ b, d = .reg b → t.regAt wid l b = x) ∧ (∀ v k, t.fpxAt v k = s.fpxAt v k ∧ (t.laneAt v k).gen = (s.laneAt v k).gen) ∧
      ∀ v k n, ¬ (v = wid ∧ k = l ∧ inDst d 1 n = true) → t.regAt v k n = s.regAt v k n := by
  intro t
  have lane (v k : Nat) : t.laneAt v k = if v = wid then (u.writeRegs (dstWrites l d [x])).lane k else s.laneAt v k := by
    refine (State.laneAt_modWarp s v wid k _ (fun w => Warp.wid_writeRegs w _)).trans ?_
    by_cases hv : v = wid
    · subst hv
      rw [hu, Option.map_some, Option.getD_some, if_pos rfl, if_pos rfl]
    · simp only [hv, if_false]
      rfl
  have here (k : Nat) : s.laneAt wid k = u.lane k := by rw [State.laneAt, hu, Option.map_some, Option.getD_some]
  refine ⟨fun b hb => ?_, fun v k => ?_, fun v k n out => ?_⟩
  · subst hb
    rw [State.regAt, lane, if_pos rfl]
    exact Warp.reg_writeRegs u [⟨l, b, x⟩] (List.pairwise_singleton _ _) (List.mem_singleton.mpr rfl) hl
  · rw [State.fpxAt, State.fpxAt, lane]
    split
    · next hv =>
      subst hv
      obtain ⟨m, hm⟩ := Warp.lane_writeRegs u (dstWrites l d [x]) k
      rw [hm, here]
      exact ⟨rfl, rfl⟩
    · exact ⟨rfl, rfl⟩
  · rw [State.regAt, State.regAt, lane]
    split
    · next hv =>
      subst hv
      rw [here]
      refine Warp.reg_writeRegs_other u _ k n (fun y hy e => out ⟨rfl, ?_⟩)
      cases d with
      | reg b =>
        obtain rfl : y = ⟨l, b, x⟩ := by simpa [dstWrites] using hy
        obtain ⟨rfl, rfl⟩ := e
        simp [inDst]
      | _ => simp [dstWrites] at hy
    · rfl

theorem State.laneAt_writeRegs_other (s : State) {wid v : Nat} (apart : v ≠ wid) (ws : List RegWrite) (k : Nat) :
    (s.writeRegs wid ws).laneAt v k = s.laneAt v k := by
  refine (State.laneAt_modWarp s v wid k _ (fun w => Warp.wid_writeRegs w _)).trans ?_
  simp only [apart, if_false]
  rfl

/-- What a handler instruction leaves but for its record: D takes 0, and no other register, no flag and no byte outside the
scratchpads changes. -/
structure HandlerWrites (s t : State) (wid l : Nat) (d : Operand) : Prop where
  zero : ∀ b, d = .reg b → t.regAt wid l b = 0
  flags : SameFlags s t
  regs : ∀ u k n, ¬ (u = wid ∧ k = l ∧ inDst d 1 n = true) → t.regAt u k n = s.regAt u k n
  dram : ∀ a, Cells.get t.dram a = Cells.get s.dram a
  host : ∀ a, Cells.get t.hostMem a = Cells.get s.hostMem a
  blocks : ∀ b a, t.sharedAt b a = s.sharedAt b a ∧ t.weightAt b a = s.weightAt b a

/-- A write of 0 between changes that keep what the lanes hold. -/
theorem handlerWrites_of_contents {s x t : State} {wid l : Nat} {w : Warp} {d : Operand} (hw : s.warp? wid = some w) (hl : l < w.lanes.length)
    (before : x.contents = s.contents) (after : t.contents = (x.writeRegs wid (dstWrites l d [0])).contents) :
    HandlerWrites s t wid l d := by
  obtain ⟨u, hu, lanes⟩ : ∃ u, x.warp? wid = some u ∧ l < u.lanes.length := by
    have same := State.warp?_of_contents before wid
    rw [hw, Option.map_some, Option.map_eq_some_iff] at same
    obtain ⟨u, hu, e⟩ := same
    have len := congrArg (fun p : Nat × List (Cells 32 × BitVec 6 × Word) => p.2.length) e
    simp only [Warp.contents, List.length_map] at len
    exact ⟨u, hu, by rwa [len]⟩
  obtain ⟨taken, flags, others⟩ := x.writeRegs_single hu lanes d 0
  have first (v k : Nat) := State.laneAt_of_contents before v k
  have last (v k : Nat) := State.laneAt_of_contents after v k
  have reg {a b : State} {v k : Nat} (e : (a.laneAt v k).contents = (b.laneAt v k).contents) (n : Nat) : a.regAt v k n = b.regAt v k n :=
    congrArg (fun p : Cells 32 × BitVec 6 × Word => p.1.get n) e
  have fpx {a b : State} {v k : Nat} (e : (a.laneAt v k).contents = (b.laneAt v k).contents) : a.fpxAt v k = b.fpxAt v k :=
    congrArg (fun p : Cells 32 × BitVec 6 × Word => p.2.1) e
  have gen {a b : State} {v k : Nat} (e : (a.laneAt v k).contents = (b.laneAt v k).contents) : (a.laneAt v k).gen = (b.laneAt v k).gen :=
    congrArg (fun p : Cells 32 × BitVec 6 × Word => p.2.2) e
  obtain ⟨dram, host, blocks⟩ := State.memories_of_contents (t := t) (after.trans (b := (x.writeRegs _ _).contents) rfl)
  obtain ⟨dram0, host0, blocks0⟩ := State.memories_of_contents before
  exact {
    zero := fun b hb => (reg (last wid l) b).trans (taken b hb)
    flags := fun v k => ⟨(fpx (last v k)).trans ((flags v k).1.trans (fpx (first v k))),
      (gen (last v k)).trans ((flags v k).2.trans (gen (first v k)))⟩
    regs := fun v k n out => (reg (last v k) n).trans ((others v k n out).trans (reg (first v k) n))
    dram := fun a => (dram a).trans (dram0 a)
    host := fun a => (host a).trans (host0 a)
    blocks := fun b a => ⟨(blocks b a).1.trans (blocks0 b a).1, (blocks b a).2.trans (blocks0 b a).2⟩ }

section
variable {s : State} {i : Instr} {c : Cur} {w v : Warp} {r : Record} (found : s.warp? v.wid = some v) (full : v.lanes.length = 32)
  (lt : ∀ k ∈ r.lanes, k < 32) {k : Nat} (hk : k ∈ r.lanes)
include found full lt hk

/-- The lanes of a record that returns stand at its position again, past the instruction for traps 0x3E and 0x3F (R427). -/
theorem State.laneAt_returnFrom : let x := (s.returnFrom v r).laneAt v.wid k
    x.st = .runnable ∧ x.half = r.half ∧ x.repc = r.repc ∧
      x.pc = if r.trap = 0x3E ∨ r.trap = 0x3F then r.pc + s.fBytesAt v r.pc else r.pc := by
  intro x
  have lane := (State.laneAt_modLanes found (fun k hk => full ▸ lt k hk) (f := fun x : Lane => { x with
    st := .runnable, pc := if r.trap == 0x3E || r.trap == 0x3F then r.pc + s.fBytesAt v r.pc else r.pc, half := r.half, repc := r.repc })
    (fun _ => rfl) v.wid k).trans (if_pos ⟨rfl, hk⟩)
  have stands : x = _ := (State.laneAt_resolve _ v.wid r.seq v.wid k).trans lane
  rw [stands]
  refine ⟨rfl, rfl, rfl, ?_⟩
  simp only [Bool.or_eq_true, beq_iff_eq]

/-- The lanes of a record that is killed end (R427). -/
theorem State.laneAt_killRecord : ((s.killRecord v r).laneAt v.wid k).st = .ended := by
  have ended := (State.laneAt_modLanes found (fun k hk => full ▸ lt k hk) (f := Lane.endedOf) (fun _ => rfl) v.wid k).trans
    (if_pos ⟨rfl, hk⟩)
  have lane : (s.killRecord v r).laneAt v.wid k = (s.laneAt v.wid k).endedOf :=
    (State.laneAt_resolve _ v.wid r.seq v.wid k).trans ((State.laneAt_modWarp_of_lanes _ v.wid _ (fun _ => by rfl) (fun _ => by rfl) v.wid k).trans
      ((State.laneAt_of_warps (s.endLanes_warps v.wid r.lanes) v.wid k).trans ended))
  rw [lane]
  rfl
end

/-- What a handler instruction does as an issue, by its action. -/
theorem exec_handler {mk : Operands → Instr} (h : mk ∈ [Instr.hdlResume, Instr.hdlKill, Instr.hdlEsc]) :
    (∀ o, (mk o).operands = o) ∧ ∃ act, (∀ o s, exec (mk o) s = issue (mk o) s (fun e s => s.handlerInstr e act)) ∧
      ((∃ o, mk o = .hdlResume o) → act = .resume) ∧ ((∃ o, mk o = .hdlKill o) → act = .kill) ∧
      ((∃ o, mk o = .hdlEsc o) → act = .esc) := by
  simp only [List.mem_cons, List.not_mem_nil, or_false] at h
  obtain rfl | rfl | rfl := h
  · exact ⟨fun _ => rfl, .resume, fun _ _ => rfl, fun _ => rfl, fun ⟨_, h⟩ => (by cases h), fun ⟨_, h⟩ => (by cases h)⟩
  · exact ⟨fun _ => rfl, .kill, fun _ _ => rfl, fun ⟨_, h⟩ => (by cases h), fun _ => rfl, fun ⟨_, h⟩ => (by cases h)⟩
  · exact ⟨fun _ => rfl, .esc, fun _ _ => rfl, fun ⟨_, h⟩ => (by cases h), fun ⟨_, h⟩ => (by cases h), fun _ => rfl⟩

/-- Settles O29: the lane's word and what its record's lanes become, after changes that keep what the lanes hold. -/
theorem handlerInstructionResults : Obligations.HandlerInstructionResults := by
  unfold Obligations.HandlerInstructionResults
  intro mk hmk s o c w l h one ⟨x, hx, window⟩
  obtain ⟨ho, act, run, resume, kill, esc⟩ := exec_handler hmk
  let e := s.env (mk o) c w
  let a := s.advance c
  have operands : e.o = o := ho o
  have lane : e.p = [l] := one
  have offset : (e.b a l).toNat = (s.sources o c w l).b.toNat := by rw [Env.b_advance, ho]
  have next : exec (mk o) s = .next (a.handlerInstr e act) := (run o s).trans (issue_next h _)
  have context : a.ctx? w.ctx = some x := hx
  have ok : ((a.ctx? e.w.ctx).map (fun c => c.windowOk e.w.die (e.b a l).toNat 1 true)).getD false = true := by
    rw [offset, show e.w = w from rfl, context]
    exact window
  obtain ⟨absent, present⟩ := State.handlerInstr_single lane ok
  rw [operands, offset, show e.c.wid = c.wid from rfl] at absent present
  refine ⟨fun none => ⟨_, next, ?_⟩, fun v r named apart full _ lt found => ⟨_, next, ?_⟩⟩
  · have write := absent (State.faultedAt_advance_none none) act
    have all := State.writeRegs_perLane a e (fun _ => [1])
    rw [lane, List.flatMap_singleton, operands] at all
    rw [write.trans all]
    exact writes_perLane h (fun _ => ([1], 0)) 1 _ (fun _ => le_rfl) (fun _ _ => ⟨rfl, rfl⟩)
  · obtain ⟨returned, killed, escalated⟩ := present v r (State.faultedAt_advance_some named apart)
    have kept : a.contents = s.contents := s.contents_advance c
    have there : a.warp? v.wid = some v := (s.warp?_advance_other c apart).trans found
    obtain ⟨u, hu, -, lanes⟩ := h.found
    have small : l < u.lanes.length := lanes ▸ activeLanes_lt h l (one ▸ List.mem_singleton.mpr rfl)
    have writes : HandlerWrites s (a.handlerInstr e act) c.wid l o.d := by
      cases act with
      | resume => exact handlerWrites_of_contents hu small ((a.contents_returnFrom v r).trans kept) (congrArg State.contents returned)
      | kill => exact handlerWrites_of_contents hu small ((a.contents_killRecord v r).trans kept) (congrArg State.contents killed)
      | esc =>
        have same := (congrArg State.contents escalated).trans (State.contents_escalate _ _ _ _)
        exact handlerWrites_of_contents hu small kept same
    refine ⟨writes.zero, writes.flags, writes.regs, writes.dram, writes.host, writes.blocks, fun is k hk => ?_, fun is k hk => ?_,
      fun is fresh => ?_⟩
    · obtain rfl := resume ⟨o, is⟩
      rw [returned, State.laneAt_writeRegs_other _ apart]
      obtain ⟨st, half, repc, pc⟩ := a.laneAt_returnFrom there full lt hk
      have bytes : a.fBytesAt v r.pc = s.fBytesAt v r.pc := (congrArg (fun x : State => x.fBytesAt v r.pc) (s.still_advance c) :)
      exact ⟨st, half, repc, bytes ▸ pc⟩
    · obtain rfl := kill ⟨o, is⟩
      rw [killed, State.laneAt_writeRegs_other _ apart]
      exact a.laneAt_killRecord there full lt hk
    · obtain rfl := esc ⟨o, is⟩
      obtain ⟨y, hy, named⟩ := State.ctx?_escalate (s := a.writeRegs c.wid (dstWrites l o.d [0])) (ctx := w.ctx) context (fresh x hx) v.wid r.seq
      rw [escalated]
      exact (congrArg (·.bind (·.escalated)) hy).trans named

end Sys2Proof.Machine
